-- ==== Sys2Proof/Word.lean ====
section
/-! DEFINITION. The words of the manual (00, "Conventions"): a word is 64 bits, a register is 32 bits.
Sparse tables of plain data stand in for the block's SRAM structures and register files. -/

namespace Sys2Proof

/-- A word of the manual: 64 bits. -/
abbrev Word := BitVec 64

/-- A register of the manual: 32 bits. -/
abbrev Reg := BitVec 32

/-- A byte. -/
abbrev Byte := BitVec 8

/-- A sparse table by number: keys strictly rising, and no entry equal to what an unlisted key reads as
(the table's default).  `Machine/Bits.lean` holds its operations. -/
abbrev Tbl (α : Type) := List (Nat × α)

end Sys2Proof
end

