-- ==== Sys2Proof/Syntax.lean ====
section
/-! DEFINITION. The commands that the block takes: what the host chip, the engines, the link, the test port and the block's
own units do to it, one constructor for each row of the table of commands (spec/opcode_table.json), with the values that
come with it. -/

namespace Sys2Proof

/-- rsp_status of a QPP response (02, Table 2.4). -/
inductive QStatus where
  | ok | fault | noTarget | poison
  deriving DecidableEq, Repr, Inhabited

/-- The strap pins (03, Table 3.4). -/
structure Straps where
  /-- ROLE: 0 standalone, 1 manager, 2 worker, 3 lock-step secondary. -/
  role : BitVec 2 := 0
  /-- DIE_ID. -/
  dieId : BitVec 6 := 0
  /-- FUSEMAP_SEL. -/
  fusemapSel : BitVec 2 := 0
  /-- REPRO_DEFAULT. -/
  repro : Bool := false
  /-- TALLY_SRC: value mode. -/
  tallySrc : Bool := false
  /-- DEBUG_FORCE_EN. -/
  debugForce : Bool := false
  /-- LANE_GROUP. -/
  laneGroup : BitVec 2 := 0
  deriving DecidableEq, Repr, Inhabited

/-- A message to a receive queue (10, Table 10.2; 14, Table 14.4). -/
structure Msg where
  /-- Receive queue it names. -/
  rxq : Nat := 0
  /-- TAG. -/
  tag : Nat := 0
  /-- LAND. -/
  land : Word := 0
  /-- Payload words, 1 to 4. -/
  words : List Word := []
  /-- SRC_DIE. -/
  srcDie : Nat := 0
  /-- SRC_KIND. -/
  srcKind : Nat := 0
  /-- SRC_ID. -/
  srcId : Nat := 0
  /-- Context of a sender on this die, for the access check. -/
  ctx : Nat := 0
  deriving DecidableEq, Repr, Inhabited

/-- A command of the block: one constructor for each row of the table of commands.  The operands carry what comes from
outside the block (a register value, a response status and its data, a received flit, a bus beat) or name the unit in which
the event takes place. -/
inductive Instr where
  /-- POR_RESET (R113): por_n has been sampled low for 32 consecutive tclk, so a reset with RST_CAUSE 0x1 starts. -/
  | porReset
  /-- WARM_RESET (R113): warm_rst_n has been sampled low for 32 consecutive tclk, so a reset with RST_CAUSE 0x2 starts. -/
  | warmReset
  /-- SOFT_RST (R118): A write of 0x0000_C1A5 to SOFT_RST is acknowledged, and a soft reset starts in the tclk after the acknowledgement; any other value is ignored. -/
  | softRst (v : Reg)
  /-- CRITICAL_ERROR_RESET (R798): A parity error in critical control state, or an uncorrectable error in a die-critical SRAM word, starts a reset with RST_CAUSE 0x6 and stores the last fatal record. -/
  | criticalErrorReset (src : BitVec 8) (loc : Reg) (syn : BitVec 8)
  /-- END_OF_RESET (R117): Reset ends once no source holds it and 64 tclk have passed; the straps are sampled, tf_rst_active falls, the kept state of Table 3.2 is updated and bring-up stage 1 begins. -/
  | endOfReset (straps : Straps) (bank0 bank1 bank2 bank3 : BitVec 128)
  /-- BRINGUP_STAGE_END (R139): A bring-up stage of Table 3.6 completes and the next stage begins; the end of stage 6 sets BRINGUP_DONE and releases the held event messages. -/
  | bringupStageEnd
  /-- ID_WORD_RESPONSE (R147): An engine answers an identity word request with id_vld, and the SIC requests the next word and applies the record checks when the record is complete. -/
  | idWordResponse (lane : Fin 64) (word : Reg)
  /-- ID_WORD_TIMEOUT (R84): An identity word request has no answer within 64 tclk, so the engine is treated as ABSENT. -/
  | idWordTimeout (lane : Fin 64)
  /-- HBM_RECORD_READ_DONE (R151): The read of an HBM stack record returns, and the SIC reports the stack present, absent or bad record. -/
  | hbmRecordReadDone (stack : Fin 8) (st : QStatus) (data : List Word)
  /-- I3C_MODULE_READ_DONE (R157): An I3C module read ends, and the module's bytes are written to its identity slot; after the last one, MOD_DONE is set. -/
  | i3cModuleReadDone (module : Fin 16) (data : List Word)
  /-- I3C_ADDRESS_NACK (R89): A module that does not acknowledge its address after three attempts is treated as ABSENT. -/
  | i3cAddressNack (module : Fin 16)
  /-- TALLY_LOAD (R96): In step mode, tally_load loads the Tally from tally_load_val; a backward move is recorded, and alarms passed by the load fire. -/
  | tallyLoad (val : Word) (lock : Bool)
  /-- TALLY_STEP (R96): The Tally advances by tally_step in step mode, or takes tally_load_val in value mode. -/
  | tallyStep (ns : BitVec 2) (val : Word) (lock : Bool)
  /-- LOCK_LOST (R102): A fall of tally_lock adds 1 to LOCK_LOSS_CNT and sets IRQ_RAW.LOCK_LOST. -/
  | lockLost
  /-- PP_LINK_DOWN (R91): pp_link_up falls, every unacknowledged frame counts as lost, and the Punty Port stops sending. -/
  | ppLinkDown
  /-- PP_LINK_RESUME (R731): pp_link_up rises, and each UP link resends from UNA. -/
  | ppLinkResume
  /-- SCAN_MODE (R112): While tm_scan_mode is high, every valid output is held low and the mission inputs are ignored. -/
  | scanMode (high : Bool)
  /-- REG_WRITE (R49): An HTP write to a register that has no row of its own is checked and applied as its access code and field class give, or answered with FAULT or NOTARGET. -/
  | regWrite (addr : BitVec 22) (len : BitVec 6) (be : BitVec 4) (v : Reg)
  /-- STAGE_COMMIT (R177): A write of STAGE_COMMIT checks the page's shadow set against its agreement rules and then applies the set atomically or rejects it. -/
  | stageCommit (page : Fin 1024)
  /-- STAGE_DISCARD (R182): A write of STAGE_DISCARD copies every active S field over its shadow. -/
  | stageDiscard (page : Fin 1024)
  /-- ERR_CLR (R165): A write of PAGE_CTRL.ERR_CLR clears ERR_CODE, ERR_INFO_LO and ERR_INFO_HI. -/
  | errClr (page : Fin 1024)
  /-- DIGEST_UPDATE (R198): A page digest or the die digest finishes its recomputation and covers the latest change, and its BUSY flag clears. -/
  | digestUpdate (page : Option (Fin 1024))
  /-- QUIESCE_REQ (R128): A write of QUIESCE with REQ set starts the quiesce sequence of Table 3.3 in DRAIN or ABORT mode. -/
  | quiesceReq (v : Reg)
  /-- QUIESCE_DONE (R128): The last condition of Table 3.3 is met, and QUIESCE_STAT.DONE and tf_quiesced rise. -/
  | quiesceDone
  /-- QUIESCE_END (R208): A write that clears QUIESCE.REQ ends quiescing; the units resume, pending alarms fire and held actions take place. -/
  | quiesceEnd
  /-- RING_TAIL (R216): A write of FE.RING_TAIL rings the doorbell, or records RING_OVERRUN when it exceeds the ring size. -/
  | ringTail (v : Reg)
  /-- FE_CTRL_EN (R223): A write of FE_CTRL.EN starts or stops ring decoding, clears RING_STOP, or records BAD_RING_CFG. -/
  | feCtrlEn (v : Reg)
  /-- RING_FETCH_DONE (R218): A ring fetch returns its entries, and the FE reads the object-table blocks of the batch, or stops decoding with RING_FETCH_FAIL. -/
  | ringFetchDone (st : QStatus) (data : List Word)
  /-- OT_READ_DONE (R288): An object-table block read returns, and the held image is used for the batch, a reference release or a query, or OT_READ_FAIL is recorded. -/
  | otReadDone (block : Fin 8192) (st : QStatus) (data : List Word)
  /-- OT_WRITE_ACK (R292): An object-table write is acknowledged; the byte counts change, and an OBJ_GONE record follows for a freed dying object, or OT_WRITE_FAIL is recorded. -/
  | otWriteAck (block : Fin 8192) (st : QStatus)
  /-- RING_NOP (R849): A NOP ring entry is answered OK, with its CONTEXT and QUEUE echoed. -/
  | ringNop
  /-- SUBMIT (R226): A SUBMIT entry is checked against Table 5.4 and then accepted onto its queue, taking object references, or rejected. -/
  | submit
  /-- QUEUE_CREATE (R239): A QUEUE_CREATE entry is checked, writes INIT_SEQ to CPL_ADDR, and moves the queue to IDLE once the write is acknowledged. -/
  | queueCreate
  /-- QUEUE_DESTROY (R262): A QUEUE_DESTROY entry stops the queue's program, discards its waiting submissions, drops its ready tasks and moves the queue to DESTROYING. -/
  | queueDestroy
  /-- QUEUE_DESTROY_DONE (R264): The last completion of a destroying queue arrives; its instances retire, its references are released, the slot is freed and the record is written. -/
  | queueDestroyDone (q : Fin 512)
  /-- QUEUE_RESET (R261): A QUEUE_RESET entry releases a held GUILTY queue whose aborts are complete, or is answered with an error. -/
  | queueReset
  /-- CTX_CREATE (R303): A CTX_CREATE entry is checked; it increments CTX_GEN, clears the context's counters and makes the context LIVE. -/
  | ctxCreate
  /-- CTX_DESTROY (R305): A CTX_DESTROY entry starts the teardown of a LIVE context, or frees a DEAD context's ABANDONED slots. -/
  | ctxDestroy
  /-- OBJ_CREATE (R303): An OBJ_CREATE entry is checked and makes its handle a LIVE memory object. -/
  | objCreate
  /-- OBJ_FREE (R291): An OBJ_FREE entry makes its object FREE when REFS is zero, or DYING otherwise. -/
  | objFree
  /-- SYNC_CREATE (R454): A SYNC_CREATE entry creates a sync object of its TYPE with INIT, or is answered BAD_CFG. -/
  | syncCreate
  /-- RXQ_CREATE (R303): An RXQ_CREATE entry creates a receive queue with a zero landing window. -/
  | rxqCreate
  /-- SLOT_FREE (R298): A SLOT_FREE entry releases a sync object's waiters with ABANDONED and frees it, or closes a receive queue. -/
  | slotFree
  /-- RXQ_CLOSED (R299): Every accepted landing write of a closing receive queue has been acknowledged, so the slot becomes FREE and its record is written. -/
  | rxqClosed (rxq : Fin 4096)
  /-- PART_TEARDOWN (R305): A PART_TEARDOWN entry tears down or frees every context of the partition that is not FREE. -/
  | partTeardown
  /-- PART_CTRL_EN (R272): A write that sets PART_CTRL.EN checks the partition against Table 6.3 and enables it, or records PART_BAD. -/
  | partCtrlEn (part : Fin 16) (v : Reg)
  /-- TEARDOWN_START (R281): Under the hold, a context enters TEARDOWN; its queues are destroyed, and its sync objects and receive queues become ABANDONED with their waiters released. -/
  | teardownStart
  /-- TEARDOWN_END (R281): Every queue of a tearing-down context is FREE, so its objects count as FREE, its slots are freed or kept, and its record is written. -/
  | teardownEnd (ctx : Fin 256)
  /-- GRAPH_LOAD (R398): A GRAPH_LOAD entry is checked, takes an object reference, sets the graph LOADING and queues the load in the GS. -/
  | graphLoad
  /-- GRAPH_LOAD_DONE (R402): A PGI load passes or fails the checks of Table 8.7, makes version 1 current or frees what it took, and writes its record. -/
  | graphLoadDone (st : QStatus) (data : List Word)
  /-- GRAPH_PATCH (R396): A GRAPH_PATCH entry is checked and queued in the GS. -/
  | graphPatch
  /-- GRAPH_PATCH_COMMIT (R407): A patch builds a new version copy-on-write and commits it in one tclk, or fails with GS_FULL or BAD_PATCH. -/
  | graphPatchCommit (st : QStatus) (data : List Word)
  /-- GRAPH_UNLOAD (R409): A GRAPH_UNLOAD entry sets the graph UNLOADING; it returns to FREE once every version is freed. -/
  | graphUnload
  /-- PROGRAM_FETCH_DONE (R247): A program or patch-list prefetch returns and is applied to the cache, or marks the submission to fault when it would start. -/
  | programFetchDone (sub : Nat) (list : Bool) (st : QStatus) (data : List Word)
  /-- ARBITRATE (R242): A sequencer becomes free or a queue bound to it becomes READY, and the FE chooses a queue by strict priority and rotation. -/
  | arbitrate (sq : Fin 32)
  /-- PROGRAM_START (R314): A chosen program whose words are all cached starts; the sequencer state is set up and the shape patches are applied. -/
  | programStart (sq : Fin 32)
  /-- PROGRESS_TIMEOUT (R256): A queue's progress timer passes Q_TIMEOUT, and the queue faults with PROGRESS_TIMEOUT. -/
  | progressTimeout (q : Fin 512)
  /-- QUEUE_FAULT (R257): A queue faults: its program stops, the queue becomes GUILTY, its instances' tasks are dropped and their issues are aborted. -/
  | queueFault (q : Fin 512) (source : BitVec 4) (code : BitVec 8) (word : BitVec 16)
  /-- COMPLETION_WRITE_ACK (R249): A completion write is acknowledged, and the queue's INTMSG is sent, or CPL_WRITE_FAIL is recorded. -/
  | completionWriteAck (q : Fin 512) (st : QStatus)
  /-- INTMSG_ACK (R57): An INTMSG is answered, and a failing status is logged without retry. -/
  | intmsgAck (n : Nat) (st : QStatus)
  /-- COOKIE_NOTIFY (R479): The FE takes a handle from the notify FIFO, reads its VALUE, clears NPEND and writes a COOKIE record. -/
  | cookieNotify
  /-- HALT (R250): The HALT command ends the program without a completion write. -/
  | halt (sq : Fin 32)
  /-- FENCE_OUT (R332): The FENCE_OUT command hands the submission's SEQ to the FE for its completion, after every instance retires when DRAIN is set. -/
  | fenceOut (sq : Fin 32)
  /-- TIMEOUT_SET (R333): The TIMEOUT_SET command writes a clamped progress timeout into Q_TIMEOUT. -/
  | timeoutSet (sq : Fin 32)
  /-- PREEMPT_POINT (R606): The PREEMPT_POINT command is taken as a preemption when a demand exists and the conditions hold, and is otherwise passed as a NOP. -/
  | preemptPoint (sq : Fin 32)
  /-- NOP (R315): The NOP command moves on at once. -/
  | nop (sq : Fin 32)
  /-- LAUNCH (R344): The LAUNCH command offers a graph launch to the DE, binding its version, deadline and chain. -/
  | launch (sq : Fin 32)
  /-- LAUNCH_AT (R349): The LAUNCH_AT command launches an instance whose roots are held until the Tally reaches AT, passing through the gate when SYNC is set. -/
  | launchAt (sq : Fin 32)
  /-- LAUNCH_ACCEPT (R345): The DE accepts an offered launch once an instance slot and counters are free; it binds the version and sets the deadline and prediction. -/
  | launchAccept
  /-- COMPACTION_DONE (R413): ISR compaction frees a counter run long enough for the waiting launch. -/
  | compactionDone
  /-- INSTANCE_OPEN (R414): The ISR opens an instance; it copies the staging block, loads the patch block, starts counter initialisation and releases the roots. -/
  | instanceOpen (inst : Fin 16384)
  /-- COUNTER_INIT_END (R23): An instance's counter initialisation ends, and the completions held for it are accepted. -/
  | counterInitEnd (inst : Fin 16384)
  /-- WAIT (R354): The WAIT command waits on a sync object, the Tally or the current instance's retirement. -/
  | wait (sq : Fin 32)
  /-- SIGNAL (R354): The SIGNAL command sends a SIGNAL to a local or remote sync object. -/
  | signal (sq : Fin 32)
  /-- ADD (R354): The ADD command sends an ADD to a local or remote sync object. -/
  | add (sq : Fin 32)
  /-- PATCH (R340): The PATCH command writes its operand to a slot of the staging patch block. -/
  | patch (sq : Fin 32)
  /-- LDSHAPE (R337): The LDSHAPE command reads a shape record or scratch words into the shape registers. -/
  | ldshape (sq : Fin 32)
  /-- LDSHAPE_DATA (R337): The LDSHAPE read returns and the shape registers are written, or the command faults with MEM_FAULT. -/
  | ldshapeData (sq : Fin 32) (st : QStatus) (data : List Word)
  /-- STSHAPE (R338): The STSHAPE command writes shape registers to a shape record or to scratch. -/
  | stshape (sq : Fin 32)
  /-- STSHAPE_ACK (R339): The STSHAPE write is acknowledged and the command moves on, or it faults with MEM_FAULT. -/
  | stshapeAck (sq : Fin 32) (st : QStatus)
  /-- SOP (R343): The SOP command computes a Table 7.5 function into a shape register. -/
  | sop (sq : Fin 32)
  /-- JUMP (R331): The JUMP command sets the PC to TARGET. -/
  | jump (sq : Fin 32)
  /-- BRANCH (R331): The BRANCH command jumps to TARGET when COND holds. -/
  | branch (sq : Fin 32)
  /-- ROUTE (R372): The ROUTE command hands a route request to the Shears for a route slot of the current instance. -/
  | route (sq : Fin 32)
  /-- MIX (R374): The MIX command hands a history to a mix slot of the current instance through the Marver. -/
  | mix (sq : Fin 32)
  /-- STREAM_ARM (R375): The STREAM_ARM command arms a stream descriptor and may return the arm's generation. -/
  | streamArm (sq : Fin 32)
  /-- SELECT (R366): The SELECT command takes the head record of one of the named receive queues, or waits for one, or reports none with NOWAIT. -/
  | select (sq : Fin 32)
  /-- SEND (R363): The SEND command sends a message to a local or remote receive queue and waits for its answer. -/
  | send (sq : Fin 32)
  /-- SEND_ANSWER (R363): A SEND receives its ACK or NACK and writes the status register, or retries. -/
  | sendAnswer (sq : Fin 32)
  /-- SEND_RETRY (R364): The backoff of an AUTORETRY SEND expires, and the message is resent. -/
  | sendRetry (sq : Fin 32)
  /-- ENGINE_COMPLETION (R419): A lane accepts a completion beat and matches it to its issue; the DE walks the task's edges, decrements counters and resolves Canes. -/
  | engineCompletion (lane : Fin 64) (beat : BitVec 128)
  /-- ENGINE_FAULT (R804): An issue closes with FAULT or an unexpected ABORTED; its instance enters ABORTING and its context is torn down with cause 3. -/
  | engineFault (lane : Fin 64) (beat : BitVec 128)
  /-- TASK_HANDOFF (R434): The DE hands a ready task or copy to a lane's ready queue, or to the hold buffer or the gang coordinator. -/
  | taskHandoff
  /-- CANE_COUNT (R424): A Cane's count N is taken from its source, and its copies are created, or the Cane faults CANE_OVER or completes null. -/
  | caneCount (inst : Fin 16384) (task : BitVec 16)
  /-- INSTANCE_RETIRE (R417): An instance whose tasks are complete, or that is ABORTING with no open issue, retires and frees its resources. -/
  | instanceRetire (inst : Fin 16384)
  /-- LANE_ISSUE (R571): In an issue opportunity, the lane issues the candidate with the smallest key to the chosen engine, or reserves arrays for a gang. -/
  | laneIssue (lane : Fin 64)
  /-- STEAL (R437): An idle lane steals a ready entry, or half of a run of copies, from a victim lane. -/
  | steal (lane : Fin 64)
  /-- GANG_GO (R68): Once a gang's issue beats have transferred on every lane, go_valid is pulsed with its tag. -/
  | gangGo
  /-- ENGINE_WAKE (R847): cg_ack falls after the lane withdraws cg_req, and the lane drives the waiting issue. -/
  | engineWake (lane : Fin 64) (pos : Fin 68)
  /-- PATCH_BLOCK_LOAD (R28): A patch block read from its home completes, and the held tasks of its instance may issue, or PATCH_HOME_FAIL is recorded. -/
  | patchBlockLoad (inst : Fin 16384) (st : QStatus) (data : List Word)
  /-- SYNC_OP_APPLY (R468): The ST applies up to 4 operations from its FIFO, updates VALUE, registers or releases waiters, and counts out-of-order signals. -/
  | syncOpApply
  /-- WAITER_RELEASE (R470): A registered waiter whose condition is met is released, and its command moves on. -/
  | waiterRelease
  /-- REALIGN_PASS (R485): At each REALIGN_PERIOD multiple, a realign pass corrects stream drift and releases lost wakeups. -/
  | realignPass
  /-- LEHR_SAMPLE (R490): Every 1,024 tclk, the Lehr samples each partition and the die for stalls. -/
  | lehrSample
  /-- DEADLOCK (R491): A partition has stayed stalled for LEHR_WIN, and a DEADLOCK is reported. -/
  | deadlock (part : Option (Fin 16))
  /-- LIVELOCK_SEND (R493): A SEND has retried RETRY_LIMIT times, and LIVELOCK_SEND is reported. -/
  | livelockSend (sq : Fin 32)
  /-- LIVELOCK_RXQ (R494): A receive queue has NACKed NACK_LIMIT messages within LEHR_WIN with none consumed, and LIVELOCK_RXQ is reported. -/
  | livelockRxq (rxq : Fin 4096)
  /-- STUCK_ABORT (R495): An aborted issue has had no completion for ABORT_WIN, and STUCK_ABORT is reported. -/
  | stuckAbort (lane : Fin 64) (id : Fin 256)
  /-- LEHR_ESCALATE (R497): A masked report's IRQ bit is still set ESC_WIN after the report; ESCALATED is set, and a watchdog reset may follow. -/
  | lehrEscalate
  /-- DUMP_WRITE_ACK (R499): A Lehr dump write is acknowledged; after the last record, the header is written, or DUMP_WRITE_FAIL is recorded. -/
  | dumpWriteAck (n : Nat) (st : QStatus)
  /-- DBG_VALUE_LO (R503): A read of DBG_VALUE_LO snapshots the selected sync object's entry and its count of waiters. -/
  | dbgValueLo
  /-- FORCE_VAL_HI (R504): A write of FORCE_VAL_HI requests a hand-set of the selected object, or is refused. -/
  | forceValHi (v : Reg)
  /-- MESSAGE_TAKE (R510): The MF checks a message against Table 10.1 and places it in the ring with an ACK, or NACKs it. -/
  | messageTake
  /-- RECORD_WRITE_ACK (R517): A ring record's body writes are acknowledged, and word 0 is written; once that is acknowledged, the record becomes takeable. -/
  | recordWriteAck (rxq : Fin 4096) (rec : Nat) (st : QStatus)
  /-- RXQ_CTRL (R567): A write of RXQ_CTRL pauses or resumes the selected receive queue. -/
  | rxqCtrl (v : Reg)
  /-- LAND_WINDOW_WRITE (R514): A write of LAND_HI or LAND_SIZE sets the selected queue's landing window, or zeroes it and records LAND_BAD. -/
  | landWindowWrite (size : Bool) (v : Reg)
  /-- FIFO_DATA (R533): A read of FIFO_DATA returns the word at RD and advances RD, or sets UNDERRUN. -/
  | fifoData (page : Fin 1024)
  /-- MARK (R534): FIFO_CTRL.MARK sets MK to RD. -/
  | mark (page : Fin 1024)
  /-- REWIND (R534): FIFO_CTRL.REWIND sets RD to MK. -/
  | rewind (page : Fin 1024)
  /-- RELEASE (R534): FIFO_CTRL.RELEASE sets RL and MK to RD. -/
  | release (page : Fin 1024)
  /-- CONTRIBUTION_ADD (R549): A contribution read returns and is added to the accumulators. -/
  | contributionAdd (cq : Fin 1024) (idx : BitVec 16) (st : QStatus) (data : List Word)
  /-- ROUND_RELEASE (R553): The round's sum write is acknowledged; DONE is signalled and the closing completion is walked. -/
  | roundRelease (cq : Fin 1024) (st : QStatus)
  /-- CQ_CTRL_EN (R564): A write of CQ_CTRL.EN checks the combining queue against Table 10.6 and takes its lines, or records CQ_BAD_CFG. -/
  | cqCtrlEn (v : Reg)
  /-- ACCOUNTING_PERIOD (R576): An accounting period ends; deficits, ranks and deadline predictions are updated. -/
  | accountingPeriod
  /-- DEADLINE_MISS (R588): A deadline alarm fires; the instance becomes MISSED, and its queue faults when MISS_ACT is 1. -/
  | deadlineMiss (inst : Fin 16384)
  /-- LAUNCH_AT_RELEASE (R349): The Tally reaches AT, and the roots of a LAUNCH_AT instance are released and its epochs are bound. -/
  | launchAtRelease (inst : Fin 16384)
  /-- TALLY_WAIT_RELEASE (R355): The Tally reaches the count of a WAIT of KIND 1 or 2, and the WAIT is released. -/
  | tallyWaitRelease (sq : Fin 32)
  /-- MIX_ACCEPT (R596): The Marver cuts a history into chunks, writes the mix patch slots and fills the mix slot. -/
  | mixAccept
  /-- CHUNK_RELEASE (R599): The Marver releases the next chunk copy of a mix under INFLIGHT and its rate limit. -/
  | chunkRelease (inst : Fin 16384) (slot : Fin 4)
  /-- BUBBLE_FILL (R604): An idle lane with no candidate gets a held chunk copy. -/
  | bubbleFill (lane : Fin 64)
  /-- MARVER_ADAPTATION (R601): At each ADAPT_US multiple, the Marver reads utilisation and adjusts phi. -/
  | marverAdaptation (st : QStatus) (busy total : Word)
  /-- PREEMPTION_SAVE_WRITE_ACK (R611): A save write of a taken point is acknowledged, moving the preemption through its sequencer-state, directory and header steps until the queue is SAVED. -/
  | preemptionSaveWriteAck (q : Fin 512) (st : QStatus)
  /-- RESTORE (R613): Arbitration grants a SAVED queue; the header is checked, the restores are issued and the program resumes, or it faults with RESTORE_FAIL. -/
  | restore (sq : Fin 32)
  /-- POINT_LATE (R616): A queue's point timer passes POINT_LIMIT_US, so the queue is flagged POINT_LATE and may take a full save. -/
  | pointLate (q : Fin 512)
  /-- ROUTE_COMPUTE (R629): The Shears takes the next queued route, reads and checks its descriptor, and computes its selection, capacity and sort. -/
  | routeCompute (st : QStatus) (data : List Word)
  /-- ROUTE_LAND (R644): Every table write of a route is acknowledged; the route lands in its route slot and sends count messages or becomes AGREED. -/
  | routeLand (route : Nat) (st : QStatus)
  /-- ROUTE_AGREED (R660): The plan STATE write is acknowledged after every peer has arrived, and the route is AGREED. -/
  | routeAgreed (route : Nat) (st : QStatus)
  /-- AGREE_TIMEOUT (R661): AGREE_US passes since landing, and the route faults with AGREE_TIMEOUT. -/
  | agreeTimeout (route : Nat)
  /-- PLACEMENT_EPOCH (R670): A placement epoch ends; the popularity snapshot and any proposal are written, and the counters are cleared. -/
  | placementEpoch (st : QStatus) (data : List Word)
  /-- PROPOSAL_APPLY (R672): The auto-applied placement write is acknowledged, and GRP_NEXT is armed. -/
  | proposalApply (st : QStatus)
  /-- GRP_CFG_EN (R677): A write that sets GRP_CFG.EN checks the group and enables it, or records GRP_BAD. -/
  | grpCfgEn (v : Reg)
  /-- STREAM_ENTRY_CHECK (R686): A stream entry read returns and is checked; the arm becomes ACTIVE with its bases, or faults its queue. -/
  | streamEntryCheck (stream : BitVec 16) (st : QStatus) (data : List Word)
  /-- STREAM_TRANSFER (R691): The conditions of R691 hold, and the STRM unit issues the next transfer of a stream. -/
  | streamTransfer (stream : BitVec 16)
  /-- STREAM_ARM_END (R690): The last transfer of an arm closes; DONE is signalled, and the pending arm loads or the slot frees. -/
  | streamArmEnd (stream : BitVec 16)
  /-- SEAL (R704): TBL_CTRL.SEAL moves an OPEN shadow to SEALING. -/
  | seal
  /-- UNSEAL (R704): TBL_CTRL.UNSEAL moves a SEALED shadow back to OPEN. -/
  | unseal
  /-- ARM (R704): TBL_CTRL.ARM arms a flip alarm at FLIP_AT, or starts a cast on a manager with CAST_TBL. -/
  | arm
  /-- DISARM (R704): TBL_CTRL.DISARM withdraws an armed flip, and casts the disarm on a manager. -/
  | disarm
  /-- TABLE_FLIP (R705): The flip alarm fires; EPOCH rises and the live counts shift. -/
  | tableFlip
  /-- EPOCH_LOAD (R707): A write of EPOCH_LOAD sets EPOCH when nothing is live, or records EPOCH_BUSY. -/
  | epochLoad (v : Reg)
  /-- HB (R720): A received heartbeat moves the link state machine and carries the partner's ACK, digest and flags. -/
  | hb (flit : BitVec 512)
  /-- HEARTBEAT_ALARM (R721): At each HB_US multiple, the die sends heartbeats and ends lost links. -/
  | heartbeatAlarm
  /-- SEQUENCED_FRAME_RECEIPT (R725): A sequenced frame is delivered in order, or NAKed as a gap, or acknowledged again as a duplicate. -/
  | sequencedFrameReceipt (flit : BitVec 512)
  /-- ACK (R727): A received ACK frame frees the acknowledged frames. -/
  | ack (flit : BitVec 512)
  /-- NAK (R727): A received NAK triggers go-back retransmission. -/
  | nak (flit : BitVec 512)
  /-- ACK_TIMER (R726): 64 tclk pass after a delivery with no frame to carry EXP, and an ACK frame is sent. -/
  | ackTimer (die : Fin 64)
  /-- RETRANSMIT_TIMEOUT (R727): The retransmit timer expires, and unacknowledged frames are resent. -/
  | retransmitTimeout (die : Fin 64)
  /-- SYNC_OP (R734): A SYNC_OP frame is applied at the object's die as a signal, add or remote WAIT. -/
  | syncOp (die : Fin 64)
  /-- SYNC_REL (R737): A SYNC_REL frame releases, retries or faults the remote WAIT, or returns orphan units. -/
  | syncRel (die : Fin 64)
  /-- REMOTE_WAIT_RETRY (R737): The 1 µs RETRY wait ends, and the remote WAIT is resent. -/
  | remoteWaitRetry (sq : Fin 32)
  /-- SYNC_CANCEL (R739): A SYNC_CANCEL frame ends a remote registration. -/
  | syncCancel (die : Fin 64)
  /-- MSG (R741): A MSG frame is delivered to the MF, or held for its MSG_X. -/
  | msg (die : Fin 64)
  /-- MSG_X (R717): A MSG_X frame completes a four-word message for the MF. -/
  | msgX (die : Fin 64)
  /-- MSG_ANS (R741): A MSG_ANS frame hands its code to the SEND or to the Shears. -/
  | msgAns (die : Fin 64)
  /-- RESET (R758): A RESET frame from the manager with a good epoch and KEY starts a Punty-directed reset after a RESET_ACK. -/
  | reset (die : Fin 64)
  /-- RESET_ACK (R759): A RESET_ACK ends the session and sets WRST_STAT.RESULT to ACKED. -/
  | resetAck (flit : BitVec 512)
  /-- WRST (R757): A write of WRST.GO on the manager sends a RESET to the named worker. -/
  | wrst (v : Reg)
  /-- TBL_PREP (R751): A worker answers TBL_PREP with READY, NOT_SEALED or TOO_LATE. -/
  | tblPrep (die : Fin 64)
  /-- TBL_ARM (R753): A worker takes TBL_ARM as a write of FLIP_AT followed by ARM, and answers. -/
  | tblArm (die : Fin 64)
  /-- TBL_DISARM (R755): A worker disarms on TBL_DISARM and answers. -/
  | tblDisarm (die : Fin 64)
  /-- TBL_ANS (R754): The manager collects TBL_ANS answers and advances the cast. -/
  | tblAns (die : Fin 64)
  /-- CAST_TIMEOUT (R752): CAST_US passes without every answer, and the cast ends REFUSED or TIMEOUT. -/
  | castTimeout
  /-- LS_CTRL_EN (R775): A write of LS_CTRL.EN checks and starts pairing, or stops lock-step when cleared. -/
  | lsCtrlEn (v : Reg)
  /-- LSTEP (R788): An LSTEP frame delivers START, ENTRIES or HALT to the lock-step machine. -/
  | lstep (die : Fin 64)
  /-- LS_FLUSH (R780): The oldest held entry has waited LS_FLUSH tclk, and the secondary sends an ENTRIES frame. -/
  | lsFlush
  /-- LS_ORPHAN (R783): An unmatched entry stays LS_MATCH_US, leaves the table and counts as a divergence. -/
  | lsOrphan (key : Word) (mine : Bool)
  /-- SRAM_CORRECTED (R794): A single-bit SRAM error is corrected, written back and counted. -/
  | sramCorrected (src : BitVec 8) (owner : Nat) (loc : Reg) (syn : BitVec 8)
  /-- SRAM_UNCORRECTABLE (R800): An uncorrectable error in a per-context word starts a containment: bank check, owner resolution and hold. -/
  | sramUncorrectable (src : BitVec 8) (owner : Nat) (loc : Reg) (syn : BitVec 8)
  /-- CONTAINMENT_HOLD_END (R800): Teardown step 1 completes under the hold; the hold ends and the log record is committed. -/
  | containmentHoldEnd
  /-- PATROL_SCRUB (R795): Every SCRUB_GAP tclk, the scrubber reads the next SRAM word. -/
  | patrolScrub
  /-- INJ (R812): A write of INJ arms an error injection into the named structure, or is refused. -/
  | inj (v : Reg)
  /-- SNAP (R816): PMU_CMD.SNAP copies all counters into the snapshot bank. -/
  | snap
  /-- CLEAR (R816): PMU_CMD.CLEAR clears all counters. -/
  | clear
  /-- UQ_SEL (R819): A write of UQ_SEL loads a per-context snapshot. -/
  | uqSel (v : Reg)
  /-- OBJ_SEL (R313): A write of OBJ_SEL starts an object query of the handle. -/
  | objSel (v : Reg)
  /-- TRACE_STAGE (R823): Events of a tclk are staged as trace records, or dropped and counted. -/
  | traceStage
  /-- TRACE_FLUSH (R826): Eight records, or 4,096 tclk with fewer, start a trace buffer write. -/
  | traceFlush
  /-- TRACE_WRITE_ACK (R826): A trace write is acknowledged and WPTR advances and is written back, or capture stops with TRC_WRITE_FAIL. -/
  | traceWriteAck (st : QStatus)
  /-- TRC_CTRL_EN (R829): A write that sets TRC_CTRL.EN starts capture, or records TRC_BAD_CFG. -/
  | trcCtrlEn (v : Reg)
  /-- TRC_MARK (R821): A write of TRC_MARK stages a marker record. -/
  | trcMark (v : Reg)
  /-- HALT_REQ (R831): HALT_REQ halts a sequencer at its next command boundary. -/
  | haltReq (v : Reg)
  /-- RESUME (R833): RESUME ends a debug halt. -/
  | resume (v : Reg)
  /-- STEP (R833): STEP runs a halted sequencer for one command. -/
  | step (v : Reg)
  /-- SHAPE_WR_HI (R836): A write of SHAPE_WR_HI writes a halted sequencer's shape register, or is refused. -/
  | shapeWrHi (v : Reg)
  /-- DBG_ADDR (R839): An Update-DR of DBG_ADDR starts a TAP register read or sets up a write. -/
  | dbgAddr (dr : BitVec 23)
  /-- DBG_DATA (R839): An Update-DR of DBG_DATA starts a TAP register write, refused without DEBUG_FORCE. -/
  | dbgData (dr : BitVec 34)
  /-- WP_MBIST (R843): WP_MBIST runs a march over every SRAM word. -/
  | wpMbist (fail : Reg)
  /-- CG_ACK_RISE (R78): An engine stops its clock and raises cg_ack, so the lane counts it as gated. -/
  | cgAckRise (lane : Fin 64) (pos : Fin 68)
  /-- INIT_SEQ_WRITE_ACK (R241): The INIT_SEQ write of a QUEUE_CREATE is acknowledged, or fails, and the queue moves to IDLE and is answered OK. -/
  | initSeqWriteAck (q : Fin 512) (st : QStatus)
  /-- RESPONSE_WRITE_ACK (R234): A response-ring record write is answered; a COOKIE record is followed by its INTMSG, and a failure records CPL_WRITE_FAIL. -/
  | responseWriteAck (idx : Nat) (st : QStatus)
  /-- HEAD_WB_ACK (R220): A RING_HEAD writeback is answered, and a failure records HEAD_WB_FAIL without retry. -/
  | headWbAck (st : QStatus)
  /-- COST_HEADER_READ (R584): The cost-header read of an accepted launch returns, and the instance's prediction is set, possibly flagging LATE_PREDICTED, or COST_BAD is recorded. -/
  | costHeaderRead (inst : Fin 16384) (st : QStatus) (data : List Word)
  /-- PREEMPT_WAIT_PASSED (R605): A higher-priority ready array entry has waited PREEMPT_WAIT_US with no lane able to issue it, and a demand now stands against a victim queue. -/
  | preemptWaitPassed (lane : Fin 64)
  /-- COUNT_MESSAGE_RESEND (R658): The backoff after a retryable NACK of a Shears count message expires, and the message is resent. -/
  | countMessageResend (route : Nat) (die : Fin 64)
  /-- RESTORE_READ_DONE (R613): A read of the save header or saved sequencer state returns; the header is checked and the state reloaded, or the queue faults with RESTORE_FAIL. -/
  | restoreReadDone (q : Fin 512) (st : QStatus) (data : List Word)
  /-- PATCH_WRITE_BACK_ACK (R27): The write-back of an evicted patch block to its home is answered, and a failure faults the instance's queue with PATCH_LOAD_FAIL. -/
  | patchWriteBackAck (inst : Fin 16384) (st : QStatus)
  /-- ID_AREA_WRITE_ACK (R160): An identity-area write of the SIC is answered, and a failure is logged as ID_WRITE_FAIL while bring-up continues. -/
  | idAreaWriteAck (slot : Nat) (st : QStatus)
  /-- REG_READ (R184): An HTP read of a register returns its value, loads the _HI latch on a _LO read, or is answered NOTARGET. -/
  | regRead (addr : BitVec 22) (len : BitVec 6)
  /-- BAD_OPCODE (R321): The sequencer decodes a word whose opcode Table 7.2 does not list, and the command faults with BAD_OPCODE. -/
  | badOpcode (sq : Fin 32)
  deriving DecidableEq, Repr

end Sys2Proof
end

