-- ==== Sys2Proof/Decode.lean ====
section
/-! DEFINITION. The words of the table of commands: no row of spec/opcode_table.json gives its command any bits (each has an
empty list of fields), so no word spells a command (log entry 2). -/

namespace Sys2Proof

/-- The command that a word spells by the bits of the table: none, for no row gives bits. -/
def decodeTableWord (_nbits _w : Nat) : Option Instr := none

end Sys2Proof
end

