-- ==== Sys2Proof/Machine/State.lean ====
section
/-! DEFINITION. The state of the block: every register, queue, table, counter and mode that the manual gives it, as plain
data.  Each field's comment names the chapter and the rule or table of the manual that gives it.  A table that is keyed by a
number is sparse: a key that is not listed holds the default of its type, which is its value at reset. -/

namespace Sys2Proof.Machine

/-! ## Ports (chapter 02) -/

/-- Operation of a QPP request (02, Table 2.3, R30). -/
inductive ReqOp where
  | read | write | intmsg
  deriving DecidableEq, Repr, Inhabited

/-- QPP port that carries a request (02, Table 2.1). -/
inductive ReqPort where
  | hip | mp
  deriving DecidableEq, Repr, Inhabited

/-- What a QPP request of the block is for: the unit that made it and the data it stands for.  The response
commands name it, so that a response meets its own request (02, R42). -/
inductive ReqTag where
  | ringFetch | headWb | resp (idx : Nat) | prog (sub : Nat) | patchList (sub : Nat)
  | initSeq (q : Nat) | cpl (q : Nat) | evtMsg (page : Nat) | cplMsg (q : Nat) | cookieMsg (cookie : Nat)
  | otRead (b : Nat) | otWrite (b : Nat)
  | hbmRec (s : Nat) | idArea (slot : Nat)
  | shapeRd (sq : Nat) | shapeWr (sq : Nat)
  | pgi (g : Nat) | cost (inst : Nat) (serial : Nat) | blkLoad (inst : Nat) | blkWb (inst : Nat)
  | dump (n : Nat)
  | rxRec (q : Nat) (n : Nat)
  | contrib (cq : Nat) (round : Nat) (n : Nat) | sum (cq : Nat) (round : Nat)
  | saveHdr (q : Nat) | saveSeq (q : Nat) | saveDir (q : Nat) | restHdr (q : Nat) | restSeq (q : Nat)
  | marvUtil
  | routeIn (r : Nat) | routeOut (r : Nat) | planState (r : Nat) | popSnap | proposal (g : Nat)
  | strmEntry (stream : Nat) (gen : Nat)
  | trace
  deriving DecidableEq, Repr, Inhabited

/-- One QPP request of the block without its full response (02, R42, R58).  A logical access is one request here:
the port's cut into aligned pieces of 256 B to 4 KiB is left to the log. -/
structure Req where
  /-- Operation (02, Table 2.3). -/
  op : ReqOp := .read
  /-- Port (02, Table 2.1). -/
  port : ReqPort := .mp
  /-- Byte address of the first byte (02, Table 2.2). -/
  addr : Nat := 0
  /-- Partition of the access, req_part (02, Table 2.2). -/
  part : Nat := 0
  /-- Bytes moved. -/
  len : Nat := 0
  /-- Write data in 64-bit words, little-endian (00, R9). -/
  data : List Word := []
  /-- What the request is for. -/
  tag : ReqTag := .headWb
  deriving DecidableEq, Repr, Inhabited

/-- A beat that the block has driven on one of its outputs and that has no response of QPP's kind
(02, Tables 2.2, 2.8, 2.11). -/
inductive PortEvent where
  | htpRead (addr : Nat) (st : QStatus) (data : Reg)
  | htpWrite (addr : Nat) (st : QStatus)
  | issue (lane : Nat) (msg : BitVec 256)
  | go (lanes : List Nat) (tag : Nat)
  | abort (lane : Nat) (msg : Word)
  | flit (frame : BitVec 512)
  | idReq (lane : Nat) (pos : Nat) (word : Nat)
  | i3cCcc (code : Nat)
  | i3cRead (module : Nat)
  deriving DecidableEq, Repr, Inhabited

/-- The block's side of its ports (chapter 02). -/
structure Io where
  /-- QPP requests issued and not fully answered, oldest first (02, R42, R43; 04, Table 4.7 QPP_OPEN). -/
  reqs : List Req := []
  /-- Requests that a write made while the block is quiesced asks for, held until quiescing ends (03, R129). -/
  heldReqs : List Req := []
  /-- Beats driven on the outputs that take no QPP response, newest first (02, Tables 2.2, 2.8, 2.11). -/
  out : List PortEvent := []
  /-- Issue, abort and flit beats held while the block is quiesced (03, R129). -/
  heldOut : List PortEvent := []
  /-- Pages whose event INTMSG is held during bring-up or while quiesced, by page number (04, R192). -/
  heldEvt : List Nat := []
  deriving DecidableEq, Repr, Inhabited

/-- Levels of input pins that the block watches, in and out of reset (02, Tables 2.11, 2.12, 2.15). -/
structure Pins where
  /-- tm_scan_mode (02, R112). -/
  scan : Bool := false
  /-- tally_lock (02, R102). -/
  lock : Bool := false
  /-- pp_link_up (02, R91). -/
  linkUp : Bool := false
  deriving DecidableEq, Repr, Inhabited

/-! ## Reset, straps and bring-up (chapter 03) -/

/-- The state kept across a reset and the reset in progress (03, Table 3.2, R113-R123). -/
structure Rst where
  /-- The block is in reset; tf_rst_active (03, R117). -/
  active : Bool := true
  /-- Cause of the reset in progress: it becomes RST_CAUSE at the end of reset (03, Table 3.1, R120). -/
  next : BitVec 4 := 1
  /-- RST_CAUSE (03, Table 3.2; 04, Table 4.8). -/
  cause : BitVec 4 := 1
  /-- RST_PREV, PREV3 to PREV0 (03, Table 3.2; 04, R210). -/
  prev : BitVec 16 := 0
  /-- RST_COUNT (03, Table 3.2). -/
  count : Word := 0
  /-- Last fatal record, 32 B as four words (03, Table 3.2). -/
  fatal : List Word := [0, 0, 0, 0]
  /-- Punty partner epoch (03, Table 3.2, R123). -/
  epoch : Reg := 0
  deriving DecidableEq, Repr, Inhabited

/-- Bring-up (03, Table 3.6, R139-R143). -/
structure Bring where
  /-- BRING_STAT.STAGE: stage in progress, 1-6; 7 bring-up complete (04, Table 4.8). -/
  stage : Nat := 1
  /-- Straps as sampled at the end of reset (03, R132). -/
  straps : Straps := {}
  /-- Fuse bank as the block applies it (03, R138; 04, R204). -/
  bank : BitVec 128 := 0
  /-- FUSE_UNPROG: the bank in use is unprogrammed (03, R138). -/
  unprog : Bool := false
  deriving DecidableEq, Repr, Inhabited

/-- Identity status of an engine (03, Table 3.9; 04, Table 4.9 ENG_STATUS). -/
inductive EngStatus where
  | present | absent | badRecord | wiring | disabled
  deriving DecidableEq, Repr, Inhabited

/-- One engine as the lane and the RAS unit keep it (02, R77-R81, R847; 03, R146-R149; 16, R804). -/
structure Eng where
  /-- Identity status (03, Table 3.9). -/
  status : EngStatus := .present
  /-- Masked by R804 (16, R804). -/
  masked : Bool := false
  /-- Faults since reset, saturating at 0xFFFF (16, R804). -/
  faults : Nat := 0
  /-- cg_req is low (02, R847); while no entry says otherwise a released engine's request is high. -/
  cgLow : Bool := false
  /-- cg_ack is high (02, R78). -/
  cgAck : Bool := false
  deriving DecidableEq, Repr, Inhabited

/-- Identity discovery of one lane (03, R82, R146-R148). -/
structure IdLane where
  /-- Position being read, 0-67; 68 when the lane is done (02, R82). -/
  pos : Nat := 0
  /-- Identity words of the position read so far, word 0 first (02, R82). -/
  words : List Reg := []
  deriving DecidableEq, Repr, Inhabited

/-- The Sideband Identity Controller (03, "Identity discovery"; 04, Table 4.9). -/
structure Sic where
  /-- Discovery state per lane (02, R82). -/
  lanes : Tbl IdLane := []
  /-- HBM stacks whose record read has not returned, one bit each (03, R151). -/
  hbmLeft : BitVec 8 := 0
  /-- HBM_STAT, two bits per stack (04, Table 4.9). -/
  hbmStat : BitVec 16 := 0
  /-- Modules of MOD_MASK whose read has not ended (03, R157, R158). -/
  modLeft : BitVec 16 := 0
  /-- MOD_STAT, two bits per module (04, Table 4.9). -/
  modStat : Reg := 0
  /-- SIC_STAT.MOD_DONE (03, R158). -/
  modDone : Bool := false
  /-- SIC_STAT.ENG_DONE (04, Table 4.9). -/
  engDone : Bool := false
  /-- ENG_CNT_A.PRESENT (04, Table 4.9). -/
  nPresent : Nat := 0
  /-- ENG_CNT_A.ABSENT (04, Table 4.9). -/
  nAbsent : Nat := 0
  /-- ENG_CNT_B.BAD_RECORD (04, Table 4.9). -/
  nBad : Nat := 0
  /-- ENG_CNT_B.WIRING (04, Table 4.9). -/
  nWiring : Nat := 0
  /-- ENG_CNT_C.DISABLED (04, Table 4.9). -/
  nDisabled : Nat := 0
  deriving DecidableEq, Repr, Inhabited

/-! ## Register space (chapter 04) -/

/-- The header state of one page (04, Table 4.2, R166-R189). -/
structure Page where
  /-- IRQ_RAW (04, Table 4.2). -/
  irqRaw : Reg := 0
  /-- ERR_CODE.CODE (04, R166). -/
  code : BitVec 8 := 0
  /-- ERR_CODE.MORE (04, R166). -/
  more : BitVec 16 := 0
  /-- ERR_INFO_LO (04, Table 4.2). -/
  infoLo : Reg := 0
  /-- ERR_INFO_HI (04, Table 4.2). -/
  infoHi : Reg := 0
  /-- PAGE_CTRL.VIEW_ACTIVE (04, R183). -/
  viewActive : Bool := false
  /-- PAGE_STAT.SHADOW_DIRTY (04, Table 4.2). -/
  dirty : Bool := false
  /-- STAGE_STAT.SEQ (04, R179). -/
  seq : BitVec 16 := 0
  /-- STAGE_STAT.FAIL_OFF (04, R180). -/
  failOff : BitVec 10 := 0
  /-- STAGE_STAT.LAST (04, R179, R180). -/
  last : BitVec 2 := 0
  /-- CFG_DIGEST as last completed; none while it is the digest of the reset values (04, R196, R198). -/
  digest : Option Word := none
  /-- PAGE_STAT.DIGEST_BUSY (04, R198). -/
  digestBusy : Bool := false
  /-- Read latch: offset of the latched _HI and its value (04, R184). -/
  rdLatch : Option (Nat × Reg) := none
  /-- Write latch: offset of the held _LO and its value (04, R187, R188). -/
  wrLatch : Option (Nat × Reg) := none
  deriving DecidableEq, Repr, Inhabited

/-- The register space (04).  Configuration registers stand by byte offset in the 4 MiB space: a register that is not
listed holds its reset value. -/
structure RegSpace where
  /-- Active copies of configuration registers, view selectors and W1C maps, by offset (04, R16). -/
  regs : Tbl Reg := []
  /-- Shadow copies of class S registers, by offset (04, R175). -/
  shadow : Tbl Reg := []
  /-- 64-bit event counters shown by _LO/_HI pairs, by the offset of _LO (04, R14). -/
  cnts : Tbl Word := []
  /-- Page headers, by page number (04, Table 4.2). -/
  pages : Tbl Page := []
  /-- GLB.DIE_DIGEST as last completed; none before the first (04, R197, R199). -/
  dieDigest : Option Word := none
  /-- GLB.DIGEST_STAT.BUSY (04, R199, R203). -/
  dieBusy : Bool := true
  deriving DecidableEq, Repr, Inhabited

/-- Quiescing (03, Table 3.3, R128-R131; 04, Table 4.7). -/
structure Qsc where
  /-- A quiesce sequence is under way or done (QUIESCE.REQ) (04, R206, R208). -/
  req : Bool := false
  /-- QUIESCE_STAT.MODE_EFF: ABORT (04, Table 4.7). -/
  abort : Bool := false
  /-- QUIESCE_STAT.DONE, tf_quiesced (03, R128). -/
  done : Bool := false
  /-- Tally at the start of quiescing, from which stopped timers count on (12, R663). -/
  at_ : Word := 0
  deriving DecidableEq, Repr, Inhabited

/-! ## Submission, queues and completion (chapter 05) -/

/-- Header fields of a ring entry that its response record echoes (05, Tables 5.1, 5.6). -/
structure Hdr where
  /-- OPCODE (05, Table 5.1). -/
  op : Nat := 0
  /-- TAG (05, Table 5.1). -/
  tag : Nat := 0
  /-- CONTEXT (05, Table 5.1). -/
  ctx : Nat := 0
  /-- QUEUE (05, Table 5.1). -/
  queue : Nat := 0
  /-- Ring index of the entry (05, Table 5.6). -/
  index : Nat := 0
  deriving DecidableEq, Repr, Inhabited

/-- One response record before its phase is known (05, Table 5.6). -/
structure Rec where
  /-- KIND (05, Table 5.6). -/
  kind : Nat := 0
  /-- STATUS (05, Table 5.7). -/
  status : Nat := 0
  /-- TAG (05, Table 5.6). -/
  tag : Nat := 0
  /-- INDEX (05, Table 5.6). -/
  index : Nat := 0
  /-- SEQ (05, Table 5.6). -/
  seq : Word := 0
  /-- COOKIE (05, Table 5.6). -/
  cookie : Nat := 0
  /-- QUEUE (05, Table 5.6). -/
  queue : Nat := 0
  /-- CONTEXT (05, Table 5.6). -/
  ctx : Nat := 0
  /-- DETAIL (05, Table 5.8). -/
  detail : Word := 0
  deriving DecidableEq, Repr, Inhabited

/-- Where the prefetch of a submission stands (05, R244-R247, R232). -/
inductive FetchState where
  | none | fetching | ready | progFail | patchFail | patchBad
  deriving DecidableEq, Repr, Inhabited

/-- One accepted submission (05, Table 5.3, R227, R228). -/
structure Sub where
  /-- The model's own number of the submission. -/
  sid : Nat := 0
  /-- FLAGS.INT (05, Table 5.3). -/
  int : Bool := false
  /-- PROG_ADDR (05, Table 5.3). -/
  progAddr : Nat := 0
  /-- PROG_WORDS (05, Table 5.3). -/
  progWords : Nat := 0
  /-- PATCH_COUNT (05, Table 5.3). -/
  patchCount : Nat := 0
  /-- PATCH_ADDR (05, Table 5.3). -/
  patchAddr : Nat := 0
  /-- Handles listed, each one reference (05, R227; 06, "Memory objects"). -/
  objs : List Nat := []
  /-- COOKIE (05, Table 5.3). -/
  cookie : Nat := 0
  /-- SEQ (05, Table 5.3). -/
  seq : Word := 0
  /-- Where the prefetch stands (05, R244-R247). -/
  fetch : FetchState := .none
  /-- Words of the program in the sequencer's cache, patched once the patch list is in (05, R230, R245). -/
  words : List Word := []
  /-- Patch list of the submission, two words an entry, once fetched (05, R230). -/
  patch : Option (List Word) := none
  /-- Order of the fetch among the sequencer's cache, for eviction (05, R246). -/
  fetchNo : Nat := 0
  /-- The program has ended (05, R228). -/
  ended : Bool := false
  /-- The submission is to be discarded once its aborted issues are complete (05, R260, R852). -/
  faulted : Bool := false
  deriving DecidableEq, Repr, Inhabited

/-- Queue states (05, Table 5.12, Table 5.14 Q_STATE.STATE). -/
inductive QState where
  | free | idle | ready | running | blocked | preempted | guilty | destroying
  deriving DecidableEq, Repr, Inhabited

/-- One completion write due or under way on a queue (05, R248-R252). -/
structure Cpl where
  /-- SEQ to write (05, R248). -/
  seq : Word := 0
  /-- COOKIE of the interrupt (05, R249). -/
  cookie : Nat := 0
  /-- The SUBMIT's INT flag (05, R249). -/
  int : Bool := false
  deriving DecidableEq, Repr, Inhabited

/-- A hardware queue (05, Tables 5.9, 5.12, 5.14). -/
structure Queue where
  /-- Q_STATE.STATE (05, Table 5.12). -/
  st : QState := .free
  /-- Owning context (05, Table 5.14). -/
  ctx : Nat := 0
  /-- Bound sequencer (05, Table 5.14). -/
  sq : Nat := 0
  /-- Fixed priority (05, Table 5.14). -/
  prio : Nat := 0
  /-- Completion address (05, Table 5.14). -/
  cplAddr : Nat := 0
  /-- Q_LAST_SEQ (05, Table 5.14). -/
  lastSeq : Word := 0
  /-- Accepted submissions not yet started, oldest first (05, R227). -/
  wait : List Sub := []
  /-- Submissions started and not yet released: the running one and ended ones with live instances (05, R228). -/
  subs : List Sub := []
  /-- The submission whose program the queue runs (or has parked or saved) (05, R242). -/
  cur : Option Nat := none
  /-- Completion writes not yet acknowledged, oldest first; the first one is under way (05, R251). -/
  cpls : List Cpl := []
  /-- Tally of the last progress event (05, R254). -/
  progAt : Word := 0
  /-- Timeout in effect since the last progress event, in microseconds (05, R256). -/
  timeout : Nat := 50000
  /-- Q_FAULT.SOURCE (05, Table 5.14). -/
  fSource : Nat := 0
  /-- Q_FAULT.CODE (05, Table 5.14). -/
  fCode : Nat := 0
  /-- Q_FAULT.WORD (05, Table 5.14). -/
  fWord : Nat := 0
  /-- Q_STATE.HELD: GUILTY and held for QUEUE_RESET (05, R260). -/
  held : Bool := false
  /-- The creation record is owed once the INIT_SEQ write is acknowledged (05, R241). -/
  creating : Option Hdr := none
  /-- The QUEUE_DESTROY entry to answer; none for a destroy by teardown (05, R264, R266). -/
  destroyHdr : Option Hdr := none
  /-- Submissions discarded by the destroy (05, Table 5.8). -/
  nDiscard : Nat := 0
  /-- Issues aborted by the fault or destroy (05, Table 5.8). -/
  nAbort : Nat := 0
  /-- The program runs on a queue that faulted for another submission and is parked (05, R851). -/
  parked : Bool := false
  /-- Semaphore units taken and not given back, saturating (09, R483). -/
  bal : Int := 0
  /-- Lanes on which the queue's instances issued since its last PREEMPT_POINT (11, R616). -/
  ptLanes : Word := 0
  /-- POINT_LATE flag (11, R616). -/
  pointLate : Bool := false
  /-- Tally at which the point timer started; none while it is stopped (11, R615). -/
  pointFrom : Option Word := none
  /-- An entry of a queue of higher priority has waited PREEMPT_WAIT_US behind an issue of this queue (11, R605). -/
  demand : Bool := false
  /-- Launches accepted since QUEUE_CREATE, modulo 2^16 (15, R777). -/
  lnum : Nat := 0
  deriving DecidableEq, Repr, Inhabited

/-- One ring entry on block: its index and its eight words (05, Table 5.1). -/
structure Entry where
  /-- Ring index (05, R216). -/
  index : Nat := 0
  /-- The 64 B as eight words. -/
  w : List Word := []
  deriving DecidableEq, Repr, Inhabited

/-- An effect that is owed when an Object Table write is acknowledged (06, R292, Table 6.12). -/
inductive OtEff where
  | created (ctx : Nat) (size : Nat)
  | dying (ctx : Nat) (size : Nat)
  | freed (ctx : Nat) (size : Nat)
  | gone (ctx : Nat) (size : Nat) (handle : Nat) (index : Nat)
  deriving DecidableEq, Repr, Inhabited

/-- A held image of one 256 B Object Table block (06, R289, R853). -/
structure OtImg where
  /-- The 32 words of the block; none while its read is awaited. -/
  w : Option (List Word) := none
  /-- The image belongs to the batch in hand (06, R853). -/
  batch : Bool := false
  /-- The image was changed since its last write began (06, R289). -/
  dirty : Bool := false
  /-- A write of the block awaits its acknowledgement (06, R289). -/
  writing : Bool := false
  /-- Effects of changes not yet in a write. -/
  effs : List OtEff := []
  /-- Effects of the write under way, owed at its acknowledgement (06, R292). -/
  owed : List OtEff := []
  deriving DecidableEq, Repr, Inhabited

/-- The Front End (05, 06). -/
structure Fe where
  /-- FE_STAT.DECODING (05, Table 5.13). -/
  decoding : Bool := false
  /-- FE_STAT.RING_STOP (05, R222). -/
  ringStop : Bool := false
  /-- FE_STAT.RESP_STALL (05, R235). -/
  respStall : Bool := false
  /-- Entries of the fetch under way: first index and count (05, R218). -/
  fetch : Option (Nat × Nat) := none
  /-- Fetched entries not yet consumed, oldest first (05, R218). -/
  batch : List Entry := []
  /-- The batch's Object Table blocks are in hand (06, R288). -/
  batchReady : Bool := false
  /-- Decoding waits for an entry in hand: a QUEUE_CREATE's INIT_SEQ write or a teardown's first step (05, R238; 06, R282). -/
  busy : Bool := false
  /-- Held images of Object Table blocks, by block number (06, R289). -/
  ot : Tbl OtImg := []
  /-- References released and not yet applied, one handle each, oldest first (06, R290). -/
  rels : List Nat := []
  /-- OBJ_STAT.OT_SUSPECT (06, R295). -/
  suspect : Bool := false
  /-- Response record slots reserved by decoded entries not yet answered (05, R235). -/
  reserved : Nat := 0
  /-- Records that wait for a free slot, oldest first (05, R236; 06, R306; 09, R480). -/
  waiting : List Rec := []
  /-- Records written and not acknowledged: record index and, for a COOKIE record, its vector and cookie (05, R234; 09, R481). -/
  last : Tbl Nat := []
  /-- Next submission number of the model. -/
  nextSid : Nat := 0
  /-- Next fetch number of the model (05, R246). -/
  nextFetch : Nat := 0
  /-- Rotation pointers last[s][p], by 8 s + p; reset value 511 (05, R242). -/
  rot : Tbl Nat := []
  /-- OBJ_Q0.VALID and the query result: state, owner, partition, refs, base, size, generation (06, R313). -/
  query : Option (List Word) := none
  /-- A query is under way for this handle (06, R313). -/
  querying : Option Nat := none
  /-- CTX_CREATE entries that wait for Object Table rewrites (06, R280): blocks still to visit. -/
  wrap : Option (Hdr × List Word × Nat) := none
  /-- PART_TEARDOWN records owed: entry, partition contexts still not FREE, counts (06, R305). -/
  partTd : List (Hdr × List Nat × Nat × List Nat × Nat × Nat) := []
  deriving DecidableEq, Repr, Inhabited

/-! ## Contexts (chapter 06) -/

/-- Context states (06, Table 6.2). -/
inductive CtxState where
  | free | live | teardown | dead
  deriving DecidableEq, Repr, Inhabited

/-- A context slot (06, Tables 6.2, 6.12). -/
structure Ctx where
  /-- CTX_STAT.STATE (06, Table 6.2). -/
  st : CtxState := .free
  /-- CTX_STAT.CAUSE (06, Table 6.12). -/
  cause : Nat := 0
  /-- Bound partition (06, Table 6.12). -/
  part : Nat := 0
  /-- CTX_GEN (06, R279). -/
  gen : Reg := 0
  /-- SAVE_ADDR (06, Table 6.12). -/
  saveAddr : Word := 0
  /-- SAVE_SIZE (06, Table 6.12). -/
  saveSize : Word := 0
  /-- LIVE memory objects of the context (06, Table 6.12 CTX_OBJS). -/
  objLive : Nat := 0
  /-- DYING memory objects of the context (06, Table 6.12 CTX_OBJS). -/
  objDying : Nat := 0
  /-- MEM_BYTES (06, Table 6.12). -/
  memBytes : Word := 0
  /-- DYING_BYTES (06, Table 6.12). -/
  dyingBytes : Word := 0
  /-- ENG_TIME (06, R310). -/
  engTime : Word := 0
  /-- CTX_FAULT.ENGINE (06, Table 6.12). -/
  faultEng : Nat := 0
  /-- Step 1 of Table 6.4 is owed: a teardown has been called for and waits for its hold (06, R281; 16, R800). -/
  called : Bool := false
  /-- The CTX_DESTROY entries to answer at the end of the teardown (06, R305). -/
  hdrs : List Hdr := []
  /-- Queues destroyed by the teardown (06, Table 6.10). -/
  nQueues : Nat := 0
  /-- Slots abandoned by the teardown (06, Table 6.10). -/
  nSlots : Nat := 0
  /-- Issues aborted by the teardown (06, Table 6.10). -/
  nAborts : Nat := 0
  deriving DecidableEq, Repr, Inhabited

/-! ## Sequencers (chapter 07) -/

/-- What a stalled command at the head of a program waits for (07, Table 7.2; Table 7.13 SQ_STALL.CAUSE). -/
inductive Stall where
  /-- Nothing: the sequencer may begin its next command. -/
  | none
  /-- WAIT of KIND 0 on an object of this die, by handle and operand (07, R354). -/
  | waitObj (h : Nat) (opd : Word)
  /-- WAIT of KIND 0 on a remote object: die, handle, operand, and whether a RETRY wait runs (07, R358; 14, R737). -/
  | waitRemote (die : Nat) (h : Nat) (opd : Word) (retry : Bool)
  /-- WAIT of KIND 1 or 2: the count (07, R355). -/
  | waitTally (at_ : Word)
  /-- WAIT of KIND 3: the instance (07, R356). -/
  | waitInst (i : Nat)
  /-- SELECT: base, mask, mode and destination register (07, R366-R369). -/
  | select (base : Nat) (mask : Nat) (rot : Bool) (dst : Nat)
  /-- SEND whose answer is awaited: the message, its die if remote, STAT, AUTORETRY and retries so far (07, R363, R364). -/
  | send (msg : Msg) (die : Option Nat) (stat : Nat) (auto : Bool) (tries : Nat)
  /-- SEND in the backoff before its next retry (07, R364). -/
  | sendBackoff (msg : Msg) (die : Option Nat) (stat : Nat) (auto : Bool) (tries : Nat)
  /-- LAUNCH or LAUNCH_AT offered to the DE and not yet accepted (07, R353). -/
  | launch
  /-- FENCE_OUT with DRAIN (07, R332). -/
  | drain
  /-- LDSHAPE or STSHAPE read or write of device memory: first register and count (07, R337, R338). -/
  | ldshape (first : Nat) (n : Nat)
  | stshape
  /-- ROUTE or MIX while the unit is full (07, Table 7.2). -/
  | enter
  /-- SIGNAL or ADD not yet applied by the ST, or whose frame is not yet accepted (07, Table 7.2). -/
  | sig
  /-- PREEMPT_POINT taken: the program waits for its save and restore (11, R606). -/
  | point
  deriving DecidableEq, Repr, Inhabited

/-- One sequencer (07, Table 7.1). -/
structure Sq where
  /-- The queue whose program is on the sequencer (07, Table 7.13 SQ_STAT.QUEUE). -/
  q : Option Nat := none
  /-- PC of the command at the head (07, Table 7.1). -/
  pc : Nat := 0
  /-- S0-S15 (07, Table 7.1). -/
  s : Tbl Word := []
  /-- Scratch, 512 words (07, Table 7.1, R316). -/
  scratch : Tbl Word := []
  /-- Context whose program last ran, for R316 (07, R316). -/
  lastCtx : Option Nat := none
  /-- Staging patch block, 64 slots (07, Table 7.1). -/
  staging : Tbl Word := []
  /-- Current instance: its number and open serial (07, Table 7.1). -/
  inst : Option (Nat × Nat) := none
  /-- Graph of the current instance (11, R607). -/
  instGraph : Nat := 0
  /-- Chain predecessor (07, Table 7.1, R347). -/
  pred : Option (Nat × Nat) := none
  /-- Rotation pointer (07, R366). -/
  rot : Nat := 0
  /-- Step count (07, R319). -/
  steps : Nat := 0
  /-- Words of the running program, patched (07, Table 7.1; 05, R245). -/
  words : List Word := []
  /-- The command at the head is begun and waits (07, Table 7.2). -/
  stall : Stall := .none
  /-- The command stalled at the head has had its count taken (07, R855). -/
  counted : Bool := false
  /-- The record consumed by a SELECT and not yet released: receive queue and record number (10, R519, R520). -/
  taken : Option (Nat × Nat) := none
  /-- Halted by the debug unit (17, R831). -/
  halted : Bool := false
  /-- STEP was written and its one command is not yet complete (17, R833). -/
  stepping : Bool := false
  /-- A breakpoint that has already halted at this PC is passed by the next command (17, R834). -/
  bpPass : Bool := false
  deriving DecidableEq, Repr, Inhabited

/-! ## Graph Store (chapter 08) -/

/-- Image directory state (08, Table 8.2). -/
inductive ImgState where
  | free | loading | loaded | unloading
  deriving DecidableEq, Repr, Inhabited

/-- A version header and its block map (08, Tables 8.1, 8.3). -/
structure Version where
  /-- VERSION (08, Table 8.3). -/
  num : Nat := 0
  /-- Map block of the version (08, Table 8.1). -/
  map : Nat := 0
  /-- TASKS (08, Table 8.3). -/
  tasks : Nat := 0
  /-- ROOTS (08, Table 8.3). -/
  roots : Nat := 0
  /-- INSTANCES (08, Table 8.3). -/
  insts : Nat := 0
  /-- Block map: task block of tasks 60b to 60b + 59 (08, Table 8.1). -/
  blocks : List Nat := []
  deriving DecidableEq, Repr, Inhabited

/-- One graph: its directory entry, image header and versions (08, Tables 8.2, 8.3). -/
structure Img where
  /-- STATE (08, Table 8.2). -/
  st : ImgState := .free
  /-- OWNER (08, Table 8.2). -/
  owner : Nat := 0
  /-- ACCESS (08, Table 8.2). -/
  access : Nat := 0
  /-- IMAGE_BLOCK (08, Table 8.2). -/
  block : Nat := 0
  /-- EDGE_BASE, first edge block (08, Table 8.3). -/
  edgeBase : Nat := 0
  /-- EDGE_BLOCKS (08, Table 8.3). -/
  edgeBlocks : Nat := 0
  /-- PGI_ADDR (08, Table 8.3). -/
  pgiAddr : Nat := 0
  /-- OBJ: handle holding the PGI (08, Table 8.3). -/
  obj : Nat := 0
  /-- CUR_VERSION (08, Table 8.3). -/
  cur : Nat := 0
  /-- Affinity table (08, Table 8.1). -/
  affs : List Word := []
  /-- Live versions, newest first (08, Table 8.3 OLDER). -/
  versions : List Version := []
  /-- COSTS of the PGI header (08, Table 8.6). -/
  costs : Nat := 0
  /-- LIVESETS of the PGI header (08, Table 8.6). -/
  liveSets : Nat := 0
  /-- COST_OFF of the PGI header (08, Table 8.6). -/
  costOff : Nat := 0
  /-- LIVESET_OFF of the PGI header (08, Table 8.6). -/
  liveOff : Nat := 0
  /-- Live-set entries of the PGI, eight words each (11, Table 11.5). -/
  live : List Word := []
  /-- GRAPH_UNLOAD entry to answer; none for an unload at the end of a teardown (08, R400, R410). -/
  unload : Option Hdr := none
  /-- Task and edge blocks freed since the unload began (08, R401). -/
  nFreed : Nat := 0
  deriving DecidableEq, Repr, Inhabited

/-- A task block: 60 initial counts, 60 records and SHARE (08, Table 8.1). -/
structure TaskBlock where
  /-- Initial counts of its tasks (08, Table 8.1). -/
  counts : List Nat := []
  /-- Task records, four words each (08, Table 8.4). -/
  recs : List Word := []
  /-- SHARE: versions mapping the block (08, Table 8.1). -/
  share : Nat := 0
  deriving DecidableEq, Repr, Inhabited

/-- A load or patch queued in the GS (08, R399). -/
structure GsOp where
  /-- The ring entry to answer. -/
  hdr : Hdr := {}
  /-- True for a load, false for a patch. -/
  load : Bool := true
  /-- GRAPH (08, Table 8.8). -/
  graph : Nat := 0
  /-- ACCESS of a load (08, Table 8.8). -/
  access : Nat := 0
  /-- OBJ of a load, with its base and size at decode (08, Table 8.8). -/
  obj : Nat := 0
  /-- Base of the object. -/
  objBase : Nat := 0
  /-- Size of the object. -/
  objSize : Nat := 0
  /-- PGI_ADDR or PATCH_ADDR (08, Table 8.8). -/
  addr : Nat := 0
  /-- PATCH_COUNT (08, Table 8.8). -/
  count : Nat := 0
  /-- The context of the entry has left TEARDOWN since the entry was decoded (08, R410). -/
  gone : Bool := false
  /-- Words read so far for the operation in progress: the PGI header of a load, or the list of a patch (08, R394, R395, R403). -/
  head : List Word := []
  deriving DecidableEq, Repr, Inhabited

/-- The Graph Store (08). -/
structure Gs where
  /-- Graphs by number (08, Table 8.2). -/
  imgs : Tbl Img := []
  /-- Kind of each block 16-4,095: 0 free, 1 image, 2 map, 3 task (08, R389, Table 8.1). -/
  kinds : Tbl Nat := []
  /-- Task blocks by block number (08, Table 8.1). -/
  tasks : Tbl TaskBlock := []
  /-- Edge slots (08, Table 8.5). -/
  edges : Tbl Word := []
  /-- Edge blocks in use (08, R390). -/
  edgeUse : Tbl Bool := []
  /-- Poisoned 2 KiB blocks: task-array blocks by number, and edge-array ones from 4,096 on (16, R797). -/
  poison : List Nat := []
  /-- Loads and patches in decode order; the head is in progress (08, R399). -/
  ops : List GsOp := []
  deriving DecidableEq, Repr, Inhabited

/-! ## Instances (chapter 08) -/

/-- Instance states (08, Table 8.14). -/
inductive InstState where
  | free | held | running | aborting
  deriving DecidableEq, Repr, Inhabited

/-- A route slot of an instance (07, R372, R373; 12, R644). -/
inductive RSlot where
  | empty | requested
  | landed (experts : Nat) (rows : List Nat)
  deriving DecidableEq, Repr, Inhabited

/-- A mix slot of an instance (07, R374; 11, R596-R600). -/
structure MSlot where
  /-- The slot holds a history (11, R596). -/
  used : Bool := false
  /-- Chunks (11, R595). -/
  n : Nat := 0
  /-- Events per chunk (11, R595). -/
  size : Nat := 0
  /-- History length in events (11, R595). -/
  events : Nat := 0
  /-- History base address (11, R596). -/
  base : Nat := 0
  /-- Chunk copies released (11, R599). -/
  released : Nat := 0
  /-- Chunk copies released and not complete (11, R599). -/
  inflight : Nat := 0
  /-- Task number of the Cane that took its count from the slot (11, R599). -/
  task : Option Nat := none
  deriving DecidableEq, Repr, Inhabited

/-- A completion of a task or copy as the DE takes it (08, R419, R430). -/
structure CplBeat where
  /-- Lane that accepted it; none for one that the DE makes. -/
  lane : Option Nat := none
  /-- Instance. -/
  inst : Nat := 0
  /-- Task. -/
  task : Nat := 0
  /-- Copy. -/
  copy : Nat := 0
  /-- Status of the issue: OK 0, NULL 1 (08, R443). -/
  null : Bool := false
  /-- RESULT_SUM, summed over the issue's span (15, R778). -/
  sum : Word := 0
  deriving DecidableEq, Repr, Inhabited

/-- A live launch instance (08, "Instances"). -/
structure Inst where
  /-- State (08, Table 8.14). -/
  st : InstState := .free
  /-- Open serial of the model: tells a number's successive instances apart. -/
  serial : Nat := 0
  /-- Accepted and not yet open (08, R413, R414). -/
  opening : Bool := false
  /-- Counter initialisation in progress (08, Table 8.17). -/
  init : Bool := false
  /-- Graph (08, Table 8.17). -/
  graph : Nat := 0
  /-- Bound version (08, R345). -/
  ver : Nat := 0
  /-- Context (08, Table 8.17). -/
  ctx : Nat := 0
  /-- Launching queue (08, Table 8.17). -/
  q : Nat := 0
  /-- Submission that launched it (05, R851). -/
  sid : Nat := 0
  /-- PC of the launch (15, R777). -/
  pc : Nat := 0
  /-- Open issues (08, Table 8.17). -/
  openN : Nat := 0
  /-- Tasks not yet complete (08, Table 8.17). -/
  left : Nat := 0
  /-- Tasks of the version (08, Table 8.3). -/
  tasks : Nat := 0
  /-- Roots of the version (08, Table 8.3). -/
  roots : Nat := 0
  /-- Counter run base (08, R412). -/
  cbase : Nat := 0
  /-- Counters in the run (08, R412). -/
  crun : Nat := 0
  /-- Chain predecessor not yet retired: number and serial (08, R348). -/
  chain : Option (Nat × Nat) := none
  /-- AT of a LAUNCH_AT not yet released (07, R349). -/
  at_ : Option Word := none
  /-- Deadline (07, R346, R351). -/
  deadline : Option Word := none
  /-- The deadline alarm has fired: the instance is MISSED (11, R588). -/
  missed : Bool := false
  /-- LATE_PREDICTED (11, R586). -/
  latePred : Bool := false
  /-- Tally at acceptance or release, from which the prediction and slowdown count (11, R584, R590). -/
  start : Word := 0
  /-- Predicted completion; none without a prediction (11, R584). -/
  predict : Option Word := none
  /-- CRIT_NS as read; zero without a prediction (11, R584). -/
  crit : Nat := 0
  /-- SLOWF: the larger of 256 and SLOW at acceptance (11, R584). -/
  slowF : Nat := 256
  /-- The staging block at acceptance, until the instance opens (07, R341, R342). -/
  stage : List Word := []
  /-- Table epoch bound (13, R702). -/
  epoch : Reg := 0
  /-- An epoch is bound and counts in LIVE (13, R703). -/
  bound : Bool := false
  /-- Route slots (07, R372). -/
  rslots : Tbl RSlot := []
  /-- Mix slots (11, R596). -/
  mslots : Tbl MSlot := []
  /-- Canes whose count source holds no result yet (08, R424). -/
  waitCanes : List Nat := []
  /-- Completions held until counter initialisation ends, oldest first (01, R23). -/
  heldCpl : List CplBeat := []
  /-- Signal edges handed to the ST and not yet applied (08, R418). -/
  sigOut : Nat := 0
  /-- LNUM (15, R777). -/
  lnum : Nat := 0
  deriving DecidableEq, Repr, Inhabited

/-- A launch offered to the DE and not yet accepted, in the order of offer (07, R353). -/
structure Offer where
  /-- Sequencer. -/
  sq : Nat := 0
  /-- GRAPH (07, Table 7.6). -/
  graph : Nat := 0
  /-- VERSION (07, Table 7.6). -/
  ver : Nat := 0
  /-- DEADLINE_US (07, Table 7.6). -/
  dl : Nat := 0
  /-- CHAIN (07, Table 7.6). -/
  chain : Bool := false
  /-- SYNC (07, Table 7.6). -/
  sync : Bool := false
  /-- AT of a LAUNCH_AT (07, Table 7.6). -/
  at_ : Option Word := none
  /-- The launch waits for an instance slot or counters, or behind one that does (07, R353). -/
  room : Bool := false
  deriving DecidableEq, Repr, Inhabited

/-- The Instance State RAM (08). -/
structure Isr where
  /-- Instances by number (08, R411). -/
  insts : Tbl Inst := []
  /-- Next instance number in rotation (08, R411). -/
  next : Nat := 0
  /-- Next open serial of the model. -/
  serial : Nat := 0
  /-- Counters, by counter number (08, R412). -/
  ctrs : Tbl Nat := []
  /-- Patch blocks in the patch cache, by instance (01, R27). -/
  patch : Tbl (List Word) := []
  /-- Cached instances in order of use, least recent first (01, R27). -/
  lru : List Nat := []
  /-- Instances whose patch block is being read from its home (01, R28). -/
  loading : List Nat := []
  /-- Launches offered and not accepted, oldest first (07, R353). -/
  offers : List Offer := []
  /-- ISR_STAT.COMPACTING (08, R413). -/
  compacting : Bool := false
  deriving DecidableEq, Repr, Inhabited

/-! ## Dependency Engine and lanes (chapter 08) -/

/-- A ready entry (08, Table 8.11). -/
structure Ready where
  /-- INSTANCE (08, Table 8.11). -/
  inst : Nat := 0
  /-- TASK (08, Table 8.11). -/
  task : Nat := 0
  /-- COPY (08, Table 8.11). -/
  copy : Nat := 0
  /-- RUNM1 (08, Table 8.11). -/
  runm1 : Nat := 0
  /-- Hand-off order, the last part of the lane key (11, R571). -/
  order : Nat := 0
  deriving DecidableEq, Repr, Inhabited

/-- What an issue carries (08, Table 8.12; 11, R607-R613; 13, R691). -/
inductive IssueKind where
  | task | stream (slot : Nat) | save (q : Nat) | restore (q : Nat)
  deriving DecidableEq, Repr, Inhabited

/-- An entry of a lane's issue table (08, "Engine messages"). -/
structure Issue where
  /-- What the issue carries. -/
  kind : IssueKind := .task
  /-- Lane whose pick it was: an odd lane's link issue stands in the table of the even lane (02, Table 2.7). -/
  lane : Nat := 0
  /-- Instance (08, "Engine messages"). -/
  inst : Nat := 0
  /-- Task (08, "Engine messages"). -/
  task : Nat := 0
  /-- Copy (08, "Engine messages"); for a stream transfer 0 on the multicast path, else 1 + its detached receiver (13, R697). -/
  copy : Nat := 0
  /-- REPL_INDEX (08, Table 8.10). -/
  repl : Nat := 0
  /-- First engine of the span (08, Table 8.12). -/
  eng : Nat := 0
  /-- Engines of the span (08, R441). -/
  span : Nat := 1
  /-- CLASS (08, Table 8.12). -/
  cls : Nat := 1
  /-- POINT of the task record (11, R608). -/
  point : Bool := false
  /-- LIVESET of the task record (11, R607). -/
  liveset : Nat := 0
  /-- VARIES of the task record (08, Table 8.12). -/
  varies : Bool := false
  /-- Gang tag of a gang issue (08, R441). -/
  gang : Option Nat := none
  /-- An abort was sent, with this reason (08, Table 8.13). -/
  abort : Option Nat := none
  /-- Engines of the span that have completed, with their status codes (08, R443). -/
  got : List (Nat × Nat) := []
  /-- Sum of RESULT_SUM so far (15, R778). -/
  sum : Word := 0
  /-- ENG_INFO of a faulting completion (08, Table 8.13). -/
  info : Reg := 0
  /-- Context charged with the issue (06, R310). -/
  ctx : Nat := 0
  /-- Launching queue. -/
  q : Nat := 0
  /-- Ready entry order, kept so that an aborted copy returns to its place (11, R608); a stream transfer's offset (13,
  Table 13.2). -/
  order : Nat := 0
  /-- Tally at the abort beat, from which ABORT_WIN counts (09, R495). -/
  abortAt : Word := 0
  deriving DecidableEq, Repr, Inhabited

/-- A pick that waits for its gated engine to wake (02, R847). -/
structure Wake where
  /-- Position on the lane. -/
  eng : Nat := 0
  /-- The picked entry. -/
  entry : Ready := {}
  deriving DecidableEq, Repr, Inhabited

/-- A dispatch lane (08, "Dispatch"). -/
structure Lane where
  /-- Ready queue, in hand-off order (08, R434). -/
  ready : List Ready := []
  /-- Issue table by ISSUE_ID (08, Table 8.12). -/
  issues : Tbl Issue := []
  /-- Picks waiting for an engine to wake (02, R847). -/
  wakes : List Wake := []
  /-- Gang of at most 64 arrays that reserves a run: its entry, first position, size and gang tag (08, R439, Table 8.19). -/
  resv : Option (Ready × Nat × Nat × Nat) := none
  deriving DecidableEq, Repr, Inhabited

/-- A gang whose start or completion is pending (02, R68-R70; 08, R439-R441). -/
structure Gang where
  /-- Gang tag (02, R70). -/
  tag : Nat := 0
  /-- Instance. -/
  inst : Nat := 0
  /-- Task. -/
  task : Nat := 0
  /-- Copy. -/
  copy : Nat := 0
  /-- Lanes of the gang (08, R440). -/
  lanes : List Nat := []
  /-- Lanes whose issue beat has not yet transferred (02, R68). -/
  left : List Nat := []
  /-- go_valid has been pulsed (02, R68). -/
  gone : Bool := false
  /-- Statuses of the lanes' closed issues (08, R443). -/
  closed : List Nat := []
  /-- Sum of RESULT_SUM over closed issues (15, R778). -/
  sum : Word := 0
  /-- Ready entry order, kept for a copy that returns to its place (11, R608). -/
  order : Nat := 0
  deriving DecidableEq, Repr, Inhabited

/-- The Dependency Engine and the gang coordinator (08). -/
structure De where
  /-- Tasks and copies due to be handed on, oldest first (08, R421, R426). -/
  due : List Ready := []
  /-- Hold buffer (08, R434, R435). -/
  hold : List Ready := []
  /-- Rotation pointer rr (08, R434). -/
  rr : Nat := 0
  /-- Next hand-off order number (11, R571). -/
  order : Nat := 0
  /-- Walks that wait for a patch block: instance, task, next edge slot and counted edges left (01, R28; 08, R419). -/
  walks : List (Nat × Nat × Nat × Nat) := []
  /-- Gangs above 64 arrays in the order they reached the coordinator (08, R440). -/
  coord : List Ready := []
  /-- Lanes the coordinator has reserved for the first of them (08, R440). -/
  coordLanes : List Nat := []
  /-- Gang tag of that reservation (08, Table 8.19). -/
  coordTag : Nat := 0
  /-- Next gang tag in rotation (02, R70). -/
  tag : Nat := 0
  /-- Gangs issued and not complete (02, R68, R70). -/
  gangs : List Gang := []
  deriving DecidableEq, Repr, Inhabited

/-! ## Sync Table and Lehr (chapter 09) -/

/-- Sync object types (09, Table 9.1). -/
inductive SyncTy where
  | counter | semaphore | barrier | cookie
  deriving DecidableEq, Repr, Inhabited

/-- Life of a sync object (09, Table 9.2 STATE). -/
inductive SlotState where
  | free | live | abandoned | closing
  deriving DecidableEq, Repr, Inhabited

/-- Who waits on an object: a sequencer of this die or a remote waiter entry (09, R469; 14, R735). -/
inductive Waiter where
  | sq (s : Nat)
  | remote (die : Nat) (sqId : Nat) (wid : Nat)
  deriving DecidableEq, Repr, Inhabited

/-- A registered waiter (09, R469, R476). -/
structure Wait where
  /-- Who waits. -/
  who : Waiter := .sq 0
  /-- X of the WAIT, or the phase end of a barrier arrival, which may lie past 2^64 - 1 (09, Table 9.3, R461, R462). -/
  x : Nat := 0
  /-- X as the WAIT carried it (14, Table 14.4). -/
  opd : Word := 0
  /-- Queue of a waiter of this die, for HOLDER_Q and BAL (09, R457, R483). -/
  q : Nat := 0
  deriving DecidableEq, Repr, Inhabited

/-- A sync object (09, Table 9.2). -/
structure SyncObj where
  /-- VALUE (09, Table 9.2). -/
  value : Word := 0
  /-- STATE (09, Table 9.2). -/
  st : SlotState := .free
  /-- TYPE (09, Table 9.2). -/
  ty : SyncTy := .counter
  /-- ACCESS (09, Table 9.2). -/
  access : Nat := 0
  /-- OWNER (09, Table 9.2). -/
  owner : Nat := 0
  /-- HANDSET (09, R505). -/
  handset : Bool := false
  /-- NPEND (09, R477). -/
  npend : Bool := false
  /-- OOO_COUNT (09, R464). -/
  ooo : Nat := 0
  /-- HOLDER_Q of a semaphore with HVALID set (09, R457, R460). -/
  holder : Option Nat := none
  /-- PARTIES of a barrier (09, Table 9.2). -/
  parties : Nat := 0
  /-- COOKIE of a cookie fence (09, Table 9.2). -/
  cookie : Nat := 0
  /-- Registered waiters in arrival order (09, R469, R476). -/
  waits : List Wait := []
  deriving DecidableEq, Repr, Inhabited

/-- Source of an operation on an object (09, R467; Table 9.10 OOO_LAST_OBJ.SRC_KIND). -/
inductive StSrc where
  | cmd (sq : Nat) (q : Nat)
  | edge (inst : Nat) (serial : Nat) (task : Nat)
  | crucible (cq : Nat)
  | punty (die : Nat)
  | debug
  | fe
  deriving DecidableEq, Repr, Inhabited

/-- An operation in the ST's input FIFO (09, R466, R467). -/
inductive StOp where
  | signal (src : StSrc) (h : Nat) (x : Word)
  | add (src : StSrc) (h : Nat) (x : Word)
  | wait (sq : Nat) (q : Nat) (h : Nat) (x : Word)
  | remoteWait (die : Nat) (sqId : Nat) (wid : Nat) (h : Nat) (x : Word)
  | force (h : Nat) (x : Word)
  | create (hdr : Hdr) (h : Nat) (obj : SyncObj)
  | freeSlot (hdr : Hdr) (h : Nat)
  deriving DecidableEq, Repr, Inhabited

/-- A release on its way to a waiter (09, R470): SQ, handle, and true when ABANDONED. -/
structure Release where
  /-- Sequencer released. -/
  sq : Nat := 0
  /-- Handle of the object. -/
  h : Nat := 0
  /-- Released with status ABANDONED (09, R465). -/
  aban : Bool := false
  deriving DecidableEq, Repr, Inhabited

/-- The Sync Table (09). -/
structure St where
  /-- Objects by handle (09, Table 9.2). -/
  objs : Tbl SyncObj := []
  /-- Input FIFO, oldest first, at most 128 (09, R466). -/
  fifo : List StOp := []
  /-- Operations offered and held because the FIFO is full (09, R466). -/
  offered : List StOp := []
  /-- Releases sent to sequencers of this die and not yet taken (09, R470). -/
  releases : List Release := []
  /-- Notify FIFO, oldest first, at most 256 (09, R477). -/
  notify : List Nat := []
  /-- OOO_LAST_OBJ.SRC_KIND and HANDLE (09, Table 9.10). -/
  oooObj : Reg := 0
  /-- OOO_LAST_SRC (09, Table 9.10). -/
  oooSrc : Reg := 0
  /-- OOO_LAST_X (09, Table 9.10). -/
  oooX : Word := 0
  /-- OOO_LAST_VALUE (09, Table 9.10). -/
  oooVal : Word := 0
  /-- Debug view snapshot: VALUE, entry word 1, local waiters (09, R503). -/
  dbg : List Word := []
  /-- FORCE_VAL_LO as held (09, R504). -/
  forceLo : Reg := 0
  /-- FORCE_STAT.DONE (09, Table 9.10). -/
  forceDone : Bool := false
  /-- FORCE_STAT.REFUSED (09, Table 9.10). -/
  forceRef : Nat := 0
  /-- DRIFT_LAST.STREAM (09, R487). -/
  driftLast : Nat := 0
  deriving DecidableEq, Repr, Inhabited

/-- A Lehr report kept for escalation (09, R497). -/
structure Report where
  /-- KIND (09, Table 9.8). -/
  kind : Nat := 0
  /-- Tally at the report (09, R497). -/
  at_ : Word := 0
  deriving DecidableEq, Repr, Inhabited

/-- A Lehr dump in progress (09, R499). -/
structure Dump where
  /-- Header words with the CRC (09, Table 9.8). -/
  header : List Word := []
  /-- Record writes not yet acknowledged (09, R499). -/
  left : Nat := 0
  /-- The header has been written and awaits its acknowledgement (09, R499). -/
  last : Bool := false
  /-- A write has failed (09, R501). -/
  failed : Bool := false
  deriving DecidableEq, Repr, Inhabited

/-- The Lehr (09). -/
structure Lehr where
  /-- Partitions found stalled at the last sample (09, Table 9.12 STALL_MAP). -/
  stall : BitVec 16 := 0
  /-- Tally since which each partition has been stalled at every sample (09, R491). -/
  since : Tbl Word := []
  /-- Partitions whose DEADLOCK has been reported and not yet cleared by a sample (09, R491). -/
  told : BitVec 16 := 0
  /-- Tally since which the die as a whole has been stalled (09, R492). -/
  dieSince : Option Word := none
  /-- The die-wide DEADLOCK has been reported (09, R492). -/
  dieTold : Bool := false
  /-- Partitions in which a stall condition has failed since the last sample (09, R490). -/
  moved : BitVec 16 := 0
  /-- A condition of the die-wide stall has failed since the last sample (09, R492). -/
  dieMoved : Bool := false
  /-- Sequencers whose SEND has been reported (09, R493). -/
  sendTold : List Nat := []
  /-- Receive queues: Tallies of the latest NACKs since a record was consumed, newest first (09, R494). -/
  nacks : Tbl (List Word) := []
  /-- Receive queues whose LIVELOCK_RXQ has been reported since a record was consumed (09, R494). -/
  rxqTold : List Nat := []
  /-- Issues reported STUCK: lane and issue ID (09, R495). -/
  stuckTold : List (Nat × Nat) := []
  /-- Reports whose escalation window runs (09, R497). -/
  reports : List Report := []
  /-- LEHR_STAT.ESCALATED (09, R497). -/
  escalated : Bool := false
  /-- LEHR_STAT.LAST_KIND (09, Table 9.12). -/
  lastKind : Nat := 0
  /-- LEHR_STAT.LAST_PART (09, Table 9.12). -/
  lastPart : Nat := 0
  /-- Dump in progress (09, R500). -/
  dump : Option Dump := none
  deriving DecidableEq, Repr, Inhabited

/-! ## Message Fabric and Crucible (chapter 10) -/

/-- State of a record in a receive queue's ring (10, R516-R521). -/
inductive RecState where
  /-- Body writes await their acknowledgement; so many are left. -/
  | body (left : Nat)
  /-- The write of word 0 awaits its acknowledgement. -/
  | head
  /-- The record is written. -/
  | ready
  /-- Taken by a SELECT. -/
  | taken
  /-- Released. -/
  | released
  deriving DecidableEq, Repr, Inhabited

/-- One record of a ring (10, Table 10.2). -/
structure RingRec where
  /-- Record number of the model within the queue. -/
  n : Nat := 0
  /-- Byte offset in the ring (10, R515). -/
  off : Nat := 0
  /-- LEN (10, Table 10.2). -/
  len : Nat := 0
  /-- PHASE (10, Table 10.2). -/
  phase : Bool := true
  /-- KIND is pad (10, Table 10.2, R518). -/
  pad : Bool := false
  /-- It holds a landing-write slot (10, Table 10.1). -/
  slot : Bool := false
  /-- Word 0 onward (10, Table 10.2). -/
  words : List Word := []
  /-- State. -/
  st : RecState := .ready
  deriving DecidableEq, Repr, Inhabited

/-- A receive queue (10). -/
structure Rxq where
  /-- State (10, Table 10.8 RXQ_STAT.STATE). -/
  st : SlotState := .free
  /-- ACCESS (10, Table 10.8). -/
  access : Nat := 0
  /-- OWNER (10, Table 10.8). -/
  owner : Nat := 0
  /-- RING_BASE (06, Table 6.7). -/
  base : Nat := 0
  /-- RING_BYTES (06, Table 6.7). -/
  bytes : Nat := 0
  /-- RXQ_CTRL.PAUSE (10, Table 10.8). -/
  pause : Bool := false
  /-- Landing window base (10, R513). -/
  landBase : Nat := 0
  /-- Landing window size in 4 KiB units (10, R513). -/
  landSize : Nat := 0
  /-- Producer offset P (10, "Records in the ring"). -/
  p : Nat := 0
  /-- PHASE of the next record placed (10, Table 10.8). -/
  phase : Bool := true
  /-- USED (10, R521). -/
  used : Nat := 0
  /-- Messages accepted (10, Table 10.8 RXQ_MSG). -/
  msgs : Word := 0
  /-- NACKs (10, Table 10.8 RXQ_NACK). -/
  nacks : Word := 0
  /-- Records not yet released in ring order, oldest first (10, R521). -/
  recs : List RingRec := []
  /-- Next record number of the model. -/
  next : Nat := 0
  /-- SLOT_FREE entry to answer (06, R299). -/
  freeHdr : Option Hdr := none
  deriving DecidableEq, Repr, Inhabited

/-- Where an answer to a message goes (10, R510; 14, R741; 12, R658). -/
inductive MsgFrom where
  | sq (s : Nat)
  | shears (route : Nat)
  | nobody
  | die (d : Nat) (mid : Nat)
  deriving DecidableEq, Repr, Inhabited

/-- The Message Fabric (10). -/
structure Mf where
  /-- Receive queues (10). -/
  rxqs : Tbl Rxq := []
  /-- Messages offered and not yet taken: sender and message (10, R509). -/
  inbox : List (MsgFrom × Msg) := []
  /-- Landing-write slots in use, of 64 (10, Table 10.1). -/
  slots : Nat := 0
  /-- NACK_LAST (10, Table 10.8). -/
  nackLast : Reg := 0
  /-- Answers of this die's MF on their way to sequencers: sequencer and code (10, R511). -/
  answers : List (Nat × Nat) := []
  deriving DecidableEq, Repr, Inhabited

/-- A contribution of an open round whose data is awaited (10, R543, R549). -/
structure Contrib where
  /-- Sender index (10, R543). -/
  idx : Nat := 0
  /-- Its completion, walked when the contribution has been added (10, R549). -/
  beat : CplBeat := {}
  deriving DecidableEq, Repr, Inhabited

/-- State of a combining queue (10, Table 10.9 CQ_STAT.STATE). -/
inductive CqState where
  | off | idle | open_ | releasing
  deriving DecidableEq, Repr, Inhabited

/-- A combining queue: configuration and round state (10, "Combining queues"). -/
structure Cq where
  /-- CQ_CFG0 (10, Table 10.9). -/
  cfg0 : Reg := 0
  /-- CQ_CFG1 (10, Table 10.9). -/
  cfg1 : Reg := 0
  /-- CQ_CFG2 (10, Table 10.9). -/
  cfg2 : Reg := 0
  /-- CQ_CFG3 (10, Table 10.9). -/
  cfg3 : Reg := 0
  /-- CQ_STAT.STATE (10, Table 10.9). -/
  st : CqState := .off
  /-- Lines held (10, Table 10.9). -/
  lines : Nat := 0
  /-- Instance of the open round (10, Table 10.9). -/
  inst : Nat := 0
  /-- Open serial of that instance. -/
  serial : Nat := 0
  /-- Task of the open round's instance, for the null completion of a Cane without copies (10, R547). -/
  task : Nat := 0
  /-- Rounds opened, to tell stale reads from live ones. -/
  round : Nat := 0
  /-- Target of the open round (10, R544). -/
  target : Nat := 0
  /-- The round acts as ORDER 1 (10, R550, R552). -/
  ord : Bool := false
  /-- Contributions counted (10, Table 10.9 CQ_STAT.COUNT). -/
  count : Nat := 0
  /-- Highest sender index of the round (10, R550). -/
  top : Nat := 0
  /-- Contributions whose data is awaited, with ORDER 0 (10, R549). -/
  open_ : List Contrib := []
  /-- Completions in the Crucible's input that wait for a patch block, a hold's end or the release of the round
  (10, R554, R555). -/
  waiting : List CplBeat := []
  /-- The completion that closes the round, held until the release (10, R553). -/
  closing : Option CplBeat := none
  /-- The round closes a Cane without copies (10, R547). -/
  zero : Bool := false
  /-- With ORDER 1: slots are being read, next one to add (10, R550). -/
  reading : Option Nat := none
  /-- With ORDER 1: data returned out of turn, by slot (10, R550). -/
  stash : Tbl (List Word) := []
  /-- The ADD on DONE has been handed to the Sync Table (10, R553). -/
  handed : Bool := false
  /-- Accumulators, by element: FP32 bits or an integer (10, R556). -/
  acc : Tbl Int := []
  deriving DecidableEq, Repr, Inhabited

/-- The Crucible (10). -/
structure Cru where
  /-- Combining queues (10). -/
  cqs : Tbl Cq := []
  /-- Accumulator lines in use, of 1,024 (10, R564). -/
  used : Nat := 0
  deriving DecidableEq, Repr, Inhabited

/-- A register FIFO (10, Table 10.4, R532-R537). -/
structure RegFifo where
  /-- Words between RL and CW, oldest first (10, "Register FIFO windows"). -/
  words : List Reg := []
  /-- RD − RL (10, R533). -/
  rd : Nat := 0
  /-- MK − RL (10, R534). -/
  mark : Nat := 0
  /-- Positions from RL of words with an uncorrectable error (10, R538). -/
  bad : List Nat := []
  /-- FIFO_STAT.UNDERRUN (10, Table 10.4). -/
  underrun : Bool := false
  /-- FIFO_STAT.OVERFLOW (10, Table 10.4). -/
  overflow : Bool := false
  /-- FIFO_STAT.UE (10, Table 10.4). -/
  ue : Bool := false
  /-- FIFO_LOST (10, Table 10.4). -/
  lost : Word := 0
  /-- FIFO_CORR (10, Table 10.4). -/
  corr : Word := 0
  deriving DecidableEq, Repr, Inhabited

/-! ## Scheduling, Marver and Tally Unit (chapter 11) -/

/-- Preemption phases (11, Table 11.10 Q_PVIEW.PHASE). -/
inductive Phase where
  | none | draining | saving | saved | restoring
  deriving DecidableEq, Repr, Inhabited

/-- A live set of a save, as the directory holds it (11, Tables 11.5, 11.6). -/
structure LiveSet where
  /-- LIVESET number. -/
  id : Nat := 0
  /-- SAVE_BYTES (11, Table 11.5). -/
  bytes : Nat := 0
  /-- LANE_MASK (11, Table 11.5). -/
  mask : Word := 0
  /-- Device address of the save descriptors (11, Table 11.5). -/
  saveDesc : Nat := 0
  /-- Device address of the restore descriptors (11, Table 11.5). -/
  restDesc : Nat := 0
  /-- Data address in the save area (11, Table 11.6). -/
  data : Nat := 0
  deriving DecidableEq, Repr, Inhabited

/-- A preemption of a queue (11, "Preemption"). -/
structure Preempt where
  /-- Phase (11, Table 11.7). -/
  phase : Phase := .none
  /-- Full save, KIND 2 (11, R616). -/
  full : Bool := false
  /-- Lanes of a full save (11, R616). -/
  mask : Word := 0
  /-- Live sets in directory order (11, R607). -/
  sets : List LiveSet := []
  /-- Sequencer-state writes not yet acknowledged; the sequencer is freed with the last (11, Table 11.7). -/
  seqLeft : Nat := 0
  /-- The sequencer as saved (11, Table 11.6). -/
  img : Sq := {}
  /-- PC of the point. -/
  pc : Nat := 0
  /-- Save or restore issues not yet sent: lane and index of the set (11, Table 11.7, R613). -/
  toIssue : List (Nat × Nat) := []
  /-- A save or restore issue of the phase closed ABORTED, so the phase starts again (11, Table 11.8). -/
  redo : Bool := false
  /-- 1 while the directory write, 2 while the header write is under way (11, Table 11.7). -/
  step : Nat := 0
  /-- The saved sequencer state as a restore has read it, until the program resumes (11, R613). -/
  rest : List Word := []
  /-- Tally at the start of SAVING or RESTORING (11, Table 11.10 Q_SWITCH). -/
  from_ : Word := 0
  /-- Tally at the point (11, Table 11.6). -/
  at_ : Word := 0
  deriving DecidableEq, Repr, Inhabited

/-- Scheduler state of a context (11, R574-R581, R590). -/
structure SchedCtx where
  /-- Deficit, signed 64-bit (11, R576). -/
  def_ : Int := 0
  /-- ENG_TIME at the last period end (11, R576). -/
  snap : Word := 0
  /-- Active in the current period (11, R575). -/
  active : Bool := false
  /-- Rank (11, R578). -/
  rank : Nat := 0
  /-- SLOW, Q8.8 (11, R590). -/
  slow : Nat := 256
  /-- Weight used by the next deficit update (11, R581). -/
  weight : Nat := 1
  deriving DecidableEq, Repr, Inhabited

/-- The scheduler (11). -/
structure Sched where
  /-- Per-context state (11, R576, R590). -/
  ctxs : Tbl SchedCtx := []
  /-- rot of the rank order (11, R576, R578). -/
  rot : Nat := 0
  /-- Preemption of each queue (11, R611). -/
  pre : Tbl Preempt := []
  /-- Q_SWITCH.SAVE_US, Q_SWITCH.RESTORE_US and Q_PVIEW.SETS by queue (11, Table 11.10). -/
  switches : Tbl (Nat × Nat × Nat) := []
  /-- LATE_LAST (11, Table 11.10). -/
  lateLast : Reg := 0
  /-- Slowdown FIFO (11, R591). -/
  slowFifo : RegFifo := {}
  /-- Inheritances: holder, waiting queue, semaphore (11, R619-R622). -/
  inherits : List (Nat × Nat × Nat) := []
  deriving DecidableEq, Repr, Inhabited

/-- A MIX handed to the Marver and not yet in its slot (11, R595, R596). -/
structure MixReq where
  /-- Instance and its serial. -/
  inst : Nat := 0
  /-- Open serial. -/
  serial : Nat := 0
  /-- MSLOT (07, Table 7.9). -/
  slot : Nat := 0
  /-- History length (07, Table 7.9). -/
  len : Nat := 0
  /-- CHUNK (07, Table 7.9). -/
  chunk : Nat := 0
  /-- History base (07, Table 7.9). -/
  base : Nat := 0
  deriving DecidableEq, Repr, Inhabited

/-- The Marver (11). -/
structure Marv where
  /-- MIX requests held, oldest first, at most 16 (07, Table 7.2; 11, R596). -/
  reqs : List MixReq := []
  /-- phi in effect; none while it is PHI_INIT (11, R601, R603). -/
  phi : Nat := 32
  /-- Mix accumulators by lane (11, R600). -/
  acc : Tbl Nat := []
  /-- Last ua (11, Table 11.11). -/
  ua : Nat := 0
  /-- Last uh (11, Table 11.11). -/
  uh : Nat := 0
  /-- BUSY and TOTAL of the last successful read (11, R602). -/
  prev : Option (Word × Word) := none
  /-- Array busy engine-tclk and tclk counted since the last adaptation (11, R601). -/
  busy : Nat := 0
  /-- tclk counted since the last adaptation (11, R601). -/
  span : Nat := 0
  /-- Chunk map: chunk bit of tasks of class 1, keyed by task slot (11, R583). -/
  chunkMap : Tbl Bool := []
  /-- An adaptation waits for its utilisation read (11, R602). -/
  adapting : Bool := false
  /-- HBM_UTIL_ADDR of the last read (11, R602). -/
  utilAddr : Nat := 0
  deriving DecidableEq, Repr, Inhabited

/-- An alarm in a comparator (11, R592, Table 11.3). -/
structure Alarm where
  /-- Count (11, R592). -/
  at_ : Word := 0
  /-- KIND (11, Table 11.3). -/
  kind : Nat := 0
  /-- Holder: instance, sequencer or unit (11, Table 11.12). -/
  holder : Nat := 0
  /-- It was passed without a comparator, or it was held pending by quiescing (11, R593; 02, R130; 13, R706). -/
  late : Bool := false
  deriving DecidableEq, Repr, Inhabited

/-- The Tally Unit (02, R96-R102; 11, R592-R594). -/
structure Tu where
  /-- The Tally (02, R96). -/
  tally : Word := 0
  /-- tally_lock as the Tally Unit last saw it (02, R102). -/
  lock : Bool := false
  /-- In step mode: a load has come since the end of reset (02, R99). -/
  loaded : Bool := false
  /-- BACK_LAST (02, R101). -/
  backLast : Word := 0
  /-- Armed alarms by comparator number 0-31 (11, R592). -/
  cmps : Tbl Alarm := []
  /-- Pending alarms that hold no comparator (11, R592). -/
  wait : List Alarm := []
  /-- Alarms due: the Tally has moved past their counts, and their action is to come (02, R100). -/
  due : List Alarm := []
  deriving DecidableEq, Repr, Inhabited

/-! ## Shears (chapter 12) -/

/-- Route states (12, Table 12.11). -/
inductive RouteState where
  | queued | computing | waiting
  deriving DecidableEq, Repr, Inhabited

/-- One entry of the plan kept for a peer (12, Table 12.8). -/
structure Peer where
  /-- Die. -/
  die : Nat := 0
  /-- Rows sent to it (12, Table 12.8). -/
  rows : Nat := 0
  /-- Headers sent to it (12, Table 12.8). -/
  headers : Nat := 0
  /-- DIGEST of its headers (12, R652). -/
  digest : Word := 0
  /-- The last count message to it was NACKed with a retryable cause, and its resend is due (12, R658). -/
  backoff : Bool := false
  /-- Its count message for this route has been taken: payload words (12, R659). -/
  got : Option (List Word) := none
  /-- The count message to it is not yet acknowledged: retries so far (12, R658). -/
  sending : Option Nat := none
  deriving DecidableEq, Repr, Inhabited

/-- A route of the Shears (12, Table 12.11). -/
structure Route where
  /-- Route number of the model. -/
  id : Nat := 0
  /-- State (12, Table 12.11). -/
  st : RouteState := .queued
  /-- Instance and serial (12, R644). -/
  inst : Nat := 0
  /-- Open serial. -/
  serial : Nat := 0
  /-- Route slot (07, R372). -/
  slot : Nat := 0
  /-- PC of the ROUTE (12, R664). -/
  pc : Nat := 0
  /-- Context of the program. -/
  ctx : Nat := 0
  /-- Launching queue. -/
  q : Nat := 0
  /-- Descriptor address (07, Table 7.9). -/
  desc : Nat := 0
  /-- The descriptor has been read, and the route has taken its group's SEQ and placement (12, R655, R668). -/
  bound : Bool := false
  /-- Dropped before its descriptor was read: it still consumes its SEQ (12, R662). -/
  dead : Bool := false
  /-- The 256 B descriptor, once read and checked (12, Table 12.1). -/
  descW : List Word := []
  /-- Placement entries of the route's experts, two words each, once read (12, Table 12.13). -/
  place : List Word := []
  /-- Token count from a register; none for TOKSRC 0 (07, R371). -/
  tokens : Option Nat := none
  /-- Route group and SEQ, taken at acceptance (12, R655). -/
  group : Nat := 0
  /-- SEQ (12, R655). -/
  seq : Nat := 0
  /-- Bound placement buffer: B when true (12, R668). -/
  placeB : Bool := false
  /-- Bound placement generation (12, R668). -/
  gen : Nat := 0
  /-- Order STABLE (12, R641). -/
  stable : Bool := false
  /-- Base capacity C (12, R635). -/
  cap : Nat := 0
  /-- E (12, Table 12.1). -/
  experts : Nat := 0
  /-- Kept choices S, once computed (17, Table 17.3). -/
  kept : Nat := 0
  /-- Rows per expert, once computed (12, R644). -/
  rows : List Nat := []
  /-- Output writes not yet acknowledged (12, R644). -/
  writes : Nat := 0
  /-- PLAN_ADDR, once written (12, Table 12.11). -/
  plan : Option Nat := none
  /-- Peers of the group (12, R657). -/
  peers : List Peer := []
  /-- Receive-entry writes not yet acknowledged (12, R660). -/
  entryWrites : Nat := 0
  /-- The STATE write has been issued (12, R660). -/
  stateOut : Bool := false
  /-- Tally at landing, from which AGREE_US counts (12, R661). -/
  landed : Option Word := none
  deriving DecidableEq, Repr, Inhabited

/-- A route group (12, Table 12.16 group view). -/
structure Group where
  /-- GRP_CFG (12, Table 12.16). -/
  cfg : Reg := 0
  /-- GRP_MASK (12, Table 12.16). -/
  mask : Word := 0
  /-- PLACE_A (12, Table 12.16). -/
  placeA : Word := 0
  /-- PLACE_B (12, Table 12.16). -/
  placeB : Word := 0
  /-- GRP_PLACE.GEN (12, Table 12.16). -/
  gen : Nat := 0
  /-- GRP_PLACE.SEL (12, Table 12.16). -/
  sel : Bool := false
  /-- GRP_NEXT (12, Table 12.16). -/
  next : Reg := 0
  /-- GRP_NEXT_SEQ (12, Table 12.16). -/
  nextSeq : Nat := 0
  /-- GRP_SEQ (12, R655). -/
  seq : Nat := 0
  deriving DecidableEq, Repr, Inhabited

/-- The snapshot of a placement epoch's end, until it is written (12, Table 12.14). -/
structure PopSnap where
  /-- Tally of the epoch end. -/
  at_ : Word := 0
  /-- Group. -/
  group : Nat := 0
  /-- Placement generation of the input. -/
  gen : Nat := 0
  /-- Requests by expert. -/
  req : Tbl Nat := []
  /-- Kept rows by expert. -/
  kept : Tbl Nat := []
  /-- E of the proposal (12, R671). -/
  experts : Nat := 0
  /-- The proposal, 1,024 words; none without one. -/
  prop : List Word := []
  /-- Snapshot writes not yet acknowledged. -/
  left : Nat := 0
  /-- A write has failed (12, R674). -/
  failed : Bool := false
  deriving DecidableEq, Repr, Inhabited

/-- The Shears (12). -/
structure Shears where
  /-- Route groups (12, Table 12.16). -/
  groups : Tbl Group := []
  /-- Routes not ended, in acceptance order (12, R661, R665). -/
  routes : List Route := []
  /-- Next route number of the model. -/
  next : Nat := 0
  /-- E of the latest route of POP_GROUP that was counted (12, R669, R671). -/
  popE : Nat := 0
  /-- The snapshot of an epoch's end while it is being made (12, R670). -/
  snap : Option PopSnap := none
  /-- POP_REQ by expert (12, R669). -/
  popReq : Tbl Nat := []
  /-- POP_KEPT by expert (12, R669). -/
  popKept : Tbl Nat := []
  /-- LAST_FAULT (12, Table 12.16). -/
  lastFault : Reg := 0
  /-- Auto-applied placement write under way: group, SEL and GEN to arm (12, R672). -/
  applying : Option (Nat × Bool × Nat) := none
  deriving DecidableEq, Repr, Inhabited

/-! ## Streams and tables (chapter 13) -/

/-- One arm of a stream (13, R684-R688). -/
structure Arm where
  /-- Generation (13, R684). -/
  gen : Word := 0
  /-- Arming queue (13, R687). -/
  q : Nat := 0
  /-- PC of the STREAM_ARM (13, R699). -/
  pc : Nat := 0
  /-- Submission whose program armed (05, R851). -/
  sid : Nat := 0
  /-- Arming context (13, R689). -/
  ctx : Nat := 0
  /-- Bound table epoch (13, R702). -/
  epoch : Reg := 0
  /-- Stream Table entry as read, eight words (13, Table 13.1); none until the read has passed its checks. -/
  entry : List Word := []
  /-- VALUE of each credit counter at the check, by receiver (13, R687). -/
  bases : List Word := []
  /-- VALUE of the READY counter at the check (13, R687). -/
  readyBase : Word := 0
  deriving DecidableEq, Repr, Inhabited

/-- Stream slot states (13, Table 13.3). -/
inductive StreamState where
  | idle | loading | active | stopping
  deriving DecidableEq, Repr, Inhabited

/-- A stream that holds a slot (13, Tables 13.3, 13.8). -/
structure Stream where
  /-- SVIEW.STATE (13, Table 13.8). -/
  st : StreamState := .idle
  /-- The current arm (13, R685). -/
  cur : Arm := {}
  /-- The pending arm (13, R688). -/
  pend : Option Arm := none
  /-- SENT of the multicast path (13, R691). -/
  sent : Nat := 0
  /-- Producer count (13, R695). -/
  pcount : Nat := 0
  /-- Consumer count (13, R695). -/
  ccount : Nat := 0
  /-- SVIEW.ATTACHED: receivers on the multicast path (13, Table 13.8). -/
  attached : BitVec 8 := 0
  /-- Detached receivers with the cursor of their unicast path (13, R697). -/
  detached : Tbl Nat := []
  /-- Transfers that quiescing aborted, to be issued again: path and offset (13, R694). -/
  redo : List (Nat × Nat) := []
  deriving DecidableEq, Repr, Inhabited

/-- The STRM unit (13). -/
structure Strm where
  /-- Streams that hold a slot, by stream number (13, Table 13.3). -/
  slots : Tbl Stream := []
  /-- ARM_SEQ (13, R684). -/
  armSeq : Word := 1
  /-- DETACH_LAST (13, Table 13.8). -/
  detachLast : Reg := 0
  /-- OVERRUN_LAST (13, Table 13.8). -/
  overrunLast : Reg := 0
  deriving DecidableEq, Repr, Inhabited

/-- Shadow states (13, Table 13.6). -/
inductive Shadow where
  | busy | opened | sealing | sealed | armed
  deriving DecidableEq, Repr, Inhabited

/-- The TBL unit (13, Table 13.10). -/
structure TblUnit where
  /-- TBL_STAT.SHADOW (13, Table 13.10). -/
  shadow : Shadow := .opened
  /-- EPOCH (13, R705). -/
  epoch : Reg := 0
  /-- LIVE_CUR (13, R703). -/
  liveCur : Nat := 0
  /-- LIVE_PREV (13, R703). -/
  livePrev : Nat := 0
  /-- LAST_FLIP (13, R705). -/
  lastFlip : Word := 0
  /-- LATE_NS (13, R706). -/
  lateNs : Word := 0
  deriving DecidableEq, Repr, Inhabited

/-! ## Punty Port (chapter 14) -/

/-- Link states (14, Table 14.6). -/
inductive LinkState where
  | down | hello | up
  deriving DecidableEq, Repr, Inhabited

/-- What a frame held for the link came from, told when the frame is accepted (14, R728). -/
inductive TxFrom where
  | sq (s : Nat)
  | edge (inst : Nat) (serial : Nat) (task : Nat)
  | unit_
  deriving DecidableEq, Repr, Inhabited

/-- A sequenced frame: TYPE and payload bytes 16-59 (14, Tables 14.1, 14.4). -/
structure Frame where
  /-- TYPE (14, Table 14.2). -/
  ty : BitVec 8 := 0
  /-- Payload, byte 16 in the low bits (14, Table 14.4). -/
  pay : BitVec 352 := 0
  deriving DecidableEq, Repr, Inhabited

/-- A partner entry (14, R713-R732, Table 14.9). -/
structure Partner where
  /-- PVIEW.STATE (14, Table 14.9). -/
  st : LinkState := .down
  /-- Recorded partner epoch (14, R719). -/
  epoch : Option Reg := none
  /-- NEXT (14, R725-R728). -/
  next : Reg := 0
  /-- UNA (14, R727). -/
  una : Reg := 0
  /-- EXP (14, R725). -/
  exp : Reg := 0
  /-- Accepted frames from UNA to NEXT - 1, oldest first (14, R727, R728). -/
  frames : List Frame := []
  /-- How many of them, from the newest back, have not been sent (14, R723). -/
  unsent : Nat := 0
  /-- Frames whose source holds them: no window or pool place yet (14, R728). -/
  held : List (TxFrom × List Frame) := []
  /-- PVIEW.TX_READY (14, R723). -/
  txReady : Bool := false
  /-- Loss clock: Tally of the last accepted HB (14, R722). -/
  heard : Option Word := none
  /-- Tally of the last NAK sent (14, R725). -/
  lastNak : Word := 0
  /-- Tally of the last go_back (14, R727). -/
  lastBack : Word := 0
  /-- t0 of the retransmit timer (14, R727). -/
  t0 : Word := 0
  /-- Frames delivered since EXP was last sent (14, R726). -/
  sinceAck : Nat := 0
  /-- Delivered frames that their unit has not yet taken, oldest first, at most 16 (14, R730). -/
  hold : List Frame := []
  /-- A MSG that waits for its MSG_X (14, R717). -/
  msgX : Option (BitVec 352) := none
  /-- Consecutive compared HBs that differ (14, R744). -/
  differ : Nat := 0
  /-- PVIEW.SKEW (14, R744). -/
  skew : Bool := false
  /-- PVIEW.LAST_CAUSE (14, Table 14.9). -/
  lastCause : Nat := 0
  /-- PVIEW.ROLE (14, Table 14.9). -/
  role : BitVec 2 := 0
  /-- PVIEW.LOCK (14, Table 14.9). -/
  lock : Bool := false
  /-- PDIG (14, Table 14.9). -/
  dig : Word := 0
  /-- PGEN (14, Table 14.9). -/
  gen : Reg := 0
  deriving DecidableEq, Repr, Inhabited

/-- A remote message that awaits its MSG_ANS (14, R741, R742). -/
structure RemMsg where
  /-- ANS_ID, the sender's token (14, Table 14.4). -/
  mid : Nat := 0
  /-- Destination die. -/
  die : Nat := 0
  /-- The sender. -/
  src : MsgFrom := .sq 0
  deriving DecidableEq, Repr, Inhabited

/-- Steps of a table cast (14, R750-R755). -/
inductive CastStep where
  | prep | arm | disarm
  deriving DecidableEq, Repr, Inhabited

/-- A table cast in progress (14, R750-R756). -/
structure Cast where
  /-- Step. -/
  step : CastStep := .prep
  /-- Workers a frame was sent to (14, R750). -/
  sent : Word := 0
  /-- Workers that have answered this step. -/
  answered : Word := 0
  /-- The first worker that answered a TBL_PREP otherwise than READY (14, R752). -/
  refused : Option Nat := none
  /-- Tally at the start of the step (14, R752, R754). -/
  at_ : Word := 0
  /-- FLIP_AT of the cast (14, R750, Table 14.4). -/
  flipAt : Word := 0
  deriving DecidableEq, Repr, Inhabited

/-- The Punty Port (14). -/
structure Pp where
  /-- The Punty stage of bring-up has begun (03, Table 3.6). -/
  on : Bool := false
  /-- pp_link_up as the Punty Port last saw it (02, R91). -/
  linkUp : Bool := false
  /-- The Punty Port's copy of this die's epoch (03, Table 3.2, R123). -/
  ownEpoch : Reg := 0
  /-- Partner entries by DIE_ID (14, R713). -/
  peers : Tbl Partner := []
  /-- Count of remote WAITs of each sequencer, modulo 2^11 (14, R735). -/
  waitIds : Tbl Nat := []
  /-- Count of messages given an ANS_ID (14, Table 14.4). -/
  ansNext : Nat := 0
  /-- Remote messages that await a MSG_ANS, at most 256 (14, R742). -/
  msgs : List RemMsg := []
  /-- Remote messages that found no room among the 256 (14, R742). -/
  msgHeld : List (MsgFrom × Nat × Msg) := []
  /-- PP_STAT.SYS_OK on a worker (14, R746). -/
  sysOk : Bool := false
  /-- SKEW_CNT (14, R744); the PP page has no register for it. -/
  skewCnt : Word := 0
  /-- PP_STAT.SKEWED (14, Table 14.9). -/
  skewed : Bool := false
  /-- AGREED_DIG (14, R746). -/
  agreedDig : Word := 0
  /-- AGREED_GEN (14, R746). -/
  agreedGen : Reg := 0
  /-- Sequencers whose held frame the link has accepted and whose command has yet to move on (14, R728; 07, R361). -/
  accepted : List Nat := []
  /-- An HB of the manager has been accepted, so the agreed pair stands (14, R746). -/
  agreed : Bool := false
  /-- GATE_LAST (14, Table 14.9). -/
  gateLast : Reg := 0
  /-- WRST_STAT.BUSY (14, R757). -/
  wrstBusy : Bool := false
  /-- WRST_STAT.DIE (14, Table 14.9). -/
  wrstDie : Nat := 0
  /-- WRST_STAT.RESULT (14, Table 14.9). -/
  wrstRes : Nat := 0
  /-- DST_EPOCH of the RESET whose outcome is awaited (14, R757, R759). -/
  wrstEpoch : Reg := 0
  /-- Cast in progress; FLIP_STAT.BUSY (14, R750). -/
  cast : Option Cast := none
  /-- FLIP_STAT.CAST_ID (14, R750). -/
  castId : BitVec 16 := 0
  /-- FLIP_STAT.FAIL_DIE (14, R752). -/
  failDie : Nat := 0
  /-- FLIP_RES.RESULT (14, Table 14.9). -/
  flipRes : Nat := 0
  /-- ARMED_MAP (14, R754). -/
  armedMap : Word := 0
  deriving DecidableEq, Repr, Inhabited

/-! ## Lock-step (chapter 15) -/

/-- Lock-step states (15, Table 15.4). -/
inductive LsState where
  | off | pairing | run | diverged | broken
  deriving DecidableEq, Repr, Inhabited

/-- A lock-step entry (15, R779, R781). -/
structure LsEntry where
  /-- KEY (15, R779). -/
  key : Word := 0
  /-- CHECK (15, R779). -/
  check : Reg := 0
  /-- PSEQ of a primary entry (15, R779). -/
  pseq : Word := 0
  /-- The entry is the primary's (15, R781). -/
  mine : Bool := true
  /-- Tally from which LS_MATCH_US counts (15, R783). -/
  at_ : Word := 0
  /-- VARIES of the task record (15, R785). -/
  varies : Bool := false
  deriving DecidableEq, Repr, Inhabited

/-- The DIV registers (15, Table 15.5). -/
structure Div where
  /-- DIV_KEY. -/
  key : Word := 0
  /-- DIV_PCHK. -/
  pchk : Reg := 0
  /-- DIV_SCHK. -/
  schk : Reg := 0
  /-- DIV_PSEQ. -/
  pseq : Word := 0
  /-- DIV_TALLY. -/
  tally : Word := 0
  /-- DIV_STAT.VALID. -/
  valid : Bool := false
  /-- DIV_STAT.VARIES. -/
  varies : Bool := false
  /-- DIV_STAT.KIND. -/
  kind : Nat := 0
  deriving DecidableEq, Repr, Inhabited

/-- The DET unit (15). -/
structure Det where
  /-- DET_STAT.LS_STATE (15, Table 15.4). -/
  st : LsState := .off
  /-- DET_STAT.SIDE: 0 none, 1 primary, 2 secondary (15, Table 15.5). -/
  side : Nat := 0
  /-- DET_STAT.BROKEN_CAUSE (15, Table 15.5). -/
  cause : Nat := 0
  /-- START has been handed to the link (15, Table 15.4). -/
  started : Bool := false
  /-- PSEQ of the next primary entry (15, R779). -/
  pseq : Word := 0
  /-- Match table of the primary, at most 4,096 (15, R781). -/
  table : List LsEntry := []
  /-- Entries the secondary holds, oldest first, at most 1,024 (15, R780). -/
  held : List LsEntry := []
  /-- The DIV registers (15, R785). -/
  div : Div := {}
  /-- VARIES_FIRST (15, R772). -/
  variesFirst : Reg := 0
  deriving DecidableEq, Repr, Inhabited

/-! ## RAS unit (chapter 16) -/

/-- A containment or teardown that waits for, or is in, its hold (16, R800, R803). -/
structure Contain where
  /-- Context to tear down. -/
  ctx : Nat := 0
  /-- CTX_STAT.CAUSE it gives (06, Table 6.12). -/
  cause : Nat := 0
  /-- Error record to commit at the end of the hold, words 0 to 5 without LOG_SEQ (16, Table 16.7). -/
  log : Option (List Reg) := none
  /-- QUEUE_FAULT record owed: queue, submission, code and task (16, R807). -/
  qf : Option (Nat × Nat × Nat × Nat) := none
  /-- Entry that asked for the teardown. -/
  hdr : Option Hdr := none
  deriving DecidableEq, Repr, Inhabited

/-- The RAS unit (16). -/
structure Ras where
  /-- Waiting containments and teardowns in order of detection; with a hold in effect the first one is in it (16, R800, R803). -/
  queue : List Contain := []
  /-- RAS_STAT.HOLD (16, Table 16.11). -/
  hold : Bool := false
  /-- Step 1 of Table 6.4 has been done under the hold (16, Table 16.4). -/
  stepped : Bool := false
  /-- Corrected errors by SOURCE (16, R794). -/
  ce : Tbl Word := []
  /-- Uncorrectable errors by SOURCE (16, Table 16.11). -/
  ue : Tbl Word := []
  /-- LOCs of the last eight uncorrectable errors, newest first (16, Table 16.7 REPEAT). -/
  locs : List (Nat × Reg) := []
  /-- LOG_SEQ of the last record (16, Table 16.7). -/
  logSeq : BitVec 8 := 0
  /-- The next record has LOST_BEFORE set (16, R809). -/
  lost : Bool := false
  /-- The error log (16, "The error log"). -/
  log : RegFifo := {}
  /-- tclk count of the last CE record (16, Table 16.8). -/
  ceAt : Option Nat := none
  /-- Position of the patrol scrubber: next word (16, R795). -/
  scrub : Nat := 0
  /-- Armed error injections: SOURCE and DOUBLE (16, R812). -/
  inj : List (Nat × Bool) := []
  /-- LAST_HOLD (16, Table 16.11). -/
  lastHold : Reg := 0
  /-- tclk count at the start of the hold (16, Table 16.11 LAST_HOLD). -/
  holdAt : Nat := 0
  deriving DecidableEq, Repr, Inhabited

/-! ## Counters, trace and debug (chapter 17) -/

/-- The performance counters and the context query (17, R814-R820). -/
structure Pmu where
  /-- Counters by number (17, R814). -/
  cnt : Tbl Word := []
  /-- Snapshot bank (17, R816). -/
  snap : Tbl Word := []
  /-- UQ_STAT.VALID (17, R819). -/
  uqValid : Bool := false
  /-- UQ_TALLY, UQ_ENG_TIME, UQ_MEM, UQ_DYING (17, Table 17.7). -/
  uq : List Word := [0, 0, 0, 0]
  /-- UQ_OPEN_A and UQ_OPEN_B (17, Table 17.7). -/
  uqOpen : List Reg := [0, 0]
  deriving DecidableEq, Repr, Inhabited

/-- A trace record before it is staged (17, Table 17.2). -/
structure TrcRec where
  /-- TALLY. -/
  tally : Word := 0
  /-- Word 1 (17, Table 17.2). -/
  w1 : Word := 0
  /-- A. -/
  a : Word := 0
  /-- B. -/
  b : Reg := 0
  deriving DecidableEq, Repr, Inhabited

/-- Trace capture (17, R821-R830). -/
structure Trc where
  /-- Events of this tclk captured and not yet offered to staging, in order of their event (17, R823). -/
  cand : List TrcRec := []
  /-- Staged records, oldest first, four words each, at most 2,048 (17, R823). -/
  staged : List (List Word) := []
  /-- SEQ of the last staged record (17, Table 17.2). -/
  seq : Reg := 0
  /-- Records dropped since the last staged record (17, R824). -/
  dropped : Word := 0
  /-- TRC_WPTR (17, Table 17.8). -/
  wptr : Reg := 0
  /-- Bytes of the trace write that awaits its acknowledgement (17, R826). -/
  writing : Option Nat := none
  /-- The acknowledgement of a TRC_WB write is awaited (17, R826). -/
  wb : Nat := 0
  /-- POST count running (17, R828). -/
  post : Option Nat := none
  /-- TRC_STAT.TRIG (17, R828). -/
  trig : Bool := false
  /-- TRC_STAT.FAIL (17, R827). -/
  fail : Bool := false
  deriving DecidableEq, Repr, Inhabited

/-- The DBG page and the test ports (17, R831-R843). -/
structure Dbg where
  /-- BP_HIT (17, Table 17.9). -/
  bpHit : Reg := 0
  /-- SHAPE_WR_LO as held (17, R836). -/
  shapeLo : Reg := 0
  /-- DBG_STAT.DONE (17, Table 17.9). -/
  done : Bool := false
  /-- DBG_STAT.REFUSED (17, Table 17.9). -/
  refused : Nat := 0
  /-- Last Update-DR of DBG_ADDR (17, R839). -/
  tapAddr : BitVec 23 := 0
  /-- DBG_DATA result: data (17, Table 17.5). -/
  tapData : Reg := 0
  /-- DBG_DATA.DONE (17, R839). -/
  tapDone : Bool := false
  /-- DBG_DATA.ERR (17, R839). -/
  tapErr : Bool := false
  deriving DecidableEq, Repr, Inhabited

/-- The memory self-test of the wrapper (17, Table 17.6, R843).  It stands outside the mission logic. -/
structure Mbist where
  /-- WS_MBIST_STAT: bit 0 done, bit s failed SOURCE s (17, Table 17.6). -/
  stat : Reg := 0
  /-- Every SRAM word is undefined until the next reset (17, R843). -/
  undef : Bool := false
  deriving DecidableEq, Repr, Inhabited

/-! ## The machine -/

/-- Everything that a reset clears (03, R122). -/
structure Core where
  /-- Ports (02). -/
  io : Io := {}
  /-- Bring-up (03). -/
  bring : Bring := {}
  /-- Engines by engine ID (02, Table 2.7; 03, R146). -/
  engs : Tbl Eng := []
  /-- Lanes released by bring-up stage 4 (03, Table 3.6; 02, R105). -/
  lanesUp : Bool := false
  /-- Sideband Identity Controller (03). -/
  sic : Sic := {}
  /-- Register space (04). -/
  rs : RegSpace := {}
  /-- Quiescing (03, 04). -/
  qsc : Qsc := {}
  /-- Front End (05). -/
  fe : Fe := {}
  /-- Hardware queues (05). -/
  queues : Tbl Queue := []
  /-- Context slots (06). -/
  ctxs : Tbl Ctx := []
  /-- Sequencers (07). -/
  sqs : Tbl Sq := []
  /-- Graph Store (08). -/
  gs : Gs := {}
  /-- Instance State RAM (08). -/
  isr : Isr := {}
  /-- Dependency Engine (08). -/
  de : De := {}
  /-- Dispatch lanes (08). -/
  lanes : Tbl Lane := []
  /-- Sync Table (09). -/
  st : St := {}
  /-- Lehr (09). -/
  lehr : Lehr := {}
  /-- Message Fabric (10). -/
  mf : Mf := {}
  /-- Crucible (10). -/
  cru : Cru := {}
  /-- Scheduler (11). -/
  sched : Sched := {}
  /-- Marver (11). -/
  marv : Marv := {}
  /-- Tally Unit (11). -/
  tu : Tu := {}
  /-- Shears (12). -/
  shr : Shears := {}
  /-- Last keys of the lookup engines, by lookup engine number (13, R680). -/
  lkp : Tbl (Option Nat) := []
  /-- Streams (13). -/
  strm : Strm := {}
  /-- Table epochs (13). -/
  tbl : TblUnit := {}
  /-- Punty Port (14). -/
  pp : Pp := {}
  /-- Determinism and lock-step (15). -/
  det : Det := {}
  /-- RAS unit (16). -/
  ras : Ras := {}
  /-- Performance counters (17). -/
  pmu : Pmu := {}
  /-- Trace (17). -/
  trc : Trc := {}
  /-- Debug (17). -/
  dbg : Dbg := {}
  /-- tclk since the end of reset, counted at each Tally update (00, R10; 02, Table 2.13). -/
  tclk : Nat := 0
  /-- The model's own counter of free values taken; each value the spec leaves open reads a fresh one. -/
  free : Nat := 0
  /-- A reset that this step starts, by its RST_CAUSE (03, Table 3.1). -/
  rstReq : Option (BitVec 4) := none
  /-- The last fatal record that this step stores (16, R799). -/
  fatalReq : Option (List Word) := none
  deriving DecidableEq, Repr, Inhabited

/-- The whole block with its queue of waiting commands. -/
structure State where
  /-- Commands that wait, first in, first out: the model's own input queue. -/
  pending : List Instr := []
  /-- State kept across a reset and the reset in progress (03, Table 3.2). -/
  rst : Rst := {}
  /-- Levels of input pins (02). -/
  pins : Pins := {}
  /-- Memory self-test (17, R843). -/
  mbist : Mbist := {}
  /-- Everything that a reset clears (03, R122). -/
  core : Core := {}
  deriving DecidableEq, Repr

/-- Faults of the model.  No command ends in one: the block reports what goes wrong in its own registers and records, and
a command whose event cannot take place changes nothing. -/
inductive Fault where
  deriving DecidableEq, Repr

/-- Refusals of the model. -/
inductive Refusal where
  /-- Raised by an arm of `exec` whose command has no meaning yet; safe. -/
  | notModelled (mnemonic : String)
  deriving DecidableEq, Repr

/-- The block right after power-up: reset by POR, every field at its reset value (03, R113, R121; Table 3.2). -/
def State.reset : State := {}

end Sys2Proof.Machine
end

