-- ==== Sys2Proof/Config.lean ====
section
/-! DEFINITION. What the manual leaves open: a free value is an opaque function of the machine's own counter of free values,
so nothing can be proved about which value it is.  The notes name the log entry of each use. -/

namespace Sys2Proof.Config

/-- A number that the manual leaves open. -/
opaque freeNat : Nat → Nat

/-- A word that the manual leaves open. -/
opaque freeWord : Nat → Word

/-- SRAM contents that the manual leaves undefined (17, R843): only the parts held in SRAM are ever taken from it. -/
opaque freeCore : Nat → Machine.Core

/-- Elements of MXFP8 are E5M2, else E4M3: OCP Microscaling allows both and the manual names neither (00, R6; 10, R556). -/
opaque mx8E5M2 : Bool

/-- Elements of MXFP6 are E3M2, else E2M3: OCP Microscaling allows both and the manual names neither (00, R6; 10, R556). -/
opaque mx6E3M2 : Bool

end Sys2Proof.Config
end

