-- ==== Sys2Proof/Machine/Bits.lean ====
section
/-! DEFINITION. Sparse tables, bit fields, byte order, serial comparison and the check codes of the manual. -/

namespace Sys2Proof.Machine

/-! ## Sparse tables -/

/-- The entry of a table under a key, if the key is listed. -/
def tfind {α : Type} : Tbl α → Nat → Option α
  | [], _ => none
  | (k, v) :: t, n => if k = n then some v else tfind t n

/-- The value of a table under a key: the default where the key is not listed. -/
def tget {α : Type} (t : Tbl α) (d : α) (n : Nat) : α := (tfind t n).getD d

/-- A table without a key. -/
def tdel {α : Type} (t : Tbl α) (n : Nat) : Tbl α := t.filter (fun e => decide (e.1 ≠ n))

/-- Insertion before the first larger key. -/
def tins {α : Type} (n : Nat) (v : α) : Tbl α → Tbl α
  | [] => [(n, v)]
  | e :: t => if n < e.1 then (n, v) :: e :: t else e :: tins n v t

/-- A table with a key set; a value equal to the default is not listed. -/
def tset {α : Type} [DecidableEq α] (t : Tbl α) (d : α) (n : Nat) (v : α) : Tbl α :=
  if v = d then tdel t n else tins n v (tdel t n)

/-- A table with a key's value changed. -/
def tmod {α : Type} [DecidableEq α] (t : Tbl α) (d : α) (n : Nat) (f : α → α) : Tbl α :=
  tset t d n (f (tget t d n))

/-- A table with a key listed whatever its value. -/
def tput {α : Type} (t : Tbl α) (n : Nat) (v : α) : Tbl α := tins n v (tdel t n)

/-- The canonical form of a table: keys strictly rising and no entry equal to the default. -/
def twf {α : Type} [DecidableEq α] (d : α) (t : Tbl α) : Bool :=
  t.all (fun e => decide (e.2 ≠ d)) && (t.map (·.1)).Pairwise (· < ·)

/-! ## Bit fields -/

/-- Field of `w` bits from bit `lo` of a number. -/
def fld (x lo w : Nat) : Nat := (x / 2 ^ lo) % 2 ^ w

/-- Field of `w` bits from bit `lo` of a word. -/
def wf (x : Word) (lo w : Nat) : Nat := fld x.toNat lo w

/-- Field of `w` bits from bit `lo` of a register. -/
def rf (x : Reg) (lo w : Nat) : Nat := fld x.toNat lo w

/-- Bit of a word. -/
def wbit (x : Word) (n : Nat) : Bool := x.getLsbD n

/-- Bit of a register. -/
def rbit (x : Reg) (n : Nat) : Bool := x.getLsbD n

/-- A word from a number. -/
abbrev w64 (n : Nat) : Word := BitVec.ofNat 64 n

/-- A register from a number. -/
abbrev r32 (n : Nat) : Reg := BitVec.ofNat 32 n

/-- 1 for true. -/
def b2n (b : Bool) : Nat := if b then 1 else 0

/-- The two registers of a word, low then high. -/
def loReg (x : Word) : Reg := r32 (x.toNat % 2 ^ 32)

/-- High register of a word. -/
def hiReg (x : Word) : Reg := r32 (x.toNat / 2 ^ 32)

/-- The word of a low and a high register. -/
def joinReg (lo hi : Reg) : Word := w64 (lo.toNat + hi.toNat * 2 ^ 32)

/-- A register with bits of a mask replaced. -/
def rmask (old new mask : Reg) : Reg := (old &&& ~~~mask) ||| (new &&& mask)

/-- Saturation of a number. -/
def sat (n lim : Nat) : Nat := min n lim

/-! ## Serial comparison (09, R456) -/

/-- ge(a, b): a is not before b, modulo 2^64 (09, R456). -/
def geW (a b : Word) : Bool := decide ((a - b).toNat < 2 ^ 63)

/-- ahead32(a, b) (14, "Sequencing and retransmission"). -/
def ahead32 (a b : Reg) : Bool := decide (a ≠ b ∧ (a - b).toNat < 2 ^ 31)

/-! ## Lists -/

/-- Element of a list of words, zero beyond its end. -/
def wat (l : List Word) (n : Nat) : Word := l.getD n 0

/-- A list with one element replaced, extended with the default where needed. -/
def lset {α : Type} (l : List α) (d : α) (n : Nat) (v : α) : List α :=
  match n, l with
  | 0, [] => [v]
  | 0, _ :: t => v :: t
  | n + 1, [] => d :: lset [] d n v
  | n + 1, x :: t => x :: lset t d n v

/-- The first element that a test accepts, and the list without it. -/
def ltake {α : Type} (p : α → Bool) : List α → Option (α × List α)
  | [] => none
  | x :: t => if p x then some (x, t) else (ltake p t).map (fun r => (r.1, x :: r.2))

/-- The list with the first element that a test accepts changed. -/
def lmodFirst {α : Type} (p : α → Bool) (f : α → α) : List α → List α
  | [] => []
  | x :: t => if p x then f x :: t else x :: lmodFirst p f t

/-- Numbers below a bound that a test accepts, ascending. -/
def below (n : Nat) (p : Nat → Bool) : List Nat := (List.range n).filter p

/-- Set bits of a word, ascending. -/
def bitsOf (w : Word) : List Nat := below 64 (wbit w)

/-- Population count of a word. -/
def popc (w : Word) : Nat := (bitsOf w).length

/-- The word whose set bits are listed. -/
def ofBits (l : List Nat) : Word := l.foldl (fun a n => a ||| (1 <<< n)) 0

/-- The element with the least key; the earliest of equal ones. -/
def argmin {α : Type} (key : α → Nat) : List α → Option α
  | [] => none
  | x :: t =>
    match argmin key t with
    | none => some x
    | some y => if key y < key x then some y else some x

/-- Insertion into a list in ascending order of key, behind elements of an equal key. -/
def insBy {α : Type} (key : α → Nat) (x : α) : List α → List α
  | [] => [x]
  | y :: t => if key x < key y then x :: y :: t else y :: insBy key x t

/-- A list in ascending order of key; elements of equal key keep their order. -/
def sortBy {α : Type} (key : α → Nat) (l : List α) : List α := l.foldl (fun a x => insBy key x a) []

/-! ## Bytes (00, R9: little-endian) -/

/-- Byte `n` of a list of little-endian words. -/
def byteAt (l : List Word) (n : Nat) : Nat := wf (wat l (n / 8)) (8 * (n % 8)) 8

/-- The number in `len` bytes from byte `off` of a list of little-endian words. -/
def bytesAt (l : List Word) (off len : Nat) : Nat :=
  match len with
  | 0 => 0
  | k + 1 => byteAt l off + 256 * bytesAt l (off + 1) k

/-- The first `n` bytes of a number. -/
def toBytes : Nat → Nat → List Nat
  | _, 0 => []
  | x, k + 1 => x % 256 :: toBytes (x / 256) k

/-- The number that little-endian bytes spell. -/
def ofBytes : List Nat → Nat
  | [] => 0
  | b :: t => b + 256 * ofBytes t

/-- Bytes of a list of words. -/
def wordsBytes (l : List Word) : List Nat := l.flatMap (fun w => toBytes w.toNat 8)

/-- Words of a list of bytes, the last one padded with zero bytes; `n` words. -/
def bytesWords (b : List Nat) : Nat → List Word
  | 0 => []
  | k + 1 => w64 (ofBytes (b.take 8)) :: bytesWords (b.drop 8) k

/-! ## Check codes -/

/-- One bit of a reflected CRC. -/
def crcBitR (poly crc : Nat) : Nat := if crc % 2 = 1 then (crc / 2) ^^^ poly else crc / 2

/-- `n` bits of a reflected CRC. -/
def crcBitsR (poly : Nat) : Nat → Nat → Nat
  | 0, crc => crc
  | k + 1, crc => crcBitsR poly k (crcBitR poly crc)

/-- CRC-32C (12, R633): reflected, polynomial 0x1EDC6F41, initial value and final XOR all ones. -/
def crc32c (bytes : List Nat) : Reg :=
  r32 (bytes.foldl (fun c b => crcBitsR 0x82F63B78 8 (c ^^^ b)) 0xFFFFFFFF ^^^ 0xFFFFFFFF)

/-- One bit of the CRC-64 (04, R194). -/
def crcBit64 (crc : Nat) : Nat :=
  if crc ≥ 2 ^ 63 then ((crc * 2) % 2 ^ 64) ^^^ 0x42F0E1EBA9EA3693 else crc * 2

/-- `n` bits of the CRC-64. -/
def crcBits64 : Nat → Nat → Nat
  | 0, crc => crc
  | k + 1, crc => crcBits64 k (crcBit64 crc)

/-- Bytes added to a CRC-64 (04, R194, R195). -/
def crc64Add (crc : Nat) (bytes : List Nat) : Nat :=
  bytes.foldl (fun c b => crcBits64 8 (c ^^^ (b * 2 ^ 56))) crc

/-- Initial value of the CRC-64 (04, R194). -/
def crc64Init : Nat := 2 ^ 64 - 1

/-- Final XOR of the CRC-64 (04, R194). -/
def crc64Fin (crc : Nat) : Word := w64 (crc ^^^ (2 ^ 64 - 1))

/-- CRC-64 of bytes (04, R194). -/
def crc64 (bytes : List Nat) : Word := crc64Fin (crc64Add crc64Init bytes)

/-- One bit of the CRC-16 of a memory module. -/
def crcBit16 (crc : Nat) : Nat :=
  if crc ≥ 2 ^ 15 then ((crc * 2) % 2 ^ 16) ^^^ 0x1021 else crc * 2

/-- `n` bits of the CRC-16. -/
def crcBits16 : Nat → Nat → Nat
  | 0, crc => crc
  | k + 1, crc => crcBits16 k (crcBit16 crc)

/-- CRC-16 of bytes as the SPD5 layout defines it (03, R154): polynomial 0x1021, initial value 0 (PRESUMED, log entry 14). -/
def crc16 (bytes : List Nat) : Nat := bytes.foldl (fun c b => crcBits16 8 (c ^^^ (b * 256))) 0

end Sys2Proof.Machine
end

