-- ==== Sys2Proof/Machine/RegMap.lean ====
section
/-! DEFINITION. The map of the register space: the pages of Table 4.1 (04, R163), and for each page type the registers that
hold a value of their own, with class, writable bits, write-one-to-clear bits, reset value and place in a 64-bit pair, as the
function-register tables of the chapters give them. -/

namespace Sys2Proof.Machine

/-- A register, or an array of registers of one form, that holds a value of its own. -/
structure RegRow where
  /-- Offset in the page of the first register. -/
  off : Nat
  /-- Registers of the array. -/
  count : Nat
  /-- Distance between them in bytes. -/
  stride : Nat
  /-- Class: 0 none, 1 L, 2 S, 3 Q (00, Table 0.7). -/
  cls : Nat
  /-- Bits that a write sets (00, Table 0.6: RW, RS). -/
  wm : Nat
  /-- Bits that a write of one clears (00, Table 0.6: W1C). -/
  w1c : Nat
  /-- Reset value. -/
  rst : Nat
  /-- Place in a class L or Q pair: 0 none, 1 _LO, 2 _HI (04, R187). -/
  pair : Nat
  deriving DecidableEq, Repr

/-- A page type of Table 4.1 (04). -/
structure PageType where
  /-- Type code. -/
  ty : Nat
  /-- Number of the first page slot: Base divided by 0x1000. -/
  base : Nat
  /-- Page slots it takes. -/
  n : Nat
  /-- IRQ_BITS. -/
  irqBits : Nat
  /-- Reset value of IRQ_EN. -/
  irqEn : Nat
  deriving DecidableEq, Repr

/-- Table 4.1 (04, R163). -/
def pageTypes : List PageType :=
  [⟨0x1, 0x0, 1, 2, 0x1⟩, ⟨0x2, 0x1, 1, 1, 0x1⟩, ⟨0x3, 0x2, 1, 3, 0x5⟩, ⟨0x4, 0x3, 1, 3, 0x5⟩, ⟨0x5, 0x4, 1, 3, 0x1⟩, ⟨0x6, 0x5, 1, 6, 0x1d⟩, ⟨0x7, 0x6, 1, 3, 0x5⟩, ⟨0x8, 0x7, 1, 2, 0x1⟩]
  ++ [⟨0x9, 0x8, 1, 3, 0x1⟩, ⟨0xa, 0x10, 1, 4, 0x5⟩, ⟨0xb, 0x20, 16, 3, 0x5⟩, ⟨0xc, 0x30, 16, 3, 0x5⟩, ⟨0xd, 0x40, 16, 2, 0x1⟩, ⟨0xe, 0x50, 1, 3, 0x5⟩, ⟨0xf, 0x60, 32, 3, 0x1⟩, ⟨0x10, 0x80, 1, 3, 0x1⟩]
  ++ [⟨0x11, 0x81, 1, 2, 0x1⟩, ⟨0x12, 0x82, 1, 2, 0x1⟩, ⟨0x13, 0x90, 64, 2, 0x1⟩, ⟨0x14, 0xd0, 1, 6, 0x39⟩, ⟨0x15, 0xd1, 1, 5, 0x1d⟩, ⟨0x16, 0xe0, 1, 2, 0x1⟩, ⟨0x17, 0xe1, 1, 3, 0x5⟩, ⟨0x18, 0xf0, 1, 8, 0x9d⟩]
  ++ [⟨0x19, 0xf1, 1, 2, 0x1⟩, ⟨0x1a, 0xf2, 1, 5, 0x1d⟩, ⟨0x1b, 0x100, 1, 5, 0xd⟩, ⟨0x1c, 0x110, 1, 2, 0x1⟩, ⟨0x1d, 0x111, 1, 4, 0xd⟩, ⟨0x1e, 0x112, 1, 4, 0x5⟩, ⟨0x1f, 0x120, 1, 7, 0x6d⟩, ⟨0x20, 0x130, 1, 6, 0x39⟩]

/-- Registers of the GLB page that hold a value (Table 4.4). -/
def regRowsGlb : List RegRow :=
  [⟨0x120, 1, 0x4, 2, 0xffffffff, 0x0, 0x7ffd0040, 0⟩, ⟨0x124, 1, 0x4, 2, 0xffffffff, 0x0, 0x1, 0⟩, ⟨0x128, 1, 0x4, 2, 0xffffffff, 0x0, 0x0, 0⟩]
  ++ [⟨0x130, 1, 0x4, 1, 0xff, 0x0, 0x0, 0⟩]

/-- Registers of the STRAP page that hold a value (Table 4.6). -/
def regRowsStrap : List RegRow :=
  []

/-- Registers of the QSC page that hold a value (Table 4.7). -/
def regRowsQsc : List RegRow :=
  [⟨0x100, 1, 0x4, 1, 0x11, 0x0, 0x0, 0⟩]

/-- Registers of the SRST page that hold a value (Table 4.8). -/
def regRowsSrst : List RegRow :=
  []

/-- Registers of the SIC page that hold a value (Table 4.9). -/
def regRowsSic : List RegRow :=
  [⟨0x100, 1, 0x4, 3, 0xfff0fff, 0x0, 0x5dc0258, 0⟩, ⟨0x11c, 1, 0x4, 0, 0x1fff, 0x0, 0x0, 0⟩]

/-- Registers of the RAS page that hold a value (Table 16.11). -/
def regRowsRas : List RegRow :=
  [⟨0x100, 1, 0x4, 2, 0xff03, 0x0, 0x2, 0⟩, ⟨0x104, 1, 0x4, 2, 0xffff, 0x0, 0x40, 0⟩, ⟨0x10c, 1, 0x4, 0, 0x0, 0x1, 0x0, 0⟩]
  ++ [⟨0x150, 1, 0x4, 0, 0xff, 0x0, 0x0, 0⟩, ⟨0x168, 1, 0x4, 0, 0x1fff, 0x0, 0x0, 0⟩]

/-- Registers of the TRC page that hold a value (Table 17.8). -/
def regRowsTrc : List RegRow :=
  [⟨0x100, 1, 0x4, 1, 0x1, 0x0, 0x0, 0⟩, ⟨0x104, 1, 0x4, 1, 0xffffffff, 0x0, 0x7fe6e, 0⟩, ⟨0x108, 1, 0x4, 1, 0xfff, 0x0, 0x0, 0⟩]
  ++ [⟨0x10c, 1, 0x4, 1, 0xffff01ff, 0x0, 0x0, 0⟩, ⟨0x110, 1, 0x4, 3, 0xfffff000, 0x0, 0x0, 1⟩, ⟨0x114, 1, 0x4, 3, 0xfffff, 0x0, 0x0, 2⟩]
  ++ [⟨0x118, 1, 0x4, 3, 0x1f, 0x0, 0x10, 0⟩, ⟨0x11c, 1, 0x4, 3, 0xfffffff8, 0x0, 0x0, 1⟩, ⟨0x120, 1, 0x4, 3, 0xfffff, 0x0, 0x0, 2⟩]
  ++ [⟨0x128, 1, 0x4, 1, 0xffffffff, 0x0, 0x0, 0⟩]

/-- Registers of the PMU page that hold a value (Table 17.7). -/
def regRowsPmu : List RegRow :=
  [⟨0x100, 1, 0x4, 1, 0x1, 0x0, 0x0, 0⟩, ⟨0x108, 1, 0x4, 1, 0x1, 0x0, 0x0, 0⟩, ⟨0x110, 1, 0x4, 0, 0xff, 0x0, 0x0, 0⟩]
  ++ [⟨0xc00, 256, 0x4, 2, 0xfff80fff, 0x0, 0x0, 0⟩]

/-- Registers of the DBG page that hold a value (Table 17.9). -/
def regRowsDbg : List RegRow :=
  [⟨0x120, 4, 0x4, 1, 0x801f07ff, 0x0, 0x0, 0⟩, ⟨0x140, 1, 0x4, 0, 0x1f000f, 0x0, 0x0, 0⟩]

/-- Registers of the FE page that hold a value (Table 5.13). -/
def regRowsFe : List RegRow :=
  [⟨0x100, 1, 0x4, 1, 0x1, 0x0, 0x0, 0⟩, ⟨0x108, 1, 0x4, 3, 0xfffff000, 0x0, 0x0, 1⟩, ⟨0x10c, 1, 0x4, 3, 0xffffffff, 0x0, 0x0, 2⟩]
  ++ [⟨0x110, 1, 0x4, 3, 0x1f, 0x0, 0x6, 0⟩, ⟨0x118, 1, 0x4, 3, 0xfffff000, 0x0, 0x0, 1⟩, ⟨0x11c, 1, 0x4, 3, 0xffffffff, 0x0, 0x0, 2⟩]
  ++ [⟨0x120, 1, 0x4, 3, 0x1f, 0x0, 0x6, 0⟩, ⟨0x128, 1, 0x4, 3, 0xfffffff8, 0x0, 0x0, 1⟩, ⟨0x12c, 1, 0x4, 3, 0xffffffff, 0x0, 0x0, 2⟩]
  ++ [⟨0x130, 1, 0x4, 1, 0xffffffff, 0x0, 0x0, 0⟩, ⟨0x134, 1, 0x4, 3, 0xffffffff, 0x0, 0x0, 0⟩, ⟨0x138, 1, 0x4, 1, 0xffffffff, 0x0, 0x0, 0⟩]
  ++ [⟨0x13c, 1, 0x4, 3, 0xffffffff, 0x0, 0x0, 0⟩]

/-- Registers of the FEQ page that hold a value (Table 5.14). -/
def regRowsFeq : List RegRow :=
  [⟨0x100, 32, 0x40, 1, 0xffc0, 0x0, 0x0, 0⟩, ⟨0x104, 32, 0x40, 1, 0x3ffffff, 0x0, 0xc350, 0⟩, ⟨0x900, 1, 0x4, 0, 0x0, 0xffffffff, 0x0, 0⟩]

/-- Registers of the CTX page that hold a value (Table 6.12). -/
def regRowsCtx : List RegRow :=
  [⟨0x900, 1, 0x4, 0, 0x0, 0xffff, 0x0, 0⟩]

/-- Registers of the PART page that hold a value (Table 6.11). -/
def regRowsPart : List RegRow :=
  [⟨0x100, 1, 0x4, 3, 0x1, 0x0, 0x0, 0⟩, ⟨0x108, 1, 0x4, 3, 0xffe00000, 0x0, 0x0, 1⟩, ⟨0x10c, 1, 0x4, 3, 0xfffff, 0x0, 0x0, 2⟩]
  ++ [⟨0x110, 1, 0x4, 3, 0xffe00000, 0x0, 0x0, 1⟩, ⟨0x114, 1, 0x4, 3, 0xfffff, 0x0, 0x0, 2⟩, ⟨0x118, 1, 0x4, 3, 0xfffff000, 0x0, 0x0, 1⟩]
  ++ [⟨0x11c, 1, 0x4, 3, 0xfffff, 0x0, 0x0, 2⟩, ⟨0x120, 1, 0x4, 3, 0xfffff000, 0x0, 0x0, 1⟩, ⟨0x124, 1, 0x4, 3, 0xfffff, 0x0, 0x0, 2⟩]

/-- Registers of the OBJ page that hold a value (Table 6.13). -/
def regRowsObj : List RegRow :=
  [⟨0x100, 1, 0x4, 3, 0xffff0000, 0x0, 0x0, 1⟩, ⟨0x104, 1, 0x4, 3, 0xfffff, 0x0, 0x0, 2⟩, ⟨0x10c, 1, 0x4, 0, 0xffff, 0x0, 0x0, 0⟩]

/-- Registers of the SQ page that hold a value (Table 7.13). -/
def regRowsSq : List RegRow :=
  [⟨0x100, 1, 0x4, 1, 0x1f, 0x0, 0x14, 0⟩, ⟨0x110, 1, 0x4, 0, 0xf, 0x0, 0x0, 0⟩]

/-- Registers of the GS page that hold a value (Table 8.16). -/
def regRowsGs : List RegRow :=
  [⟨0x100, 1, 0x4, 2, 0xff, 0x0, 0x10, 0⟩, ⟨0x110, 1, 0x4, 0, 0xfff, 0x0, 0x0, 0⟩]

/-- Registers of the ISR page that hold a value (Table 8.17). -/
def regRowsIsr : List RegRow :=
  [⟨0x100, 1, 0x4, 3, 0xffff0000, 0x0, 0x0, 1⟩, ⟨0x104, 1, 0x4, 3, 0xfffff, 0x0, 0x0, 2⟩, ⟨0x114, 1, 0x4, 0, 0x3fff, 0x0, 0x0, 0⟩]

/-- Registers of the DE page that hold a value (Table 8.18). -/
def regRowsDe : List RegRow :=
  [⟨0x100, 1, 0x4, 2, 0x1, 0x0, 0x0, 0⟩]

/-- Registers of the DL page that hold a value (Table 8.19). -/
def regRowsDl : List RegRow :=
  [⟨0x100, 1, 0x4, 2, 0x103, 0x0, 0x102, 0⟩]

/-- Registers of the ST page that hold a value (Table 9.10). -/
def regRowsSt : List RegRow :=
  [⟨0x100, 1, 0x4, 1, 0xff03, 0x0, 0x0, 0⟩, ⟨0x104, 1, 0x4, 2, 0xffffffff, 0x0, 0xf4240, 0⟩, ⟨0x158, 1, 0x4, 0, 0xffff, 0x0, 0x0, 0⟩]
  ++ [⟨0x188, 1, 0x4, 0, 0x1ff, 0x0, 0x0, 0⟩]

/-- Registers of the LEHR page that hold a value (Table 9.12). -/
def regRowsLehr : List RegRow :=
  [⟨0x100, 1, 0x4, 2, 0xffffffff, 0x0, 0x7d0, 0⟩, ⟨0x104, 1, 0x4, 2, 0xffffffff, 0x0, 0x186a0, 0⟩, ⟨0x108, 1, 0x4, 2, 0xffffffff, 0x0, 0x2710, 0⟩]
  ++ [⟨0x10c, 1, 0x4, 2, 0xffffffff, 0x0, 0x10000100, 0⟩, ⟨0x110, 1, 0x4, 2, 0x1071, 0x0, 0x1, 0⟩, ⟨0x118, 1, 0x4, 2, 0xfffff000, 0x0, 0x0, 0⟩]
  ++ [⟨0x11c, 1, 0x4, 2, 0xfffff, 0x0, 0x0, 0⟩]

/-- Registers of the MF page that hold a value (Table 10.8). -/
def regRowsMf : List RegRow :=
  [⟨0x100, 1, 0x4, 2, 0x1, 0x0, 0x1, 0⟩, ⟨0x104, 1, 0x4, 0, 0xfff, 0x0, 0x0, 0⟩]

/-- Registers of the CRU page that hold a value (Table 10.9). -/
def regRowsCru : List RegRow :=
  [⟨0x100, 1, 0x4, 2, 0x1, 0x0, 0x0, 0⟩, ⟨0x104, 1, 0x4, 0, 0x3ff, 0x0, 0x0, 0⟩]

/-- Registers of the SCHED page that hold a value (Table 11.10). -/
def regRowsSched : List RegRow :=
  [⟨0x100, 1, 0x4, 2, 0x3f, 0x0, 0x37, 0⟩, ⟨0x104, 1, 0x4, 2, 0xffffffff, 0x0, 0x3e8, 0⟩, ⟨0x108, 1, 0x4, 2, 0xf, 0x0, 0x4, 0⟩]
  ++ [⟨0x10c, 1, 0x4, 2, 0xffffffff, 0x0, 0x96, 0⟩, ⟨0x110, 1, 0x4, 2, 0xffffffff, 0x0, 0x14, 0⟩, ⟨0x114, 1, 0x4, 2, 0xff, 0x0, 0xfe, 0⟩]
  ++ [⟨0x118, 1, 0x4, 2, 0xffff, 0x0, 0x200, 0⟩, ⟨0x120, 1, 0x4, 2, 0xffffffc0, 0x0, 0x0, 0⟩, ⟨0x124, 1, 0x4, 2, 0xfffff, 0x0, 0x0, 0⟩]
  ++ [⟨0x128, 1, 0x4, 2, 0xffffffc0, 0x0, 0x0, 0⟩, ⟨0x12c, 1, 0x4, 2, 0xfffff, 0x0, 0x0, 0⟩, ⟨0x130, 1, 0x4, 0, 0xff, 0x0, 0x0, 0⟩]
  ++ [⟨0x140, 1, 0x4, 0, 0x1ff, 0x0, 0x0, 0⟩, ⟨0x400, 64, 0x4, 2, 0xffffffff, 0x0, 0x1010101, 0⟩]

/-- Registers of the MARV page that hold a value (Table 11.11). -/
def regRowsMarv : List RegRow :=
  [⟨0x100, 1, 0x4, 2, 0x3, 0x0, 0x3, 0⟩, ⟨0x104, 1, 0x4, 2, 0x7f, 0x0, 0x20, 0⟩, ⟨0x108, 1, 0x4, 2, 0x7f7f, 0x0, 0x3808, 0⟩]
  ++ [⟨0x10c, 1, 0x4, 2, 0x7f, 0x0, 0x4, 0⟩, ⟨0x110, 1, 0x4, 2, 0xffffffff, 0x0, 0x64, 0⟩, ⟨0x114, 1, 0x4, 2, 0xffff, 0x0, 0x555a, 0⟩]
  ++ [⟨0x118, 1, 0x4, 2, 0xffff, 0x0, 0x40, 0⟩, ⟨0x11c, 1, 0x4, 2, 0xffff, 0x0, 0x10, 0⟩, ⟨0x120, 1, 0x4, 2, 0xffffff00, 0x0, 0x0, 0⟩]
  ++ [⟨0x124, 1, 0x4, 2, 0xfffff, 0x0, 0x0, 0⟩]

/-- Registers of the TU page that hold a value (Table 11.12). -/
def regRowsTu : List RegRow :=
  [⟨0x138, 1, 0x4, 0, 0x1f, 0x0, 0x0, 0⟩]

/-- Registers of the SHR page that hold a value (Table 12.16). -/
def regRowsShr : List RegRow :=
  [⟨0x100, 1, 0x4, 2, 0xf, 0x0, 0xe, 0⟩, ⟨0x104, 1, 0x4, 2, 0xffffffff, 0x0, 0xf4240, 0⟩, ⟨0x108, 1, 0x4, 2, 0xff07ffff, 0x0, 0x40020200, 0⟩]
  ++ [⟨0x10c, 1, 0x4, 2, 0xffffff, 0x0, 0xc8, 0⟩, ⟨0x110, 1, 0x4, 2, 0x1ff000f, 0x0, 0x100000, 0⟩, ⟨0x118, 1, 0x4, 2, 0xfffff000, 0x0, 0x0, 0⟩]
  ++ [⟨0x11c, 1, 0x4, 2, 0xfffff, 0x0, 0x0, 0⟩, ⟨0x120, 1, 0x4, 0, 0xf, 0x0, 0x0, 0⟩, ⟨0x154, 1, 0x4, 0, 0x1ff, 0x0, 0x0, 0⟩]

/-- Registers of the LKP page that hold a value (Table 13.7). -/
def regRowsLkp : List RegRow :=
  [⟨0x100, 1, 0x4, 2, 0x1, 0x0, 0x1, 0⟩, ⟨0x120, 1, 0x4, 0, 0x7f, 0x0, 0x0, 0⟩]

/-- Registers of the STRM page that hold a value (Table 13.8). -/
def regRowsStrm : List RegRow :=
  [⟨0x100, 1, 0x4, 3, 0xfffff000, 0x0, 0x0, 1⟩, ⟨0x104, 1, 0x4, 3, 0xfffff, 0x0, 0x0, 2⟩, ⟨0x108, 1, 0x4, 3, 0x1ffff, 0x0, 0x0, 0⟩]
  ++ [⟨0x10c, 1, 0x4, 2, 0xff, 0x0, 0x40, 0⟩, ⟨0x110, 1, 0x4, 2, 0xffffffff, 0x0, 0x400000, 0⟩, ⟨0x120, 1, 0x4, 0, 0xffff, 0x0, 0x0, 0⟩]

/-- Registers of the TBL page that hold a value (Table 13.10). -/
def regRowsTbl : List RegRow :=
  [⟨0x100, 1, 0x4, 2, 0xfffff000, 0x0, 0x0, 0⟩, ⟨0x104, 1, 0x4, 2, 0xfffff, 0x0, 0x0, 0⟩, ⟨0x120, 1, 0x4, 0, 0xffffffff, 0x0, 0x0, 0⟩]
  ++ [⟨0x124, 1, 0x4, 0, 0xffffffff, 0x0, 0x0, 0⟩]

/-- Registers of the PP page that hold a value (Table 14.9). -/
def regRowsPp : List RegRow :=
  [⟨0x100, 1, 0x4, 2, 0x13f, 0x0, 0x0, 0⟩, ⟨0x108, 1, 0x4, 2, 0xffffffff, 0x0, 0x0, 0⟩, ⟨0x10c, 1, 0x4, 2, 0xffffffff, 0x0, 0x0, 0⟩]
  ++ [⟨0x110, 1, 0x4, 2, 0xfff00ff, 0x0, 0x408000c, 0⟩, ⟨0x114, 1, 0x4, 2, 0xffffffff, 0x0, 0x32, 0⟩, ⟨0x118, 1, 0x4, 2, 0xf, 0x0, 0x2, 0⟩]
  ++ [⟨0x11c, 1, 0x4, 2, 0xffffffff, 0x0, 0x64, 0⟩, ⟨0x138, 1, 0x4, 0, 0x0, 0xffffffff, 0x0, 0⟩, ⟨0x13c, 1, 0x4, 0, 0x0, 0xffffffff, 0x0, 0⟩]
  ++ [⟨0x150, 1, 0x4, 0, 0x3f, 0x0, 0x0, 0⟩]

/-- Registers of the DET page that hold a value (Table 15.5). -/
def regRowsDet : List RegRow :=
  [⟨0x100, 1, 0x4, 3, 0x1, 0x0, 0x0, 0⟩, ⟨0x104, 1, 0x4, 2, 0x1, 0x0, 0x1, 0⟩, ⟨0x108, 1, 0x4, 2, 0xffff, 0x0, 0x800, 0⟩]
  ++ [⟨0x10c, 1, 0x4, 2, 0xffffffff, 0x0, 0x3e8, 0⟩, ⟨0x110, 1, 0x4, 0, 0x80003f3f, 0x0, 0x0, 0⟩]

/-- Registers that hold a value, by page type. -/
def regRows : Nat → List RegRow
  | 0x1 => regRowsGlb
  | 0x2 => regRowsStrap
  | 0x3 => regRowsQsc
  | 0x4 => regRowsSrst
  | 0x5 => regRowsSic
  | 0x6 => regRowsRas
  | 0x7 => regRowsTrc
  | 0x8 => regRowsPmu
  | 0x9 => regRowsDbg
  | 0xa => regRowsFe
  | 0xb => regRowsFeq
  | 0xc => regRowsCtx
  | 0xd => regRowsPart
  | 0xe => regRowsObj
  | 0xf => regRowsSq
  | 0x10 => regRowsGs
  | 0x11 => regRowsIsr
  | 0x12 => regRowsDe
  | 0x13 => regRowsDl
  | 0x14 => regRowsSt
  | 0x15 => regRowsLehr
  | 0x16 => regRowsMf
  | 0x17 => regRowsCru
  | 0x18 => regRowsSched
  | 0x19 => regRowsMarv
  | 0x1a => regRowsTu
  | 0x1b => regRowsShr
  | 0x1c => regRowsLkp
  | 0x1d => regRowsStrm
  | 0x1e => regRowsTbl
  | 0x1f => regRowsPp
  | 0x20 => regRowsDet
  | _ => []

/-- The _LO registers of 64-bit pairs, by page type: first offset, count and distance (04, R184). -/
def loOffs : Nat → List (Nat × Nat × Nat)
  | 0x1 => [(0x110, 1, 0x4), (0x120, 1, 0x4), (0x138, 1, 0x4)]
  | 0x4 => [(0x110, 1, 0x4)]
  | 0x6 => [(0x110, 7, 0x8), (0x158, 1, 0x4), (0x160, 1, 0x4), (0x310, 1, 0x4), (0x318, 1, 0x4)]
  | 0x7 => [(0x110, 1, 0x4), (0x11c, 1, 0x4), (0x138, 4, 0x8)]
  | 0x8 => [(0x118, 4, 0x8), (0x400, 256, 0x8)]
  | 0x9 => [(0x148, 1, 0x4)]
  | 0xa => [(0x108, 1, 0x4), (0x118, 1, 0x4), (0x128, 1, 0x4), (0x140, 1, 0x4), (0x148, 1, 0x4), (0x150, 1, 0x4)]
  | 0xb => [(0x110, 32, 0x40), (0x118, 32, 0x40)]
  | 0xc => [(0x108, 16, 0x80), (0x110, 16, 0x80), (0x128, 16, 0x80), (0x130, 16, 0x80), (0x138, 16, 0x80)]
  | 0xd => [(0x108, 1, 0x4), (0x110, 1, 0x4), (0x118, 1, 0x4), (0x120, 1, 0x4), (0x128, 1, 0x4)]
  | 0xe => [(0x100, 1, 0x4), (0x118, 1, 0x4), (0x120, 1, 0x4), (0x138, 1, 0x4)]
  | 0xf => [(0x118, 1, 0x4), (0x128, 1, 0x4), (0x130, 1, 0x4), (0x138, 1, 0x4), (0x140, 1, 0x4), (0x148, 1, 0x4)]
  | 0x10 => [(0x120, 1, 0x4), (0x128, 1, 0x4)]
  | 0x11 => [(0x100, 1, 0x4), (0x128, 1, 0x4), (0x130, 1, 0x4)]
  | 0x12 => [(0x108, 1, 0x4), (0x110, 1, 0x4), (0x118, 1, 0x4), (0x120, 1, 0x4), (0x128, 1, 0x4)]
  | 0x13 => [(0x110, 1, 0x4), (0x118, 1, 0x4), (0x120, 1, 0x4), (0x128, 1, 0x4)]
  | 0x14 => [(0x118, 1, 0x4), (0x120, 1, 0x4), (0x128, 1, 0x4), (0x130, 1, 0x4), (0x138, 1, 0x4), (0x148, 1, 0x4),
      (0x150, 1, 0x4), (0x160, 1, 0x4), (0x168, 1, 0x4), (0x178, 1, 0x4), (0x190, 1, 0x4), (0x198, 1, 0x4), (0x1a0, 1, 0x4), (0x1a8, 1, 0x4), (0x1b8, 1, 0x4)]
  | 0x15 => [(0x118, 1, 0x4), (0x128, 1, 0x4), (0x130, 1, 0x4), (0x138, 1, 0x4), (0x140, 1, 0x4), (0x148, 1, 0x4)]
  | 0x16 => [(0x11c, 1, 0x4), (0x128, 1, 0x4), (0x130, 1, 0x4), (0x140, 1, 0x4), (0x148, 1, 0x4)]
  | 0x17 => [(0x128, 1, 0x4), (0x130, 1, 0x4), (0x138, 1, 0x4), (0x140, 1, 0x4), (0x148, 1, 0x4), (0x150, 1, 0x4)]
  | 0x18 => [(0x120, 1, 0x4), (0x128, 1, 0x4), (0x138, 1, 0x4), (0x150, 8, 0x8), (0x310, 1, 0x4), (0x318, 1, 0x4)]
  | 0x19 => [(0x120, 1, 0x4), (0x130, 4, 0x8)]
  | 0x1a => [(0x100, 1, 0x4), (0x110, 2, 0x8), (0x120, 1, 0x4), (0x128, 2, 0x8), (0x140, 1, 0x4)]
  | 0x1b => [(0x118, 1, 0x4), (0x128, 1, 0x4), (0x130, 1, 0x4), (0x138, 1, 0x4), (0x160, 9, 0x8)]
  | 0x1c => [(0x108, 3, 0x8), (0x124, 1, 0x4)]
  | 0x1d => [(0x100, 1, 0x4), (0x118, 1, 0x4), (0x128, 4, 0x8), (0x150, 4, 0x8)]
  | 0x1e => [(0x100, 1, 0x4), (0x120, 1, 0x4), (0x128, 1, 0x4), (0x130, 2, 0x8)]
  | 0x1f => [(0x108, 1, 0x4), (0x128, 1, 0x4), (0x130, 1, 0x4), (0x138, 1, 0x4), (0x140, 1, 0x4), (0x168, 1, 0x4),
      (0x180, 12, 0x8), (0x1e8, 1, 0x4), (0x200, 1, 0x4)]
  | 0x20 => [(0x120, 5, 0x8), (0x150, 1, 0x4), (0x160, 1, 0x4), (0x168, 1, 0x4)]
  | _ => []

end Sys2Proof.Machine
end

