-- ==== Sys2Proof/Machine/Fields.lean ====
section
/-! DEFINITION. The named fields of the registers that hold a value, read from the register space: configuration fields as
their active copy (04, R178), view selectors and the like as written.  Each is taken from the table its comment names. -/

namespace Sys2Proof.Machine

/-- The value that a register holds: its listed value, or its reset value (04, "Register Space and Page Convention"). -/
def regGet (c : Core) (addr rst : Nat) : Reg := tget c.rs.regs (r32 rst) addr

/-- GLB CFG_GEN (04, Table 4.4). -/
def regGlbCfgGen (c : Core) : Nat := rf (regGet c 0x128 0x0) 0 32

/-- GLB EVT_VEC (04, Table 4.4). -/
def regGlbEvtVec (c : Core) : Nat := rf (regGet c 0x130 0x0) 0 8

/-- GLB DIGEST_TYPE_MASK pair (04, Table 4.4). -/
def regGlbDigestTypeMask (c : Core) : Nat := (regGet c (0x120) 0x7ffd0040).toNat + 2 ^ 32 * (regGet c (0x124) 0x1).toNat

/-- QSC QUIESCE.MODE (04, Table 4.7). -/
def regQscQuiesceMode (c : Core) : Bool := rbit (regGet c 0x2100 0x0) 4

/-- QSC QUIESCE.REQ (04, Table 4.7). -/
def regQscQuiesceReq (c : Core) : Bool := rbit (regGet c 0x2100 0x0) 0

/-- SIC I3C_CLK.OD_HALF (04, Table 4.9). -/
def regSicI3cClkOdHalf (c : Core) : Nat := rf (regGet c 0x4100 0x5dc0258) 16 12

/-- SIC I3C_CLK.PP_HALF (04, Table 4.9). -/
def regSicI3cClkPpHalf (c : Core) : Nat := rf (regGet c 0x4100 0x5dc0258) 0 12

/-- SIC ENG_SEL.ID (04, Table 4.9). -/
def regSicEngSelId (c : Core) : Nat := rf (regGet c 0x411c 0x0) 0 13

/-- RAS RAS_CFG.ENG_LIMIT (16, Table 16.11). -/
def regRasCfgEngLimit (c : Core) : Nat := rf (regGet c 0x5100 0x2) 8 8

/-- RAS RAS_CFG.SCRUB_EN (16, Table 16.11). -/
def regRasCfgScrubEn (c : Core) : Bool := rbit (regGet c 0x5100 0x2) 1

/-- RAS RAS_CFG.CE_LOG (16, Table 16.11). -/
def regRasCfgCeLog (c : Core) : Bool := rbit (regGet c 0x5100 0x2) 0

/-- RAS SCRUB_GAP (16, Table 16.11). -/
def regRasScrubGap (c : Core) : Nat := rf (regGet c 0x5104 0x40) 0 16

/-- RAS ALERT.UE (16, Table 16.11). -/
def regRasAlertUe (c : Core) : Bool := rbit (regGet c 0x510c 0x0) 0

/-- RAS CNT_SEL.SOURCE (16, Table 16.11). -/
def regRasCntSelSource (c : Core) : Nat := rf (regGet c 0x5150 0x0) 0 8

/-- RAS ENG_SEL.ID (16, Table 16.11). -/
def regRasEngSelId (c : Core) : Nat := rf (regGet c 0x5168 0x0) 0 13

/-- TRC TRC_CTRL.EN (17, Table 17.8). -/
def regTrcCtrlEn (c : Core) : Bool := rbit (regGet c 0x6100 0x0) 0

/-- TRC TRC_KINDS (17, Table 17.8). -/
def regTrcKinds (c : Core) : Nat := rf (regGet c 0x6104 0x7fe6e) 0 32

/-- TRC TRC_FILT.FKIND (17, Table 17.8). -/
def regTrcFiltFkind (c : Core) : Nat := rf (regGet c 0x6108 0x0) 9 3

/-- TRC TRC_FILT.FVAL (17, Table 17.8). -/
def regTrcFiltFval (c : Core) : Nat := rf (regGet c 0x6108 0x0) 0 9

/-- TRC TRC_STOP.POST (17, Table 17.8). -/
def regTrcStopPost (c : Core) : Nat := rf (regGet c 0x610c 0x0) 16 16

/-- TRC TRC_STOP.ARM (17, Table 17.8). -/
def regTrcStopArm (c : Core) : Bool := rbit (regGet c 0x610c 0x0) 8

/-- TRC TRC_STOP.KIND (17, Table 17.8). -/
def regTrcStopKind (c : Core) : Nat := rf (regGet c 0x610c 0x0) 0 8

/-- TRC TRC_SIZE.LOG2 (17, Table 17.8). -/
def regTrcSizeLog2 (c : Core) : Nat := rf (regGet c 0x6118 0x10) 0 5

/-- TRC TRC_RPTR (17, Table 17.8). -/
def regTrcRptr (c : Core) : Nat := rf (regGet c 0x6128 0x0) 0 32

/-- TRC TRC_BASE pair (17, Table 17.8). -/
def regTrcBase (c : Core) : Nat := (regGet c (0x6110) 0x0).toNat + 2 ^ 32 * (regGet c (0x6114) 0x0).toNat

/-- TRC TRC_WB pair (17, Table 17.8). -/
def regTrcWb (c : Core) : Nat := (regGet c (0x611c) 0x0).toNat + 2 ^ 32 * (regGet c (0x6120) 0x0).toNat

/-- PMU PMU_CTRL.FREEZE (17, Table 17.7). -/
def regPmuCtrlFreeze (c : Core) : Bool := rbit (regGet c 0x7100 0x0) 0

/-- PMU PMU_VIEW.SNAP (17, Table 17.7). -/
def regPmuViewSnap (c : Core) : Bool := rbit (regGet c 0x7108 0x0) 0

/-- PMU UQ_SEL.CTX (17, Table 17.7). -/
def regPmuUqSelCtx (c : Core) : Nat := rf (regGet c 0x7110 0x0) 0 8

/-- PMU EVSEL_n.EN (17, Table 17.7). -/
def regPmuEvselEn (c : Core) (i : Nat) : Bool := rbit (regGet c (0x7c00 + 0x4 * i) 0x0) 31

/-- PMU EVSEL_n.FKIND (17, Table 17.7). -/
def regPmuEvselFkind (c : Core) (i : Nat) : Nat := rf (regGet c (0x7c00 + 0x4 * i) 0x0) 28 3

/-- PMU EVSEL_n.FVAL (17, Table 17.7). -/
def regPmuEvselFval (c : Core) (i : Nat) : Nat := rf (regGet c (0x7c00 + 0x4 * i) 0x0) 19 9

/-- PMU EVSEL_n.EVENT (17, Table 17.7). -/
def regPmuEvselEvent (c : Core) (i : Nat) : Nat := rf (regGet c (0x7c00 + 0x4 * i) 0x0) 0 12

/-- DBG BP_n.EN (17, Table 17.9). -/
def regDbgBpEn (c : Core) (i : Nat) : Bool := rbit (regGet c (0x8120 + 0x4 * i) 0x0) 31

/-- DBG BP_n.SQ (17, Table 17.9). -/
def regDbgBpSq (c : Core) (i : Nat) : Nat := rf (regGet c (0x8120 + 0x4 * i) 0x0) 16 5

/-- DBG BP_n.PC (17, Table 17.9). -/
def regDbgBpPc (c : Core) (i : Nat) : Nat := rf (regGet c (0x8120 + 0x4 * i) 0x0) 0 11

/-- DBG SHAPE_WR_SEL.SQ (17, Table 17.9). -/
def regDbgShapeWrSelSq (c : Core) : Nat := rf (regGet c 0x8140 0x0) 16 5

/-- DBG SHAPE_WR_SEL.REG (17, Table 17.9). -/
def regDbgShapeWrSelReg (c : Core) : Nat := rf (regGet c 0x8140 0x0) 0 4

/-- FE FE_CTRL.EN (05, Table 5.13). -/
def regFeCtrlEn (c : Core) : Bool := rbit (regGet c 0x10100 0x0) 0

/-- FE RING_SIZE.LOG2 (05, Table 5.13). -/
def regFeRingSizeLog2 (c : Core) : Nat := rf (regGet c 0x10110 0x6) 0 5

/-- FE RESP_SIZE.LOG2 (05, Table 5.13). -/
def regFeRespSizeLog2 (c : Core) : Nat := rf (regGet c 0x10120 0x6) 0 5

/-- FE RING_TAIL (05, Table 5.13). -/
def regFeRingTail (c : Core) : Nat := rf (regGet c 0x10130 0x0) 0 32

/-- FE RING_HEAD (05, Table 5.13). -/
def regFeRingHead (c : Core) : Nat := rf (regGet c 0x10134 0x0) 0 32

/-- FE RESP_HEAD (05, Table 5.13). -/
def regFeRespHead (c : Core) : Nat := rf (regGet c 0x10138 0x0) 0 32

/-- FE RESP_TAIL (05, Table 5.13). -/
def regFeRespTail (c : Core) : Nat := rf (regGet c 0x1013c 0x0) 0 32

/-- FE RING_BASE pair (05, Table 5.13). -/
def regFeRingBase (c : Core) : Nat := (regGet c (0x10108) 0x0).toNat + 2 ^ 32 * (regGet c (0x1010c) 0x0).toNat

/-- FE RESP_BASE pair (05, Table 5.13). -/
def regFeRespBase (c : Core) : Nat := (regGet c (0x10118) 0x0).toNat + 2 ^ 32 * (regGet c (0x1011c) 0x0).toNat

/-- FE HEAD_WB pair (05, Table 5.13). -/
def regFeHeadWb (c : Core) : Nat := (regGet c (0x10128) 0x0).toNat + 2 ^ 32 * (regGet c (0x1012c) 0x0).toNat

/-- FEQ Q_CFG.VECTOR (05, Table 5.14). -/
def regFeqQCfgVector (c : Core) (page : Nat) (i : Nat) : Nat := rf (regGet c (0x20100 + 0x1000 * page + 0x40 * i) 0x0) 8 8

/-- FEQ Q_CFG.INT_EN (05, Table 5.14). -/
def regFeqQCfgIntEn (c : Core) (page : Nat) (i : Nat) : Bool := rbit (regGet c (0x20100 + 0x1000 * page + 0x40 * i) 0x0) 7

/-- FEQ Q_CFG.POLICY (05, Table 5.14). -/
def regFeqQCfgPolicy (c : Core) (page : Nat) (i : Nat) : Bool := rbit (regGet c (0x20100 + 0x1000 * page + 0x40 * i) 0x0) 6

/-- FEQ Q_TIMEOUT.US (05, Table 5.14). -/
def regFeqQTimeoutUs (c : Core) (page : Nat) (i : Nat) : Nat :=
  rf (regGet c (0x20104 + 0x1000 * page + 0x40 * i) 0xc350) 0 26

/-- FEQ GUILTY_MAP (05, Table 5.14). -/
def regFeqGuiltyMap (c : Core) (page : Nat) : Nat := rf (regGet c (0x20900 + 0x1000 * page) 0x0) 0 32

/-- CTX DEAD_MAP (06, Table 6.12). -/
def regCtxDeadMap (c : Core) (page : Nat) : Nat := rf (regGet c (0x30900 + 0x1000 * page) 0x0) 0 16

/-- PART PART_CTRL.EN (06, Table 6.11). -/
def regPartCtrlEn (c : Core) (page : Nat) : Bool := rbit (regGet c (0x40100 + 0x1000 * page) 0x0) 0

/-- PART CARVE_BASE pair (06, Table 6.11). -/
def regPartCarveBase (c : Core) (page : Nat) : Nat :=
  (regGet c (0x40108 + 0x1000 * page) 0x0).toNat + 2 ^ 32 * (regGet c (0x4010c + 0x1000 * page) 0x0).toNat

/-- PART CARVE_SIZE pair (06, Table 6.11). -/
def regPartCarveSize (c : Core) (page : Nat) : Nat :=
  (regGet c (0x40110 + 0x1000 * page) 0x0).toNat + 2 ^ 32 * (regGet c (0x40114 + 0x1000 * page) 0x0).toNat

/-- PART SAVE_OFF pair (06, Table 6.11). -/
def regPartSaveOff (c : Core) (page : Nat) : Nat :=
  (regGet c (0x40118 + 0x1000 * page) 0x0).toNat + 2 ^ 32 * (regGet c (0x4011c + 0x1000 * page) 0x0).toNat

/-- PART SAVE_SIZE pair (06, Table 6.11). -/
def regPartSaveSize (c : Core) (page : Nat) : Nat :=
  (regGet c (0x40120 + 0x1000 * page) 0x0).toNat + 2 ^ 32 * (regGet c (0x40124 + 0x1000 * page) 0x0).toNat

/-- OBJ OBJ_SEL.HANDLE (06, Table 6.13). -/
def regObjSelHandle (c : Core) : Nat := rf (regGet c 0x5010c 0x0) 0 16

/-- OBJ OT_BASE pair (06, Table 6.13). -/
def regObjOtBase (c : Core) : Nat := (regGet c (0x50100) 0x0).toNat + 2 ^ 32 * (regGet c (0x50104) 0x0).toNat

/-- SQ SQ_CTRL.STEP_LOG2 (07, Table 7.13). -/
def regSqCtrlStepLog2 (c : Core) (page : Nat) : Nat := rf (regGet c (0x60100 + 0x1000 * page) 0x14) 0 5

/-- SQ SHAPE_SEL.REG (07, Table 7.13). -/
def regSqShapeSelReg (c : Core) (page : Nat) : Nat := rf (regGet c (0x60110 + 0x1000 * page) 0x0) 0 4

/-- GS GS_CFG.VERSION_LIMIT (08, Table 8.16). -/
def regGsCfgVersionLimit (c : Core) : Nat := rf (regGet c 0x80100 0x10) 0 8

/-- GS IMG_SEL.GRAPH (08, Table 8.16). -/
def regGsImgSelGraph (c : Core) : Nat := rf (regGet c 0x80110 0x0) 0 12

/-- ISR INST_SEL.ID (08, Table 8.17). -/
def regIsrInstSelId (c : Core) : Nat := rf (regGet c 0x81114 0x0) 0 14

/-- ISR PATCH_HOME pair (08, Table 8.17). -/
def regIsrPatchHome (c : Core) : Nat := (regGet c (0x81100) 0x0).toNat + 2 ^ 32 * (regGet c (0x81104) 0x0).toNat

/-- DE DE_CFG.PLACE (08, Table 8.18). -/
def regDeCfgPlace (c : Core) : Bool := rbit (regGet c 0x82100 0x0) 0

/-- DL DL_CFG.STEAL_EN (08, Table 8.19). -/
def regDlCfgStealEn (c : Core) (page : Nat) : Bool := rbit (regGet c (0x90100 + 0x1000 * page) 0x102) 8

/-- DL DL_CFG.DEPTH (08, Table 8.19). -/
def regDlCfgDepth (c : Core) (page : Nat) : Nat := rf (regGet c (0x90100 + 0x1000 * page) 0x102) 0 2

/-- ST ST_CTRL.COOKIE_VEC (09, Table 9.10). -/
def regStCtrlCookieVec (c : Core) : Nat := rf (regGet c 0xd0100 0x0) 8 8

/-- ST ST_CTRL.COOKIE_IRQ (09, Table 9.10). -/
def regStCtrlCookieIrq (c : Core) : Bool := rbit (regGet c 0xd0100 0x0) 1

/-- ST ST_CTRL.TASK_SYNC_CHECK (09, Table 9.10). -/
def regStCtrlTaskSyncCheck (c : Core) : Bool := rbit (regGet c 0xd0100 0x0) 0

/-- ST REALIGN_PERIOD (09, Table 9.10). -/
def regStRealignPeriod (c : Core) : Nat := rf (regGet c 0xd0104 0xf4240) 0 32

/-- ST DBG_SEL.HANDLE (09, Table 9.10). -/
def regStDbgSelHandle (c : Core) : Nat := rf (regGet c 0xd0158 0x0) 0 16

/-- ST BAL_SEL.QUEUE (09, Table 9.10). -/
def regStBalSelQueue (c : Core) : Nat := rf (regGet c 0xd0188 0x0) 0 9

/-- LEHR LEHR_WIN (09, Table 9.12). -/
def regLehrWin (c : Core) : Nat := rf (regGet c 0xd1100 0x7d0) 0 32

/-- LEHR ESC_WIN (09, Table 9.12). -/
def regLehrEscWin (c : Core) : Nat := rf (regGet c 0xd1104 0x186a0) 0 32

/-- LEHR ABORT_WIN (09, Table 9.12). -/
def regLehrAbortWin (c : Core) : Nat := rf (regGet c 0xd1108 0x2710) 0 32

/-- LEHR LEHR_LIM.NACK_LIMIT (09, Table 9.12). -/
def regLehrLimNackLimit (c : Core) : Nat := rf (regGet c 0xd110c 0x10000100) 16 16

/-- LEHR LEHR_LIM.RETRY_LIMIT (09, Table 9.12). -/
def regLehrLimRetryLimit (c : Core) : Nat := rf (regGet c 0xd110c 0x10000100) 0 16

/-- LEHR LEHR_CTRL.ESC_RESET (09, Table 9.12). -/
def regLehrCtrlEscReset (c : Core) : Bool := rbit (regGet c 0xd1110 0x1) 12

/-- LEHR LEHR_CTRL.ESC_MASK (09, Table 9.12). -/
def regLehrCtrlEscMask (c : Core) : Nat := rf (regGet c 0xd1110 0x1) 4 3

/-- LEHR LEHR_CTRL.EN (09, Table 9.12). -/
def regLehrCtrlEn (c : Core) : Bool := rbit (regGet c 0xd1110 0x1) 0

/-- LEHR DUMP_BASE pair (09, Table 9.12). -/
def regLehrDumpBase (c : Core) : Nat := (regGet c (0xd1118) 0x0).toNat + 2 ^ 32 * (regGet c (0xd111c) 0x0).toNat

/-- MF MF_CFG.REMOTE_EN (10, Table 10.8). -/
def regMfCfgRemoteEn (c : Core) : Bool := rbit (regGet c 0xe0100 0x1) 0

/-- MF RXQ_SEL.RXQ (10, Table 10.8). -/
def regMfRxqSelRxq (c : Core) : Nat := rf (regGet c 0xe0104 0x0) 0 12

/-- CRU CRU_CFG.FORCE_ORDER (10, Table 10.9). -/
def regCruCfgForceOrder (c : Core) : Bool := rbit (regGet c 0xe1100 0x0) 0

/-- CRU CQ_SEL.CQ (10, Table 10.9). -/
def regCruCqSelCq (c : Core) : Nat := rf (regGet c 0xe1104 0x0) 0 10

/-- SCHED SCHED_CTRL.INHERIT_EN (11, Table 11.10). -/
def regSchedCtrlInheritEn (c : Core) : Bool := rbit (regGet c 0xf0100 0x37) 5

/-- SCHED SCHED_CTRL.PREEMPT_EN (11, Table 11.10). -/
def regSchedCtrlPreemptEn (c : Core) : Bool := rbit (regGet c 0xf0100 0x37) 4

/-- SCHED SCHED_CTRL.MISS_ACT (11, Table 11.10). -/
def regSchedCtrlMissAct (c : Core) : Bool := rbit (regGet c 0xf0100 0x37) 3

/-- SCHED SCHED_CTRL.LATE_ACT (11, Table 11.10). -/
def regSchedCtrlLateAct (c : Core) : Bool := rbit (regGet c 0xf0100 0x37) 2

/-- SCHED SCHED_CTRL.LATE_EN (11, Table 11.10). -/
def regSchedCtrlLateEn (c : Core) : Bool := rbit (regGet c 0xf0100 0x37) 1

/-- SCHED SCHED_CTRL.SHARE_EN (11, Table 11.10). -/
def regSchedCtrlShareEn (c : Core) : Bool := rbit (regGet c 0xf0100 0x37) 0

/-- SCHED PERIOD_US (11, Table 11.10). -/
def regSchedPeriodUs (c : Core) : Nat := rf (regGet c 0xf0104 0x3e8) 0 32

/-- SCHED DEF_CAP.PERIODS (11, Table 11.10). -/
def regSchedDefCapPeriods (c : Core) : Nat := rf (regGet c 0xf0108 0x4) 0 4

/-- SCHED POINT_LIMIT_US (11, Table 11.10). -/
def regSchedPointLimitUs (c : Core) : Nat := rf (regGet c 0xf010c 0x96) 0 32

/-- SCHED PREEMPT_WAIT_US (11, Table 11.10). -/
def regSchedPreemptWaitUs (c : Core) : Nat := rf (regGet c 0xf0110 0x14) 0 32

/-- SCHED VICTIM_MASK (11, Table 11.10). -/
def regSchedVictimMask (c : Core) : Nat := rf (regGet c 0xf0114 0xfe) 0 8

/-- SCHED SLOW_THRESH (11, Table 11.10). -/
def regSchedSlowThresh (c : Core) : Nat := rf (regGet c 0xf0118 0x200) 0 16

/-- SCHED CTX_SEL.CTX (11, Table 11.10). -/
def regSchedCtxSelCtx (c : Core) : Nat := rf (regGet c 0xf0130 0x0) 0 8

/-- SCHED Q_SEL.QUEUE (11, Table 11.10). -/
def regSchedQSelQueue (c : Core) : Nat := rf (regGet c 0xf0140 0x0) 0 9

/-- SCHED WEIGHT_n (11, Table 11.10). -/
def regSchedWeight (c : Core) (i : Nat) : Nat := rf (regGet c (0xf0400 + 0x4 * i) 0x1010101) 0 32

/-- SCHED FULL_SAVE pair (11, Table 11.10). -/
def regSchedFullSave (c : Core) : Nat := (regGet c (0xf0120) 0x0).toNat + 2 ^ 32 * (regGet c (0xf0124) 0x0).toNat

/-- SCHED FULL_REST pair (11, Table 11.10). -/
def regSchedFullRest (c : Core) : Nat := (regGet c (0xf0128) 0x0).toNat + 2 ^ 32 * (regGet c (0xf012c) 0x0).toNat

/-- MARV MARV_CTRL.BUBBLE_EN (11, Table 11.11). -/
def regMarvCtrlBubbleEn (c : Core) : Bool := rbit (regGet c 0xf1100 0x3) 1

/-- MARV MARV_CTRL.ADAPT_EN (11, Table 11.11). -/
def regMarvCtrlAdaptEn (c : Core) : Bool := rbit (regGet c 0xf1100 0x3) 0

/-- MARV PHI_INIT (11, Table 11.11). -/
def regMarvPhiInit (c : Core) : Nat := rf (regGet c 0xf1104 0x20) 0 7

/-- MARV PHI_LIM.MAX (11, Table 11.11). -/
def regMarvPhiLimMax (c : Core) : Nat := rf (regGet c 0xf1108 0x3808) 8 7

/-- MARV PHI_LIM.MIN (11, Table 11.11). -/
def regMarvPhiLimMin (c : Core) : Nat := rf (regGet c 0xf1108 0x3808) 0 7

/-- MARV PHI_STEP (11, Table 11.11). -/
def regMarvPhiStep (c : Core) : Nat := rf (regGet c 0xf110c 0x4) 0 7

/-- MARV ADAPT_US (11, Table 11.11). -/
def regMarvAdaptUs (c : Core) : Nat := rf (regGet c 0xf1110 0x64) 0 32

/-- MARV UTIL_HIGH.HBM (11, Table 11.11). -/
def regMarvUtilHighHbm (c : Core) : Nat := rf (regGet c 0xf1114 0x555a) 8 8

/-- MARV UTIL_HIGH.ARRAY (11, Table 11.11). -/
def regMarvUtilHighArray (c : Core) : Nat := rf (regGet c 0xf1114 0x555a) 0 8

/-- MARV TARGET_CHUNKS (11, Table 11.11). -/
def regMarvTargetChunks (c : Core) : Nat := rf (regGet c 0xf1118 0x40) 0 16

/-- MARV INFLIGHT (11, Table 11.11). -/
def regMarvInflight (c : Core) : Nat := rf (regGet c 0xf111c 0x10) 0 16

/-- MARV HBM_UTIL pair (11, Table 11.11). -/
def regMarvHbmUtil (c : Core) : Nat := (regGet c (0xf1120) 0x0).toNat + 2 ^ 32 * (regGet c (0xf1124) 0x0).toNat

/-- TU ALARM_SEL.CMP (11, Table 11.12). -/
def regTuAlarmSelCmp (c : Core) : Nat := rf (regGet c 0xf2138 0x0) 0 5

/-- SHR SHR_CTRL.POP_EN (12, Table 12.16). -/
def regShrCtrlPopEn (c : Core) : Bool := rbit (regGet c 0x100100 0xe) 3

/-- SHR SHR_CTRL.REVISE_EN (12, Table 12.16). -/
def regShrCtrlReviseEn (c : Core) : Bool := rbit (regGet c 0x100100 0xe) 2

/-- SHR SHR_CTRL.PLACE_AUTO (12, Table 12.16). -/
def regShrCtrlPlaceAuto (c : Core) : Bool := rbit (regGet c 0x100100 0xe) 1

/-- SHR SHR_CTRL.STABLE (12, Table 12.16). -/
def regShrCtrlStable (c : Core) : Bool := rbit (regGet c 0x100100 0xe) 0

/-- SHR PLACE_EPOCH_US (12, Table 12.16). -/
def regShrPlaceEpochUs (c : Core) : Nat := rf (regGet c 0x100104 0xf4240) 0 32

/-- SHR REV_CFG.BUDGET (12, Table 12.16). -/
def regShrRevCfgBudget (c : Core) : Nat := rf (regGet c 0x100108 0x40020200) 24 8

/-- SHR REV_CFG.REPL_MAX (12, Table 12.16). -/
def regShrRevCfgReplMax (c : Core) : Nat := rf (regGet c 0x100108 0x40020200) 16 3

/-- SHR REV_CFG.HOT_Q (12, Table 12.16). -/
def regShrRevCfgHotQ (c : Core) : Nat := rf (regGet c 0x100108 0x40020200) 0 16

/-- SHR AGREE_US (12, Table 12.16). -/
def regShrAgreeUs (c : Core) : Nat := rf (regGet c 0x10010c 0xc8) 0 24

/-- SHR SLOW_CFG.SLOW_MAX (12, Table 12.16). -/
def regShrSlowCfgSlowMax (c : Core) : Nat := rf (regGet c 0x100110 0x100000) 16 9

/-- SHR SLOW_CFG.POP_GROUP (12, Table 12.16). -/
def regShrSlowCfgPopGroup (c : Core) : Nat := rf (regGet c 0x100110 0x100000) 0 4

/-- SHR GRP_SEL.GROUP (12, Table 12.16). -/
def regShrGrpSelGroup (c : Core) : Nat := rf (regGet c 0x100120 0x0) 0 4

/-- SHR EXP_SEL.EXPERT (12, Table 12.16). -/
def regShrExpSelExpert (c : Core) : Nat := rf (regGet c 0x100154 0x0) 0 9

/-- SHR PROP_BASE pair (12, Table 12.16). -/
def regShrPropBase (c : Core) : Nat := (regGet c (0x100118) 0x0).toNat + 2 ^ 32 * (regGet c (0x10011c) 0x0).toNat

/-- LKP LKP_CFG.STICKY_EN (13, Table 13.7). -/
def regLkpCfgStickyEn (c : Core) : Bool := rbit (regGet c 0x110100 0x1) 0

/-- LKP ENG_SEL.ENGINE (13, Table 13.7). -/
def regLkpEngSelEngine (c : Core) : Nat := rf (regGet c 0x110120 0x0) 0 7

/-- STRM DESC_COUNT (13, Table 13.8). -/
def regStrmDescCount (c : Core) : Nat := rf (regGet c 0x111108 0x0) 0 17

/-- STRM Q_XFER_LIMIT (13, Table 13.8). -/
def regStrmQXferLimit (c : Core) : Nat := rf (regGet c 0x11110c 0x40) 0 8

/-- STRM MCAST_LAG_LIMIT (13, Table 13.8). -/
def regStrmMcastLagLimit (c : Core) : Nat := rf (regGet c 0x111110 0x400000) 0 32

/-- STRM STRM_SEL.STREAM (13, Table 13.8). -/
def regStrmSelStream (c : Core) : Nat := rf (regGet c 0x111120 0x0) 0 16

/-- STRM STRM_BASE pair (13, Table 13.8). -/
def regStrmBase (c : Core) : Nat := (regGet c (0x111100) 0x0).toNat + 2 ^ 32 * (regGet c (0x111104) 0x0).toNat

/-- TBL DIR_BASE pair (13, Table 13.10). -/
def regTblDirBase (c : Core) : Nat := (regGet c (0x112100) 0x0).toNat + 2 ^ 32 * (regGet c (0x112104) 0x0).toNat

/-- TBL FLIP_AT pair (13, Table 13.10). -/
def regTblFlipAt (c : Core) : Nat := (regGet c (0x112120) 0x0).toNat + 2 ^ 32 * (regGet c (0x112124) 0x0).toNat

/-- PP PP_CFG.CAST_TBL (14, Table 14.9). -/
def regPpCfgCastTbl (c : Core) : Bool := rbit (regGet c 0x120100 0x0) 8

/-- PP PP_CFG.MGR_DIE (14, Table 14.9). -/
def regPpCfgMgrDie (c : Core) : Nat := rf (regGet c 0x120100 0x0) 0 6

/-- PP PP_TIME.LOSS_HB (14, Table 14.9). -/
def regPpTimeLossHb (c : Core) : Nat := rf (regGet c 0x120110 0x408000c) 24 4

/-- PP PP_TIME.HB_US (14, Table 14.9). -/
def regPpTimeHbUs (c : Core) : Nat := rf (regGet c 0x120110 0x408000c) 16 8

/-- PP PP_TIME.RETX_US (14, Table 14.9). -/
def regPpTimeRetxUs (c : Core) : Nat := rf (regGet c 0x120110 0x408000c) 0 8

/-- PP SYNC_LEAD_US (14, Table 14.9). -/
def regPpSyncLeadUs (c : Core) : Nat := rf (regGet c 0x120114 0x32) 0 32

/-- PP SKEW_HOLD (14, Table 14.9). -/
def regPpSkewHold (c : Core) : Nat := rf (regGet c 0x120118 0x2) 0 4

/-- PP CAST_US (14, Table 14.9). -/
def regPpCastUs (c : Core) : Nat := rf (regGet c 0x12011c 0x64) 0 32

/-- PP PSEL.DIE (14, Table 14.9). -/
def regPpPselDie (c : Core) : Nat := rf (regGet c 0x120150 0x0) 0 6

/-- PP PEER_MASK pair (14, Table 14.9). -/
def regPpPeerMask (c : Core) : Nat := (regGet c (0x120108) 0x0).toNat + 2 ^ 32 * (regGet c (0x12010c) 0x0).toNat

/-- PP LOST_MAP pair (14, Table 14.9). -/
def regPpLostMap (c : Core) : Nat := (regGet c (0x120138) 0x0).toNat + 2 ^ 32 * (regGet c (0x12013c) 0x0).toNat

/-- DET DET_CTRL.REPRO (15, Table 15.5). -/
def regDetCtrlRepro (c : Core) : Bool := rbit (regGet c 0x130100 0x0) 0

/-- DET LS_CFG.LS_HALT (15, Table 15.5). -/
def regDetLsCfgLsHalt (c : Core) : Bool := rbit (regGet c 0x130104 0x1) 0

/-- DET LS_FLUSH (15, Table 15.5). -/
def regDetLsFlush (c : Core) : Nat := rf (regGet c 0x130108 0x800) 0 16

/-- DET LS_MATCH_US (15, Table 15.5). -/
def regDetLsMatchUs (c : Core) : Nat := rf (regGet c 0x13010c 0x3e8) 0 32

/-- DET LS_CTRL.EN (15, Table 15.5). -/
def regDetLsCtrlEn (c : Core) : Bool := rbit (regGet c 0x130110 0x0) 31

/-- DET LS_CTRL.PRIMARY (15, Table 15.5). -/
def regDetLsCtrlPrimary (c : Core) : Nat := rf (regGet c 0x130110 0x0) 8 6

/-- DET LS_CTRL.SECONDARY (15, Table 15.5). -/
def regDetLsCtrlSecondary (c : Core) : Nat := rf (regGet c 0x130110 0x0) 0 6

end Sys2Proof.Machine
end

