-- ==== Sys2Proof/Machine/Ops.lean ====
section
/-! DEFINITION. The named operations over the block's state: access to its tables, page headers, counters, ports, the error
log, performance events, trace records, event messages and the start of a reset. -/

namespace Sys2Proof.Machine

/-! ## Access to the tables -/

/-- Hardware queue by number. -/
def getQ (c : Core) (q : Nat) : Queue := tget c.queues {} q
/-- Change of a hardware queue. -/
def modQ (c : Core) (q : Nat) (f : Queue → Queue) : Core := { c with queues := tmod c.queues {} q f }
/-- Context slot by number. -/
def getCtx (c : Core) (x : Nat) : Ctx := tget c.ctxs {} x
/-- Change of a context slot. -/
def modCtx (c : Core) (x : Nat) (f : Ctx → Ctx) : Core := { c with ctxs := tmod c.ctxs {} x f }
/-- Sequencer by number. -/
def getSq (c : Core) (s : Nat) : Sq := tget c.sqs {} s
/-- Change of a sequencer. -/
def modSq (c : Core) (s : Nat) (f : Sq → Sq) : Core := { c with sqs := tmod c.sqs {} s f }
/-- Lane by number. -/
def getLane (c : Core) (k : Nat) : Lane := tget c.lanes {} k
/-- Change of a lane. -/
def modLane (c : Core) (k : Nat) (f : Lane → Lane) : Core := { c with lanes := tmod c.lanes {} k f }
/-- Engine by engine ID. -/
def getEng (c : Core) (e : Nat) : Eng := tget c.engs {} e
/-- Change of an engine. -/
def modEng (c : Core) (e : Nat) (f : Eng → Eng) : Core := { c with engs := tmod c.engs {} e f }
/-- Launch instance by number. -/
def getInst (c : Core) (i : Nat) : Inst := tget c.isr.insts {} i
/-- Change of a launch instance. -/
def modInst (c : Core) (i : Nat) (f : Inst → Inst) : Core := { c with isr := { c.isr with insts := tmod c.isr.insts {} i f } }
/-- Graph by number. -/
def getImg (c : Core) (g : Nat) : Img := tget c.gs.imgs {} g
/-- Change of a graph. -/
def modImg (c : Core) (g : Nat) (f : Img → Img) : Core := { c with gs := { c.gs with imgs := tmod c.gs.imgs {} g f } }
/-- Sync object by handle. -/
def getObj (c : Core) (h : Nat) : SyncObj := tget c.st.objs {} h
/-- Change of a sync object. -/
def modObj (c : Core) (h : Nat) (f : SyncObj → SyncObj) : Core := { c with st := { c.st with objs := tmod c.st.objs {} h f } }
/-- Receive queue by number. -/
def getRxq (c : Core) (r : Nat) : Rxq := tget c.mf.rxqs {} r
/-- Change of a receive queue. -/
def modRxq (c : Core) (r : Nat) (f : Rxq → Rxq) : Core := { c with mf := { c.mf with rxqs := tmod c.mf.rxqs {} r f } }
/-- Combining queue by number. -/
def getCq (c : Core) (n : Nat) : Cq := tget c.cru.cqs {} n
/-- Change of a combining queue. -/
def modCq (c : Core) (n : Nat) (f : Cq → Cq) : Core := { c with cru := { c.cru with cqs := tmod c.cru.cqs {} n f } }
/-- Partner entry by DIE_ID. -/
def getPeer (c : Core) (d : Nat) : Partner := tget c.pp.peers {} d
/-- Change of a partner entry. -/
def modPeer (c : Core) (d : Nat) (f : Partner → Partner) : Core := { c with pp := { c.pp with peers := tmod c.pp.peers {} d f } }
/-- Stream by number. -/
def getStream (c : Core) (n : Nat) : Stream := tget c.strm.slots {} n
/-- Change of a stream. -/
def modStream (c : Core) (n : Nat) (f : Stream → Stream) : Core :=
  { c with strm := { c.strm with slots := tmod c.strm.slots {} n f } }
/-- Preemption of a queue. -/
def getPre (c : Core) (q : Nat) : Preempt := tget c.sched.pre {} q
/-- Change of a preemption. -/
def modPre (c : Core) (q : Nat) (f : Preempt → Preempt) : Core :=
  { c with sched := { c.sched with pre := tmod c.sched.pre {} q f } }
/-- Scheduler state of a context. -/
def getSched (c : Core) (x : Nat) : SchedCtx := tget c.sched.ctxs {} x
/-- Change of the scheduler state of a context. -/
def modSched (c : Core) (x : Nat) (f : SchedCtx → SchedCtx) : Core :=
  { c with sched := { c.sched with ctxs := tmod c.sched.ctxs {} x f } }
/-- Route group by number. -/
def getGroup (c : Core) (g : Nat) : Group := tget c.shr.groups {} g
/-- Change of a route group. -/
def modGroup (c : Core) (g : Nat) (f : Group → Group) : Core :=
  { c with shr := { c.shr with groups := tmod c.shr.groups {} g f } }
/-- Task block by number. -/
def getBlock (c : Core) (b : Nat) : TaskBlock := tget c.gs.tasks {} b
/-- Change of a task block. -/
def modBlock (c : Core) (b : Nat) (f : TaskBlock → TaskBlock) : Core :=
  { c with gs := { c.gs with tasks := tmod c.gs.tasks {} b f } }

/-! ## Page numbers (04, Table 4.1) -/

/-- GLB page. -/
def pgGlb : Nat := 0x00
/-- QSC page. -/
def pgQsc : Nat := 0x02
/-- SRST page. -/
def pgSrst : Nat := 0x03
/-- SIC page. -/
def pgSic : Nat := 0x04
/-- RAS page. -/
def pgRas : Nat := 0x05
/-- TRC page. -/
def pgTrc : Nat := 0x06
/-- PMU page. -/
def pgPmu : Nat := 0x07
/-- DBG page. -/
def pgDbg : Nat := 0x08
/-- FE page. -/
def pgFe : Nat := 0x10
/-- FEQ page of a queue. -/
def pgFeq (q : Nat) : Nat := 0x20 + q / 32
/-- CTX page of a context. -/
def pgCtx (x : Nat) : Nat := 0x30 + x / 16
/-- PART page of a partition. -/
def pgPart (p : Nat) : Nat := 0x40 + p
/-- OBJ page. -/
def pgObj : Nat := 0x50
/-- SQ page of a sequencer. -/
def pgSq (s : Nat) : Nat := 0x60 + s
/-- GS page. -/
def pgGs : Nat := 0x80
/-- ISR page. -/
def pgIsr : Nat := 0x81
/-- DE page. -/
def pgDe : Nat := 0x82
/-- DL page of a lane. -/
def pgDl (k : Nat) : Nat := 0x90 + k
/-- ST page. -/
def pgSt : Nat := 0xD0
/-- LEHR page. -/
def pgLehr : Nat := 0xD1
/-- MF page. -/
def pgMf : Nat := 0xE0
/-- CRU page. -/
def pgCru : Nat := 0xE1
/-- SCHED page. -/
def pgSched : Nat := 0xF0
/-- MARV page. -/
def pgMarv : Nat := 0xF1
/-- TU page. -/
def pgTu : Nat := 0xF2
/-- SHR page. -/
def pgShr : Nat := 0x100
/-- LKP page. -/
def pgLkp : Nat := 0x110
/-- STRM page. -/
def pgStrm : Nat := 0x111
/-- TBL page. -/
def pgTbl : Nat := 0x112
/-- PP page. -/
def pgPp : Nat := 0x120
/-- DET page. -/
def pgDet : Nat := 0x130

/-- Page type and instance number of a page slot, if the slot holds a page (04, R163). -/
def pageOf (page : Nat) : Option (PageType × Nat) :=
  (pageTypes.find? (fun t => decide (t.base ≤ page ∧ page < t.base + t.n))).map (fun t => (t, page - t.base))

/-- Type code of a page slot; 0 where there is no page. -/
def pageTy (page : Nat) : Nat := match pageOf page with | some (t, _) => t.ty | none => 0

/-- Header state of a page. -/
def getPage (c : Core) (page : Nat) : Page := tget c.rs.pages {} page

/-- Change of the header state of a page. -/
def modPage (c : Core) (page : Nat) (f : Page → Page) : Core :=
  { c with rs := { c.rs with pages := tmod c.rs.pages {} page f } }

/-- The byte offset of a register. -/
def regAddr (page off : Nat) : Nat := page * 0x1000 + off

/-! ## Registers that the block itself changes -/

/-- Row of the register map for an offset of a page type. -/
def rowOf (ty off : Nat) : Option RegRow :=
  (regRows ty).find? (fun r => decide (r.off ≤ off ∧ (off - r.off) % r.stride = 0 ∧ (off - r.off) / r.stride < r.count))

/-- Reset value of a register of the map; IRQ_EN is at 0x01C (04, Table 4.2). -/
def regReset (page off : Nat) : Reg :=
  match pageOf page with
  | none => 0
  | some (t, _) =>
    if off = 0x1C then r32 t.irqEn
    else match rowOf t.ty off with
      | some r => r32 r.rst
      | none => 0

/-- The active value of a register of the map. -/
def regCur (c : Core) (page off : Nat) : Reg := tget c.rs.regs (regReset page off) (regAddr page off)

/-- A register of the map given a value. -/
def regPut (c : Core) (page off : Nat) (v : Reg) : Core :=
  { c with rs := { c.rs with regs := tset c.rs.regs (regReset page off) (regAddr page off) v } }

/-- A register counts in its page's digest: it holds a configuration field at offset 0x100 or above (04, R170, R196). -/
def isCfg (page off : Nat) : Bool :=
  decide (0x100 ≤ off) && (match rowOf (pageTy page) off with | some r => r.cls != 0 | none => false)

/-- A register of the map set, by a write or by the block: the page's digest no longer covers a configuration field that
changes (04, R198). -/
def regSet (c : Core) (page off : Nat) (v : Reg) : Core :=
  let d := regPut c page off v
  if isCfg page off && regCur c page off != v then modPage d page (fun p => { p with digestBusy := true }) else d

/-- Bits of a register of the map set by the block. -/
def regOr (c : Core) (page off : Nat) (bits : Reg) : Core := regSet c page off (regCur c page off ||| bits)

/-! ## Counters and page headers -/

/-- A 64-bit counter, by page and offset of its _LO. -/
def cntGet (c : Core) (page off : Nat) : Word := tget c.rs.cnts 0 (regAddr page off)

/-- A counter advanced, modulo 2^64. -/
def cntAdd (c : Core) (page off : Nat) (n : Nat) : Core :=
  { c with rs := { c.rs with cnts := tmod c.rs.cnts 0 (regAddr page off) (fun x => x + w64 n) } }

/-- A bit of IRQ_RAW set (04, Table 4.2). -/
def irqSet (c : Core) (page bit : Nat) : Core :=
  modPage c page (fun p => { p with irqRaw := p.irqRaw ||| (1 <<< bit) })

/-- An error recorded in ERR_CODE (04, R166, R167). -/
def pageErr (c : Core) (page code lo hi : Nat) : Core :=
  modPage c page (fun p =>
    let p := { p with irqRaw := p.irqRaw ||| 1 }
    if p.code = 0 then { p with code := BitVec.ofNat 8 code, infoLo := r32 lo, infoHi := r32 hi }
    else { p with more := BitVec.ofNat 16 (min 0xFFFF (p.more.toNat + 1)) })

/-- IRQ_EN of a page. -/
def irqEn (c : Core) (page : Nat) : Reg := regCur c page 0x1C

/-- IRQ_STAT of a page (04, Table 4.2). -/
def irqStat (c : Core) (page : Nat) : Reg := (getPage c page).irqRaw &&& irqEn c page

/-! ## Time -/

/-- The Tally. -/
def now (c : Core) : Word := c.tu.tally

/-- At least so many microseconds of Tally have passed since a count. -/
def passedUs (c : Core) (t0 : Word) (us : Nat) : Bool := geW (now c) (t0 + w64 (us * 1000))

/-! ## Free values -/

/-- A number that the manual leaves open. -/
def freeNat (c : Core) : Nat × Core := (Config.freeNat c.free, { c with free := c.free + 1 })

/-- A word that the manual leaves open. -/
def freeWord (c : Core) : Word × Core := (Config.freeWord c.free, { c with free := c.free + 1 })

/-! ## What a hold or quiescing stops -/

/-- No hold is in effect and no quiescing is under way: units may start operations (03, Table 3.3; 16, R801). -/
def mayStart (c : Core) : Bool := !c.qsc.req && !c.ras.hold

/-- Bring-up is complete (03, Table 3.6). -/
def isUp (c : Core) : Bool := c.bring.stage == 7

/-! ## Performance events and trace -/

/-- What an event or a record belongs to, for filters (17, R817, R822). -/
structure Owner where
  /-- Context. -/
  ctx : Option Nat := none
  /-- Partition. -/
  part : Option Nat := none
  /-- Queue. -/
  q : Option Nat := none
  /-- Lane. -/
  lane : Option Nat := none
  deriving DecidableEq, Repr

/-- An owner passes a filter (17, R817). -/
def passes (o : Owner) (kind val : Nat) : Bool :=
  match kind with
  | 0 => true
  | 1 => decide (o.ctx = some val)
  | 2 => decide (o.part = some val)
  | 3 => decide (o.q = some val)
  | 4 => decide (o.lane = some val)
  | _ => false

/-- An event counted by every counter that selects it (17, R814, R817). -/
def pmuEv (c : Core) (ev inc : Nat) (o : Owner) : Core :=
  if regPmuCtrlFreeze c then c
  else c.rs.regs.foldl (fun c e =>
    if decide (0x7C00 ≤ e.1 ∧ e.1 < 0x8000) && rbit e.2 31 && rf e.2 0 12 == ev && passes o (rf e.2 28 3) (rf e.2 19 9)
    then { c with pmu := { c.pmu with cnt := tmod c.pmu.cnt 0 ((e.1 - 0x7C00) / 4) (fun x => x + w64 inc) } }
    else c) c

/-! ## Ports -/

/-- Data beats of 64 B of a request; the Memory Port moves whole 256 B units (02, Table 2.6, R58). -/
def beats (r : Req) : Nat :=
  match r.port with
  | .hip => (r.addr % 64 + r.len + 63) / 64
  | .mp => (r.addr % 256 + r.len + 255) / 256 * 4

/-- Beats of a transfer counted (17, Table 17.1, events 0x0A0 to 0x0A3). -/
def countBeats (c : Core) (r : Req) : Core :=
  let base := match r.port with | .mp => 0x0A0 | .hip => 0x0A2
  match r.op with
  | .read => pmuEv c base (beats r) { part := some r.part }
  | .write => pmuEv c (base + 1) (beats r) { part := some r.part }
  | .intmsg => c

/-- A request driven: a write's data goes with it (02, R42). -/
def driveReq (c : Core) (r : Req) : Core :=
  let c := if r.op = .write then countBeats c r else c
  { c with io := { c.io with reqs := c.io.reqs ++ [r] } }

/-- A QPP request made; while the block is quiesced it is held (03, R129). -/
def sendReq (c : Core) (r : Req) : Core :=
  if c.qsc.done then { c with io := { c.io with heldReqs := c.io.heldReqs ++ [r] } } else driveReq c r

/-- A beat driven on an output that takes no QPP response; while the block is quiesced it is held (03, R129). -/
def emit (c : Core) (e : PortEvent) : Core :=
  if c.qsc.done then { c with io := { c.io with heldOut := c.io.heldOut ++ [e] } }
  else { c with io := { c.io with out := e :: c.io.out } }

/-- The oldest open request with a tag, and the state without it; a read's data comes with its response (02, R37, R42). -/
def takeReq (c : Core) (t : ReqTag) : Option (Req × Core) :=
  (ltake (fun r => decide (r.tag = t)) c.io.reqs).map (fun p =>
    let c := { c with io := { c.io with reqs := p.2 } }
    (p.1, if p.1.op = .read then countBeats c p.1 else c))

/-- A request with this tag is open or held. -/
def hasReq (c : Core) (t : ReqTag) : Bool :=
  c.io.reqs.any (fun r => decide (r.tag = t)) || c.io.heldReqs.any (fun r => decide (r.tag = t))

/-- A read on the Memory Port. -/
def mpRead (c : Core) (addr part len : Nat) (tag : ReqTag) : Core :=
  sendReq c { op := .read, port := .mp, addr := addr, part := part, len := len, tag := tag }

/-- A write on the Memory Port. -/
def mpWrite (c : Core) (addr part : Nat) (data : List Word) (tag : ReqTag) : Core :=
  sendReq c { op := .write, port := .mp, addr := addr, part := part, len := 8 * data.length, data := data, tag := tag }

/-- A read on the Host Initiator Port. -/
def hipRead (c : Core) (addr part len : Nat) (tag : ReqTag) : Core :=
  sendReq c { op := .read, port := .hip, addr := addr, part := part, len := len, tag := tag }

/-- A write on the Host Initiator Port. -/
def hipWrite (c : Core) (addr part : Nat) (data : List Word) (tag : ReqTag) : Core :=
  sendReq c { op := .write, port := .hip, addr := addr, part := part, len := 8 * data.length, data := data, tag := tag }

/-- An interrupt message (02, "Interrupt messages"); while the block is quiescing it is held, for the FE then raises no
further interrupt (03, Table 3.3). -/
def intMsg (c : Core) (vec part : Nat) (cookie : Nat) (tag : ReqTag) : Core :=
  let r : Req := { op := .intmsg, port := .hip, addr := vec, part := part, len := 0, data := [w64 cookie], tag := tag }
  if c.qsc.req then { c with io := { c.io with heldReqs := c.io.heldReqs ++ [r] } }
  else { c with io := { c.io with reqs := c.io.reqs ++ [r] } }

/-- Owner of what a context and a queue do. -/
def ownCtx (c : Core) (x : Nat) : Owner := { ctx := some x, part := some (getCtx c x).part }

/-- Owner of what a queue does. -/
def ownQ (c : Core) (q : Nat) : Owner :=
  let x := (getQ c q).ctx
  { ctx := some x, part := some (getCtx c x).part, q := some q }

/-- DIE_ID strap. -/
def dieId (c : Core) : Nat := c.bring.straps.dieId.toNat

/-- ROLE strap. -/
def role (c : Core) : Nat := c.bring.straps.role.toNat

/-- A trace record captured, if its kind is enabled and it passes the filter (17, R821, R822). -/
def trace (c : Core) (kind : Nat) (o : Owner) (inst task : Nat) (a : Word) (b : Nat) (varies : Bool := false) : Core :=
  if regTrcCtrlEn c && (r32 (regTrcKinds c)).getLsbD kind
      && (o.ctx.isNone || passes o (regTrcFiltFkind c) (regTrcFiltFval c)) then
    let w1 := w64 (kind * 2 ^ 56 + dieId c * 2 ^ 50 + b2n varies * 2 ^ 49 + o.ctx.getD 0 * 2 ^ 40
      + o.q.getD 0 * 2 ^ 31 + inst * 2 ^ 17 + task)
    { c with trc := { c.trc with cand := c.trc.cand ++ [{ tally := now c, w1 := w1, a := a, b := r32 b }] } }
  else c

/-! ## Register FIFOs (10, Table 10.4) -/

/-- A record of words committed whole to a register FIFO of a capacity, or lost (10, R536, R537). -/
def fifoPush (f : RegFifo) (cap : Nat) (ws : List Reg) : RegFifo :=
  if f.words.length + ws.length ≤ cap then { f with words := f.words ++ ws }
  else { f with overflow := true, lost := f.lost + 1 }

/-! ## The error log (16, R806-R810) -/

/-- What an error record says besides LOG_SEQ, LOST_BEFORE and the Tally (16, Table 16.7). -/
structure ErrRec where
  /-- KIND (16, Table 16.8). -/
  kind : Nat := 0
  /-- SOURCE. -/
  source : Nat := 0
  /-- REPEAT. -/
  repeat_ : Bool := false
  /-- FATAL. -/
  fatal : Bool := false
  /-- MASKED. -/
  masked : Bool := false
  /-- CONTAINED. -/
  contained : Bool := false
  /-- CONTEXT and INSTANCE, for OWNER_VALID. -/
  owner : Option (Nat × Nat) := none
  /-- QUEUE, for QUEUE_VALID. -/
  queue : Option Nat := none
  /-- LOC. -/
  loc : Nat := 0
  /-- SYNDROME. -/
  syn : Nat := 0
  /-- ENGINE_ID. -/
  eng : Nat := 0
  /-- TASK. -/
  task : Nat := 0
  /-- VECTOR. -/
  vec : Nat := 0
  /-- INFO. -/
  info : Nat := 0
  deriving DecidableEq, Repr

/-- Words 0 to 5 of an error record, with LOG_SEQ and LOST_BEFORE still zero (16, Table 16.7). -/
def errWords (r : ErrRec) : List Reg :=
  let own := r.owner.getD (0, 0)
  [ r32 (r.kind * 2 ^ 24 + r.source * 2 ^ 16 + b2n r.repeat_ * 64 + b2n r.fatal * 16 + b2n r.masked * 8
      + b2n r.contained * 4 + b2n r.queue.isSome * 2 + b2n r.owner.isSome),
    r32 (own.1 * 2 ^ 24 + r.queue.getD 0 * 2 ^ 15 + own.2),
    r32 r.loc,
    r32 (r.syn * 2 ^ 24 + r.eng),
    r32 (r.task * 2 ^ 16 + r.vec),
    r32 r.info ]

/-- A record committed to the error log, or dropped where there is no room (16, R808, R809; IRQ_RAW.LOGGED of R811). -/
def logWords (c : Core) (ws : List Reg) (tally : Word) : Core :=
  let k := rf (ws.getD 0 0) 24 8
  let c := if k = 2 ∨ k = 3 then regOr c pgRas 0x10C 1 else c
  if c.ras.log.words.length + 8 ≤ 8192 then
    let seq := c.ras.logSeq + 1
    let w0 := (ws.getD 0 0) ||| r32 (seq.toNat * 2 ^ 8 + b2n c.ras.lost * 32)
    let rec_ := w0 :: (ws.drop 1 ++ [loReg tally, hiReg tally])
    let c := { c with ras := { c.ras with logSeq := seq, lost := false, log := fifoPush c.ras.log 8192 rec_ } }
    let c := irqSet c pgRas 5
    trace c 0x10 {} 0 0 (joinReg w0 (ws.getD 1 0)) (ws.getD 2 0).toNat
  else
    { c with ras := { c.ras with lost := true, log := fifoPush c.ras.log 8192 (List.replicate 8 0) } }

/-- An error record committed at the Tally that stands (16, R808). -/
def logErr (c : Core) (r : ErrRec) : Core := logWords c (errWords r) (now c)

/-- A response's status noted: POISON is counted and logged by the page type of the requesting unit (16, R806). -/
def notePoison (c : Core) (st : QStatus) (ty addr : Nat) : Core :=
  if st = .poison then
    logErr (cntAdd c pgRas 0x120 1) { kind := 4, source := ty, loc := addr % 2 ^ 32, info := addr / 2 ^ 32 }
  else c

/-! ## Event messages (04, R191, R192) -/

/-- Pages whose IRQ_STAT is not zero in the new state and was zero in the old one, ascending. -/
def newEvents (old new : Core) : List Nat :=
  (new.rs.pages.filter (fun e => decide (irqStat new e.1 ≠ 0 ∧ irqStat old e.1 = 0))).map (·.1)

/-- Insertion of a page in an ascending list without repeats. -/
def insPage (n : Nat) : List Nat → List Nat
  | [] => [n]
  | x :: t => if n < x then n :: x :: t else if n = x then x :: t else x :: insPage n t

/-- The event INTMSG of a page (04, R191). -/
def sendEvent (c : Core) (page : Nat) : Core :=
  match pageOf page with
  | none => c
  | some (t, n) => intMsg c (regGlbEvtVec c) 0 (0xFE000000 + t.ty * 0x10000 + n * 0x100) (.evtMsg page)

/-- Event messages that fall due in a step, sent or held (04, R191, R192). -/
def eventMsgs (old new : Core) : Core :=
  let due := (newEvents old new).foldl (fun l p => insPage p l) new.io.heldEvt
  if isUp new && !new.qsc.req then
    due.foldl sendEvent { new with io := { new.io with heldEvt := [] } }
  else { new with io := { new.io with heldEvt := due } }

/-! ## Reset (03) -/

/-- Every field that a reset clears, at its reset value (03, R121, R122). -/
def resetCore : Core := {}

/-- A reset starts: the block enters reset for a cause and keeps only the state of Table 3.2 (03, R120, R122).  The beats that
it drove up to then stay on record until the reset ends. -/
def startReset (s : State) (cause : BitVec 4) (fatal : Option (List Word)) : State :=
  { s with
    rst := { s.rst with active := true, next := cause, fatal := fatal.getD s.rst.fatal }
    core := { resetCore with io := { out := s.core.io.out } } }

/-- The block takes the commands of its mission ports: it is not in reset, where every input but the reset inputs is ignored (02,
R51, R109), and not in scan mode (02, R112). -/
def State.runs (s : State) : Bool := !s.rst.active && !s.pins.scan

/-- The state after an effect on the running block: the event messages that it makes due are sent or held (04, R191, R192). -/
def State.act (s : State) (f : Core → Core) : State := { s with core := eventMsgs s.core (f s.core) }

/-- A command that acts on the running block; it changes nothing while the block does not run. -/
def mission (f : Core → Core) (s : State) : Host.Outcome State Fault Refusal :=
  if s.runs then .next (s.act f) else .next s

/-- A command of the running block that may ask for a reset, which then starts in its place (03, R118; 09, R497; 14, R758; 16,
R798). -/
def missionReset (f : Core → Core) (s : State) : Host.Outcome State Fault Refusal :=
  match s.runs, (f s.core).rstReq with
  | true, some cause => .next (startReset { s with core := f s.core } cause (f s.core).fatalReq)
  | true, none => .next (s.act f)
  | false, _ => .next s

end Sys2Proof.Machine
end

