-- ==== Sys2Proof/Machine/Link.lean ====
section
/-! DEFINITION. The Punty link as its users see it: frames built, held, accepted and sent in order (14, R716-R731). -/

namespace Sys2Proof.Machine

/-! ## Frames (14, Tables 14.1 to 14.4) -/

/-- Frame types (14, Table 14.2). -/
def tyHb : Nat := 0x01
/-- ACK. -/
def tyAck : Nat := 0x02
/-- NAK. -/
def tyNak : Nat := 0x03
/-- SYNC_OP. -/
def tySyncOp : Nat := 0x10
/-- SYNC_REL. -/
def tySyncRel : Nat := 0x11
/-- SYNC_CANCEL. -/
def tySyncCancel : Nat := 0x12
/-- MSG. -/
def tyMsg : Nat := 0x20
/-- MSG_X. -/
def tyMsgX : Nat := 0x21
/-- MSG_ANS. -/
def tyMsgAns : Nat := 0x22
/-- RESET. -/
def tyReset : Nat := 0x30
/-- RESET_ACK. -/
def tyResetAck : Nat := 0x31
/-- TBL_PREP. -/
def tyTblPrep : Nat := 0x38
/-- TBL_ARM. -/
def tyTblArm : Nat := 0x39
/-- TBL_DISARM. -/
def tyTblDisarm : Nat := 0x3A
/-- TBL_ANS. -/
def tyTblAns : Nat := 0x3B
/-- LSTEP. -/
def tyLstep : Nat := 0x40

/-- A type is sequenced (14, Table 14.2). -/
def sequenced (ty : Nat) : Bool :=
  decide (ty ∈ [tySyncOp, tySyncRel, tySyncCancel, tyMsg, tyMsgX, tyMsgAns, tyReset, tyTblPrep, tyTblArm, tyTblDisarm,
    tyTblAns, tyLstep])

/-- A type is listed in Table 14.2 (14). -/
def frameListed (ty : Nat) : Bool := sequenced ty || decide (ty ∈ [tyHb, tyAck, tyNak, tyResetAck])

/-- A flit with its CRC in bytes 60 to 63 (14, R716). -/
def sealFlit (body : Nat) : BitVec 512 :=
  BitVec.ofNat 512 (body % 2 ^ 480 + (crc32c (toBytes body 60)).toNat * 2 ^ 480)

/-- A flit to a partner: type, flags, bytes 8-11, bytes 12-15 and payload (14, Table 14.1). -/
def mkFlit (c : Core) (die ty flags b8 b12 pay : Nat) : BitVec 512 :=
  sealFlit (ty + die * 2 ^ 8 + dieId c * 2 ^ 16 + flags * 2 ^ 24 + c.pp.ownEpoch.toNat * 2 ^ 32 + b8 * 2 ^ 64 + b12 * 2 ^ 96
    + pay * 2 ^ 128)

/-- Field of a payload: `n` bytes from frame byte `b` (14, Table 14.4). -/
def payAt (f : Frame) (b n : Nat) : Nat := fld f.pay.toNat (8 * (b - 16)) (8 * n)

/-- A value placed at frame byte `b` of a payload. -/
def payPut (b v : Nat) : Nat := v * 2 ^ (8 * (b - 16))

/-- A sequenced frame of a type and payload. -/
def mkFrame (ty pay : Nat) : Frame := { ty := BitVec.ofNat 8 ty, pay := BitVec.ofNat 352 pay }

/-! ## Sending (14, R723, R726-R729) -/

/-- The link to a die is UP (14, Table 14.6). -/
def linkUpTo (c : Core) (die : Nat) : Bool := (getPeer c die).st == .up

/-- Flits may leave: the adapter's link is up, and the die is not quiescing (02, R91; 03, Table 3.3; 14, R761). -/
def flitsFlow (c : Core) : Bool := c.pp.linkUp && !c.qsc.req

/-- A flit driven (14, R729; 17, event 0x0B0). -/
def sendFlit (c : Core) (f : BitVec 512) : Core :=
  emit (pmuEv (cntAdd c pgPp 0x180 1) 0x0B0 1 {}) (.flit f)

/-- A sequenced frame sent with a SEQ and the current ACK (14, Table 14.1, R726). -/
def sendSeqFrame (c : Core) (die : Nat) (seq : Reg) (f : Frame) : Core :=
  let p := getPeer c die
  let c := sendFlit c (mkFlit c die f.ty.toNat 1 seq.toNat p.exp.toNat f.pay.toNat)
  modPeer c die (fun p => { p with sinceAck := 0 })

/-- Sequenced frames with consecutive SEQs. -/
def sendSeqFrames (c : Core) (die : Nat) (seq : Reg) : List Frame → Core
  | [] => c
  | f :: t => sendSeqFrames (sendSeqFrame c die seq f) die (seq + 1) t

/-- Sequenced frames may be sent to a die (14, R723, R731). -/
def linkCan (c : Core) (die : Nat) : Bool := linkUpTo c die && (getPeer c die).txReady && flitsFlow c

/-- The accepted frames of a die that have not been sent leave in order (14, R723, R729). -/
def linkFlush (c : Core) (die : Nat) : Core :=
  let p := getPeer c die
  if linkCan c die && decide (0 < p.unsent) then
    let k := p.frames.length - p.unsent
    let c := sendSeqFrames c die (p.una + r32 k) (p.frames.drop k)
    modPeer c die (fun p => { p with unsent := 0 })
  else c

/-- Frame places in use of the pool (14, R728). -/
def poolUsed (c : Core) : Nat := (c.pp.peers.map (fun e => e.2.frames.length)).sum

/-- Window and pool have room for so many frames (14, R728, R717). -/
def linkRoom (c : Core) (die n : Nat) : Bool :=
  decide ((getPeer c die).frames.length + n ≤ 64 ∧ poolUsed c + n ≤ 1024)

/-- Frames take the next SEQs (14, R728). -/
def linkAccept (c : Core) (die : Nat) (fs : List Frame) : Core :=
  modPeer c die (fun p =>
    { p with frames := p.frames ++ fs, unsent := p.unsent + fs.length, next := p.next + r32 fs.length })

/-- A source is told that its frame has been accepted: a sequencer's command may move on (07, R361), and an edge counts as
handed over (08, R418). -/
def noteAccepted (c : Core) : TxFrom → Core
  | .sq s => { c with pp := { c.pp with accepted := c.pp.accepted ++ [s] } }
  | .edge i n _ => if (getInst c i).serial = n then modInst c i (fun x => { x with sigOut := x.sigOut - 1 }) else c
  | .unit_ => c

/-- Frames offered to an UP link: accepted when nothing is held before them and window and pool have room, else held by
their source (14, R728). -/
def linkOffer (c : Core) (die : Nat) (src : TxFrom) (fs : List Frame) : Core :=
  if (getPeer c die).held.isEmpty && linkRoom c die fs.length then
    noteAccepted (linkFlush (linkAccept c die fs) die) src
  else modPeer c die (fun p => { p with held := p.held ++ [(src, fs)] })

/-- Held frames accepted while window and pool have room. -/
def linkPumpList (c : Core) (die : Nat) : List (TxFrom × List Frame) → Core
  | [] => modPeer c die (fun p => { p with held := [] })
  | (src, fs) :: t =>
    if linkRoom c die fs.length then linkPumpList (noteAccepted (linkAccept c die fs) src) die t
    else modPeer c die (fun p => { p with held := (src, fs) :: t })

/-- Held frames of a die accepted and sent. -/
def linkPump (c : Core) (die : Nat) : Core :=
  if linkUpTo c die then linkFlush (linkPumpList c die (getPeer c die).held) die else c

/-- Held frames of every die accepted and sent, after places of the pool have become free (14, R728). -/
def linkPumpAll (c : Core) : Core := (c.pp.peers.map (·.1)).foldl linkPump c

/-- An ACK frame (14, R726). -/
def sendAck (c : Core) (die : Nat) : Core :=
  if flitsFlow c then
    let p := getPeer c die
    let c := sendFlit c (mkFlit c die tyAck 1 0 p.exp.toNat 0)
    modPeer c die (fun p => { p with sinceAck := 0 })
  else c

/-- A NAK frame (14, R725). -/
def sendNak (c : Core) (die : Nat) : Core :=
  if flitsFlow c then
    let p := getPeer c die
    let c := sendFlit (cntAdd c pgPp 0x198 1) (mkFlit c die tyNak 1 0 p.exp.toNat (payPut 16 p.exp.toNat))
    modPeer c die (fun p => { p with sinceAck := 0 })
  else c

/-- go_back() of R727 (14): the frames from UNA on are sent again; nothing is sent while the flits do not flow. -/
def goBack (c : Core) (die : Nat) : Core :=
  if linkCan c die then
    let p := getPeer c die
    let n := p.frames.length
    let c := pmuEv (cntAdd c pgPp 0x190 n) 0x0B1 n {}
    let c := sendSeqFrames c die p.una p.frames
    modPeer c die (fun p => { p with unsent := 0, lastBack := now c, t0 := now c })
  else c

/-- on_ack(a) of R727 (14). -/
def onAck (c : Core) (die : Nat) (a : Reg) : Core :=
  let p := getPeer c die
  if ahead32 a p.una && !ahead32 a p.next then
    let n := (a - p.una).toNat
    let c := modPeer c die (fun p =>
      { p with frames := p.frames.drop n, unsent := min p.unsent (p.frames.length - n), una := a, t0 := now c })
    linkPumpAll c
  else c

/-! ## Payloads that several units send (14, Table 14.4) -/

/-- SYNC_OP. -/
def frSyncOp (op srcKind h waitId srcId : Nat) (x : Word) : Frame :=
  mkFrame tySyncOp (payPut 16 op + payPut 17 srcKind + payPut 18 h + payPut 20 waitId + payPut 22 srcId + payPut 24 x.toNat)

/-- SYNC_REL. -/
def frSyncRel (status ty h waitId : Nat) (x : Word) : Frame :=
  mkFrame tySyncRel (payPut 16 status + payPut 17 ty + payPut 18 h + payPut 20 waitId + payPut 24 x.toNat)

/-- SYNC_CANCEL. -/
def frSyncCancel (h waitId : Nat) : Frame := mkFrame tySyncCancel (payPut 18 h + payPut 20 waitId)

/-- MSG, with MSG_X for a fourth word (14, R717). -/
def frMsg (ansId : Nat) (m : Msg) : List Frame :=
  let nw := m.words.length - 1
  let f := mkFrame tyMsg (payPut 16 ansId + payPut 18 (m.rxq + nw * 2 ^ 12 + m.srcKind * 2 ^ 14) + payPut 20 m.tag
    + payPut 22 m.srcId + payPut 24 m.land.toNat + payPut 32 (wat m.words 0).toNat
    + payPut 40 (if 1 ≤ nw then (wat m.words 1).toNat else 0) + payPut 48 (if 2 ≤ nw then (wat m.words 2).toNat else 0))
  if nw = 3 then [f, mkFrame tyMsgX (payPut 16 (wat m.words 3).toNat)] else [f]

/-- MSG_ANS. -/
def frMsgAns (ansId code : Nat) : Frame := mkFrame tyMsgAns (payPut 16 ansId + payPut 18 code)

/-- TBL_ANS. -/
def frTblAns (result castId : Nat) : Frame := mkFrame tyTblAns (payPut 16 result + payPut 24 castId)

/-- LSTEP. -/
def frLstep (kind b17 : Nat) (rest : Nat) : Frame := mkFrame tyLstep (payPut 16 kind + payPut 17 b17 + rest)

/-! ## Remote messages under way (14, R741, R742) -/

/-- A remote message takes a place among the 256 and goes to the link (14, R741, R742). -/
def placeRemMsg (c : Core) (src : MsgFrom) (die : Nat) (m : Msg) : Core :=
  let id := c.pp.ansNext % 2 ^ 16
  let c := { c with pp := { c.pp with ansNext := id + 1, msgs := c.pp.msgs ++ [{ mid := id, die := die, src := src }] } }
  linkOffer c die .unit_ (frMsg id m)

/-- A remote message handed to the Punty Port: it takes one of 256 places or is held by its source (14, R742). -/
def sendRemMsg (c : Core) (src : MsgFrom) (die : Nat) (m : Msg) : Core :=
  if c.pp.msgs.length < 256 ∧ c.pp.msgHeld = [] then placeRemMsg c src die m
  else { c with pp := { c.pp with msgHeld := c.pp.msgHeld ++ [(src, die, m)] } }

/-- Held messages take the places that have become free; one whose link is no longer UP is lost (14, R742). -/
def refillMsgs (c : Core) : List (MsgFrom × Nat × Msg) → Core
  | [] => { c with pp := { c.pp with msgHeld := [] } }
  | (src, die, m) :: t =>
    if c.pp.msgs.length < 256 then refillMsgs (if linkUpTo c die then placeRemMsg c src die m else c) t
    else { c with pp := { c.pp with msgHeld := (src, die, m) :: t } }

end Sys2Proof.Machine
end

