-- ==== Sys2Proof/Machine/SyncBase.lean ====
section
/-! DEFINITION. Sync objects: conditions, releases, registrations and their ends, the balance rule and inheritance
(09, R456-R484; 11, R619-R622). -/

namespace Sys2Proof.Machine

/-! ## Effective priority (11, R619-R622) -/

/-- Effective priority of a queue, through at most so many links of inheritance (11, R622). -/
def eprioN (c : Core) : Nat → Nat → Nat
  | 0, q => (getQ c q).prio
  | n + 1, q =>
    (c.sched.inherits.filter (fun e => e.1 == q)).foldl (fun p e => min p (eprioN c n e.2.1)) (getQ c q).prio

/-- Effective priority of a queue: 0 is the highest (11, R619, R621). -/
def eprio (c : Core) (q : Nat) : Nat := eprioN c 8 q

/-- Links of inheritance that end at a queue: how far its own priority has been passed on to it. -/
def inheritDepth (c : Core) : Nat → Nat → Nat
  | 0, _ => 0
  | n + 1, q =>
    ((c.sched.inherits.filter (fun e => e.1 == q)).map (fun e => 1 + inheritDepth c n e.2.1)).foldl max 0

/-- A queue is in a preemption phase (11, Table 11.10 Q_PVIEW.PHASE). -/
def inPhase (c : Core) (q : Nat) : Bool := (getPre c q).phase != .none

/-- Inheritances that still hold: the semaphore names the holder, and the waiter still waits on it with a higher
priority than the holder's own (11, R621). -/
def inheritKeep (c : Core) : Core :=
  let ok (e : Nat × Nat × Nat) : Bool :=
    let o := getObj c e.2.2
    o.ty == .semaphore && o.holder == some e.1 && o.waits.any (fun w => w.q == e.2.1 && (match w.who with | .sq _ => true | _ => false))
  { c with sched := { c.sched with inherits := c.sched.inherits.filter ok } }

/-- A WAIT of a queue on a semaphore starts an inheritance where R619 says so (11, R619, R622). -/
def inheritStart (c : Core) (q h : Nat) : Core :=
  match (getObj c h).holder with
  | none => c
  | some hq =>
    if regSchedCtrlInheritEn c && inPhase c hq && decide (eprio c q < eprio c hq) && decide (inheritDepth c 8 q < 8) then
      let c := irqSet (cntAdd c pgSched 0x188 1) pgSched 5
      { c with sched := { c.sched with inherits := c.sched.inherits ++ [(hq, q, h)] } }
    else c

/-! ## Balance (09, R483) -/

/-- A queue's balance moved, with saturation (09, R483). -/
def balAdd (c : Core) (q : Nat) (d : Int) : Core :=
  modQ c q (fun x => { x with bal := max (-2147483648) (min 2147483647 (x.bal + d)) })

/-! ## Releases -/

/-- A waiter that is registered is told of its release: a sequencer of this die through the release list, another die by a
SYNC_REL frame (09, R469, R470; 14, R735). -/
def tellRelease (c : Core) (h : Nat) (w : Wait) (aban : Bool) : Core :=
  match w.who with
  | .sq s =>
    let c := if aban then c else
      let c := pmuEv (cntAdd c pgSt 0x120 1) 0x051 1 (ownQ c w.q)
      trace c 0x0A (ownQ c w.q) 0 0 (getObj c h).value h
    { c with st := { c.st with releases := c.st.releases ++ [{ sq := s, h := h, aban := aban }] } }
  | .remote die sqId wid =>
    let c := if aban then c else
      trace (pmuEv (cntAdd c pgSt 0x120 1) 0x051 1 {}) 0x0A {} 0 0 (getObj c h).value h
    let ty := match (getObj c h).ty with | .counter => 0 | .semaphore => 1 | .barrier => 2 | .cookie => 3
    linkOffer c die .unit_ [frSyncRel (b2n aban) ty h (wid * 32 + sqId) w.opd]

/-- The effect of a release on the object: a semaphore's acquisition (09, Table 9.3; 14, R740). -/
def takeUnits (o : SyncObj) (w : Wait) : SyncObj :=
  if o.ty = .semaphore then
    { o with value := o.value - w64 w.x
             holder := match w.who with | .sq _ => some w.q | .remote _ _ _ => none }
  else o

/-- A release: the object's change, the balance and the word to the waiter (09, Table 9.3, R483). -/
def releaseOne (c : Core) (h : Nat) (w : Wait) : Core :=
  let sem := (getObj c h).ty == .semaphore
  let c := modObj c h (fun o => takeUnits o w)
  let c := match w.who, sem with
    | .sq _, true => balAdd c w.q w.x
    | _, _ => c
  tellRelease c h w false

/-- A waiter's condition holds, for a type other than a semaphore (09, Table 9.3). -/
def waitMet (o : SyncObj) (w : Wait) : Bool :=
  match o.ty with
  | .barrier => decide (w.x ≤ o.value.toNat)
  | .semaphore => decide (w.x ≤ o.value.toNat)
  | _ => geW o.value (w64 w.x)

/-- Waiters of a semaphore served in arrival order until one cannot be (09, R476). -/
def serveSem (c : Core) (h : Nat) : List Wait → Core
  | [] => modObj c h (fun o => { o with waits := [] })
  | w :: t =>
    if waitMet (getObj c h) w then serveSem (releaseOne c h w) h t
    else modObj c h (fun o => { o with waits := w :: t })

/-- Every registered waiter of an object checked against its VALUE (09, R468, R476). -/
def serveObj (c : Core) (h : Nat) : Core :=
  let o := getObj c h
  let c := match o.ty with
    | .semaphore => serveSem c h o.waits
    | _ =>
      let c := modObj c h (fun o => { o with waits := o.waits.filter (fun w => !waitMet o w) })
      (o.waits.filter (waitMet o)).foldl (fun c w => releaseOne c h w) c
  inheritKeep c

/-- Every waiter released whatever its condition: a barrier past the wrap (09, R462). -/
def releaseAll (c : Core) (h : Nat) : Core :=
  let o := getObj c h
  o.waits.foldl (fun c w => releaseOne c h w) (modObj c h (fun o => { o with waits := [] }))

/-- Every waiter released with ABANDONED (06, R281, R298; 09, R465). -/
def abandonWaits (c : Core) (h : Nat) : Core :=
  let o := getObj c h
  inheritKeep (o.waits.foldl (fun c w => tellRelease c h w true) (modObj c h (fun o => { o with waits := [] })))

/-- A registration ends without a release: a barrier is not joined, so the arrival is taken back, and the waiters behind the
first one of a semaphore are checked (07, Table 7.10; 09, R474, R476; log entry 24). -/
def endWait (c : Core) (h : Nat) (who : Waiter) : Core :=
  let c := modObj c h (fun o =>
    let l := o.waits.filter (fun w => decide (w.who ≠ who))
    { o with waits := l, value := if o.ty = .barrier then o.value - w64 (o.waits.length - l.length) else o.value })
  if (getObj c h).ty = .semaphore then serveObj c h else inheritKeep c

/-- Registrations of remote waiters: entries of the remote waiter table in use (14, R736). -/
def remoteWaits (c : Core) : Nat :=
  (c.st.objs.map (fun e => (e.2.waits.filter (fun w => match w.who with | .remote _ _ _ => true | _ => false)).length)).sum

/-- WAIT_ID of a sequencer's latest remote WAIT (14, R735). -/
def waitId (c : Core) (sq : Nat) : Nat := tget c.pp.waitIds 0 sq % 2048 * 32 + sq

/-! ## Access (06, R297) -/

/-- ACCESS of an object or receive queue allows a context (06, R297). -/
def accessOk (c : Core) (access owner x : Nat) : Bool :=
  match access with
  | 0 => owner == x
  | 1 => (getCtx c owner).part == (getCtx c x).part
  | _ => true

/-! ## Cookie fences (09, R477, R478) -/

/-- A change of a COOKIE's VALUE notifies the host (09, R477, R478). -/
def notifyCookie (c : Core) (h : Nat) : Core :=
  let o := getObj c h
  if o.ty ≠ .cookie ∨ o.npend = true then c
  else if c.st.notify.length < 256 then
    let c := modObj c h (fun o => { o with npend := true })
    { c with st := { c.st with notify := c.st.notify ++ [h] } }
  else irqSet (pageErr (cntAdd c pgSt 0x138 1) pgSt 0x12 h 0) pgSt 3

end Sys2Proof.Machine
end

