-- ==== Sys2Proof/Machine/Alarm.lean ====
section
/-! DEFINITION. Alarms of the Tally Unit: pending, armed, due, withdrawn and fired (02, R100, R101; 11, R592-R594). -/

namespace Sys2Proof.Machine

/-- Order of alarms: count from the Tally, then kind, then holder (11, R592, Table 11.3). -/
def alarmKey (c : Core) (a : Alarm) : Nat :=
  (a.at_ - now c + w64 (2 ^ 63)).toNat * 2 ^ 18 + a.kind * 2 ^ 14 + a.holder

/-- Alarms that hold a comparator keep it while they are among the 32 earliest; the others take the lowest free ones
(11, R592). -/
def armList (cmps : Tbl Alarm) : List Alarm → Tbl Alarm
  | [] => cmps
  | a :: t =>
    if cmps.any (fun e => decide (e.2 = a)) then armList cmps t
    else
      match (below 32 (fun n => (tfind cmps n).isNone)).head? with
      | some n => armList (tput cmps n a) t
      | none => cmps

/-- The 32 earliest pending alarms hold comparators (11, R592). -/
def rearm (c : Core) : Core :=
  let l := sortBy (alarmKey c) (c.tu.cmps.map (·.2) ++ c.tu.wait)
  let top := l.take 32
  { c with tu := { c.tu with
      cmps := armList (c.tu.cmps.filter (fun e => decide (e.2 ∈ top))) top
      wait := l.drop 32 } }

/-- An alarm becomes pending; one whose count is already reached is due (11, R593). -/
def alarmAdd (c : Core) (kind holder : Nat) (t : Word) : Core :=
  let a : Alarm := { at_ := t, kind := kind, holder := holder }
  if geW (now c) t then { c with tu := { c.tu with due := c.tu.due ++ [a] } }
  else rearm { c with tu := { c.tu with wait := c.tu.wait ++ [a] } }

/-- An alarm is of a kind and holder. -/
def alarmIs (kind holder : Nat) (a : Alarm) : Bool := a.kind == kind && a.holder == holder

/-- An alarm withdrawn because its holder ends (11, R594). -/
def alarmDrop (c : Core) (kind holder : Nat) : Core :=
  let t := c.tu
  rearm { c with tu := { t with
    cmps := t.cmps.filter (fun e => !alarmIs kind holder e.2)
    wait := t.wait.filter (fun a => !alarmIs kind holder a)
    due := t.due.filter (fun a => !alarmIs kind holder a) } }

/-- Alarms whose counts the Tally has passed become due, in their order; one without a comparator is late (02, R100; 11,
R593). -/
def alarmsPass (c : Core) : Core :=
  let hit (a : Alarm) : Bool := geW (now c) a.at_
  let t := c.tu
  let late := (t.wait.filter hit).map (fun (a : Alarm) => { a with late := true })
  let gone := sortBy (alarmKey c) ((t.cmps.map (·.2)).filter hit) ++ sortBy (alarmKey c) late
  let c := { c with tu := { t with
    cmps := t.cmps.filter (fun e => !hit e.2)
    wait := t.wait.filter (fun a => !hit a)
    due := t.due ++ gone } }
  let c := if late = [] then c else irqSet (cntAdd c pgTu 0x128 late.length) pgTu 4
  rearm c

/-- A due alarm fires: the alarm, and the state without it, unless firing is held by quiescing (02, R100; 03, Table 3.3). -/
def alarmFire (c : Core) (kind holder : Nat) : Option (Alarm × Core) :=
  if c.qsc.req then none
  else
    (ltake (alarmIs kind holder) c.tu.due).map (fun p =>
      let c := cntAdd { c with tu := { c.tu with due := p.2 } } pgTu 0x130 1
      (p.1, trace c 0x0D {} 0 0 p.1.at_ (kind * 0x10000 + holder)))

/-- The first whole multiple of a period in ns after a count (11, R857). -/
def nextMultiple (t : Word) (ns : Nat) : Word := w64 ((t.toNat / ns + 1) * ns)

/-- The next alarm of a periodic kind after a count; a period of 0 has none (11, R857). -/
def armPeriod (c : Core) (kind us : Nat) (t : Word) : Core :=
  if us = 0 then c else alarmAdd c kind 0 (nextMultiple t (us * 1000))

/-- The periodic alarms of the scheduler, the ST, the Marver and the Shears, armed once the Tally is loaded (02, R99). -/
def armPeriods (c : Core) : Core :=
  let c := armPeriod c 4 (regSchedPeriodUs c) (now c)
  let c := armPeriod c 5 (regStRealignPeriod c) (now c)
  let c := armPeriod c 6 (regMarvAdaptUs c) (now c)
  armPeriod c 7 (regShrPlaceEpochUs c) (now c)

end Sys2Proof.Machine
end

