-- ==== Sys2Proof/Machine/Objects.lean ====
section
/-! DEFINITION. The Object Table: held images of its blocks, changes, reference releases and the object query (06, R285-R296,
R313, R853). -/

namespace Sys2Proof.Machine

/-- Words of the held image of a block, once its read has returned (06, R289). -/
def otWords (c : Core) (b : Nat) : Option (List Word) := (tfind c.fe.ot b).bind (·.w)

/-- Entry of a handle, four words, if its block is in hand (06, Table 6.5). -/
def otEntry (c : Core) (h : Nat) : Option (List Word) := (otWords c (h / 8)).map (fun w => (w.drop (4 * (h % 8))).take 4)

/-- BASE of an entry. -/
def otBase (e : List Word) : Nat := wf (wat e 0) 0 52

/-- SIZE of an entry. -/
def otSize (e : List Word) : Nat := wf (wat e 1) 0 52

/-- OWNER of an entry. -/
def otOwner (e : List Word) : Nat := wf (wat e 2) 8 8

/-- REFS of an entry. -/
def otRefs (e : List Word) : Nat := wf (wat e 2) 32 32

/-- OWNER_GEN of an entry. -/
def otGen (e : List Word) : Nat := wf (wat e 3) 0 32

/-- FREE_INDEX of an entry. -/
def otIndex (e : List Word) : Nat := wf (wat e 3) 32 32

/-- STATE of an entry as the block treats it: 0 FREE, 1 LIVE, 2 DYING (06, R286). -/
def otState (c : Core) (e : List Word) : Nat :=
  let x := getCtx c (otOwner e)
  if (x.st = .live ∨ x.st = .teardown) ∧ otGen e = x.gen.toNat then wf (wat e 2) 0 8 else 0

/-- An entry as four words (06, Table 6.5). -/
def otMake (base size st owner part refs gen index : Nat) : List Word :=
  [w64 base, w64 size, w64 (st + owner * 2 ^ 8 + part * 2 ^ 16 + refs * 2 ^ 32), w64 (gen + index * 2 ^ 32)]

/-- An entry with STATE and REFS changed. -/
def otWith (e : List Word) (st refs : Nat) : List Word :=
  [wat e 0, wat e 1, w64 (st + wf (wat e 2) 8 24 * 2 ^ 8 + refs * 2 ^ 32), wat e 3]

/-- A changed block is written back, unless a write of it awaits its acknowledgement (06, R289). -/
def otFlush (c : Core) (b : Nat) : Core :=
  match tfind c.fe.ot b with
  | none => c
  | some x =>
    match x.w with
    | none => c
    | some w =>
      if x.dirty && !x.writing then
        let x := { x with dirty := false, writing := true, owed := x.effs, effs := [] }
        mpWrite { c with fe := { c.fe with ot := tput c.fe.ot b x } } (regObjOtBase c + 256 * b) 0 w (.otWrite b)
      else c

/-- Object counts of a context follow a change of an entry at once; its byte counts wait for the write (05, R225; 06, Table
6.12). -/
def otCount (c : Core) : OtEff → Core
  | .created x _ => modCtx c x (fun (y : Ctx) => { y with objLive := y.objLive + 1 })
  | .dying x _ => modCtx c x (fun (y : Ctx) => { y with objLive := y.objLive - 1, objDying := y.objDying + 1 })
  | .freed x _ => modCtx c x (fun (y : Ctx) => { y with objLive := y.objLive - 1 })
  | .gone x _ _ _ => modCtx c x (fun (y : Ctx) => { y with objDying := y.objDying - 1 })

/-- An entry whose block is in hand is changed, with the effects owed when the write is acknowledged (06, R289, R292). -/
def otChange (c : Core) (h : Nat) (e : List Word) (effs : List OtEff) : Core :=
  let b := h / 8
  match tfind c.fe.ot b with
  | none => c
  | some x =>
    match x.w with
    | none => c
    | some w =>
      let w := w.take (4 * (h % 8)) ++ e ++ w.drop (4 * (h % 8) + 4)
      let x := { x with w := some w, dirty := true, effs := x.effs ++ effs }
      otFlush (effs.foldl otCount { c with fe := { c.fe with ot := tput c.fe.ot b x } }) b

/-- A block's image is wanted: it is read unless one is held (06, R288-R290, R853). -/
def otNeed (c : Core) (b : Nat) (batch : Bool) : Core :=
  match tfind c.fe.ot b with
  | some x => { c with fe := { c.fe with ot := tput c.fe.ot b { x with batch := x.batch || batch } } }
  | none =>
    mpRead { c with fe := { c.fe with ot := tput c.fe.ot b { batch := batch } } } (regObjOtBase c + 256 * b) 0 256 (.otRead b)

/-- One reference released on an entry in hand (06, R290-R292, Table 6.6). -/
def otRelease (c : Core) (h : Nat) (e : List Word) : Core :=
  let st := otState c e
  let n := otRefs e - 1
  if st = 0 then c
  else if st = 2 ∧ n = 0 then otChange c h (otWith e 0 0) [.gone (otOwner e) (otSize e) h (otIndex e)]
  else otChange c h (otWith e st n) []

/-- Released references applied where the block is in hand; the other blocks are read (06, R290). -/
def relPump (c : Core) : Core :=
  c.fe.rels.foldl (fun c h =>
    match otEntry c h with
    | some e => otRelease c h e
    | none => otNeed { c with fe := { c.fe with rels := c.fe.rels ++ [h] } } (h / 8) false)
    { c with fe := { c.fe with rels := [] } }

/-- A query whose entry is in hand is answered: state, owner, partition, references, base, size and generation (06, R313). -/
def queryPump (c : Core) : Core :=
  match c.fe.querying with
  | none => c
  | some h =>
    match otEntry c h with
    | none => c
    | some e =>
      let l := [w64 (otState c e), w64 (otOwner e), w64 (wf (wat e 2) 16 4), w64 (otRefs e), w64 (otBase e), w64 (otSize e),
        w64 (otGen e)]
      irqSet { c with fe := { c.fe with query := some l, querying := none } } pgObj 2

/-- An image is still needed (06, R853). -/
def otKeep (c : Core) (b : Nat) (x : OtImg) : Bool :=
  x.batch || x.w.isNone || x.dirty || x.writing || c.fe.rels.any (fun h => h / 8 == b)
    || match c.fe.querying with | some h => h / 8 == b | none => false

/-- Releases and the query are applied, and images that nothing needs are dropped (06, R290, R313, R853). -/
def otPump (c : Core) : Core :=
  let c := queryPump (relPump c)
  { c with fe := { c.fe with ot := c.fe.ot.filter (fun e => otKeep c e.1 e.2) } }

/-- OBJ_SEL written: a query starts (06, R313). -/
def objQuery (c : Core) (h : Nat) : Core :=
  otPump (otNeed { c with fe := { c.fe with query := none, querying := some h } } (h / 8) false)

end Sys2Proof.Machine
end

