-- ==== Sys2Proof/Machine/Resp.lean ====
section
/-! DEFINITION. The response ring (05, Tables 5.6 to 5.8, R233-R237) and the release of a submission's references (05, R228). -/

namespace Sys2Proof.Machine

/-- Size of the response ring in records (05, Table 5.13). -/
def respSize (c : Core) : Nat := 2 ^ regFeRespSizeLog2 c

/-- Response record slots neither written and unread nor reserved (05, R235). -/
def respFree (c : Core) : Nat :=
  respSize c - ((r32 (regFeRespTail c) - r32 (regFeRespHead c)).toNat + c.fe.reserved)

/-- A record in four words (05, Table 5.6, R233). -/
def recWordsOf (c : Core) (r : Rec) (j : Nat) : List Word :=
  let phase := b2n (decide (j / respSize c % 2 = 0))
  [ w64 (r.kind + r.status * 2 ^ 8 + r.tag * 2 ^ 16 + r.index * 2 ^ 32), r.seq,
    w64 (r.cookie + r.queue * 2 ^ 32 + r.ctx * 2 ^ 48 + phase * 2 ^ 56), r.detail ]

/-- A record written at RESP_TAIL with one HIP WRITE of req_part 0 (05, R234). -/
def postRec (c : Core) (r : Rec) : Core :=
  let j := regFeRespTail c
  let c := regSet c pgFe 0x13C (r32 (j + 1))
  let c := if r.kind = 0x84 then { c with fe := { c.fe with last := tput c.fe.last j r.cookie } } else c
  hipWrite c (regFeRespBase c + 32 * (j % respSize c)) 0 (recWordsOf c r j) (.resp j)

/-- A record that no entry asked for takes a free slot, or waits (05, R236; 06, R306; 09, R479). -/
def pushRec (c : Core) (r : Rec) : Core :=
  if c.fe.waiting = [] ∧ 0 < respFree c then postRec c r
  else { c with fe := { c.fe with waiting := c.fe.waiting ++ [r] } }

/-- Waiting records written while slots are free. -/
def pumpRecs (c : Core) : List Rec → Core
  | [] => { c with fe := { c.fe with waiting := [] } }
  | r :: t => if 0 < respFree c then pumpRecs (postRec c r) t else { c with fe := { c.fe with waiting := r :: t } }

/-- Waiting records written into slots that have become free (05, R236). -/
def respPump (c : Core) : Core := pumpRecs c c.fe.waiting

/-- The record of an entry, in the slot that the FE reserved for it (05, R235, R237; 07, Table 5.7 REJECT_CNT); a load, patch or
unload record sets OP_DONE (08, R449). -/
def answerRec (c : Core) (r : Rec) : Core :=
  let c := { c with fe := { c.fe with reserved := c.fe.reserved - 1 } }
  let c := if r.status = 0 then c else cntAdd c pgFe 0x148 1
  let c := if r.kind = 0x18 ∨ r.kind = 0x19 ∨ r.kind = 0x1A then irqSet c pgGs 2 else c
  postRec c r

/-- The record of an entry with a status and a DETAIL; QUEUE is echoed only for queue operations and NOP. -/
def answer (c : Core) (h : Hdr) (status : Nat) (detail : Word := 0) (seq : Word := 0) (cookie : Nat := 0) : Core :=
  answerRec c
    { kind := h.op, status := status, tag := h.tag, index := h.index, seq := seq, cookie := cookie, queue := h.queue,
      ctx := h.ctx, detail := detail }

/-- DETAIL of two 32-bit numbers (05, Table 5.8). -/
def detail2 (lo hi : Nat) : Word := w64 (lo % 2 ^ 32 + hi % 2 ^ 32 * 2 ^ 32)

/-! ## Submissions -/

/-- Instances of a queue (08, Table 8.17). -/
def queueInsts (c : Core) (q : Nat) : List Nat :=
  (c.isr.insts.filter (fun e => e.2.st != .free && e.2.q == q)).map (·.1)

/-- Instances that a submission of a queue launched. -/
def subInsts (c : Core) (q sid : Nat) : List Nat := (queueInsts c q).filter (fun i => (getInst c i).sid == sid)

/-- A submission of a queue, waiting or started. -/
def findSub (c : Core) (q sid : Nat) : Option Sub :=
  ((getQ c q).wait ++ (getQ c q).subs).find? (fun s => s.sid == sid)

/-- A submission leaves its queue, and its references are released (05, R228; 06, R290). -/
def dropSub (c : Core) (q sid : Nat) : Core :=
  match findSub c q sid with
  | none => c
  | some s =>
    let c := modQ c q (fun x =>
      { x with wait := x.wait.filter (fun t => t.sid != sid), subs := x.subs.filter (fun t => t.sid != sid) })
    otPump { c with fe := { c.fe with rels := c.fe.rels ++ s.objs } }

/-- A change of a started submission. -/
def modSub (c : Core) (q sid : Nat) (f : Sub → Sub) : Core :=
  modQ c q (fun x => { x with subs := x.subs.map (fun s => if s.sid = sid then f s else s) })

/-- A submission whose program has ended, none of whose instances is left, and which is not held by a fault, releases its
references (05, R228). -/
def subDone (c : Core) (q sid : Nat) : Core :=
  match findSub c q sid with
  | some s => if s.ended && !s.faulted && (subInsts c q sid).isEmpty then dropSub c q sid else c
  | none => c

/-- The balance check of a queue that holds no running program and no live instance (09, R484). -/
def balCheck (c : Core) (q : Nat) : Core :=
  let x := getQ c q
  if x.cur.isNone && (queueInsts c q).isEmpty then
    let c := if regStCtrlTaskSyncCheck c && x.bal != 0 then
        irqSet (pageErr c pgSt 0x10 q (BitVec.ofInt 32 x.bal).toNat) pgSt 5
      else c
    modQ c q (fun x => { x with bal := 0 })
  else c

/-! ## Carve-outs (06, R274) -/

/-- A span of device memory lies in the carve-out of a context's partition (06, R274). -/
def inCarve (c : Core) (x addr len : Nat) : Bool :=
  let pg := (getCtx c x).part
  let base := regPartCarveBase c pg
  decide (base ≤ addr ∧ addr + len ≤ base + regPartCarveSize c pg)

end Sys2Proof.Machine
end

