-- ==== Sys2Proof/Machine/RouteEnd.lean ====
section
/-! DEFINITION. Routes of the Shears as other units see them: count and ABORT messages, the end of a route, and the start of the
next one (12, R655-R662, R665). -/

namespace Sys2Proof.Machine

/-- A change of a route. -/
def modRoute (c : Core) (id : Nat) (f : Route → Route) : Core :=
  { c with shr := { c.shr with routes := c.shr.routes.map (fun (r : Route) => if r.id = id then f r else r) } }

/-- A route that has not ended. -/
def findRoute (c : Core) (id : Nat) : Option Route := c.shr.routes.find? (fun (r : Route) => r.id == id)

/-- Partition of a route's accesses. -/
def routePart (c : Core) (r : Route) : Nat := (getCtx c r.ctx).part

/-- Payload of a count message (12, Table 12.9). -/
def countPay (r : Route) (abort : Bool) (capE : Nat) (rows headers : Nat) (digest at_ : Word) : List Word :=
  [w64 (r.seq * 2 ^ 48 + r.gen * 2 ^ 32 + b2n abort * 2 ^ 15 + capE), w64 (rows * 2 ^ 32 + headers * 2 ^ 16), digest, at_]

/-- CAP and E − 1 in their places of a count message's word 0. -/
def capE (cap e : Nat) : Nat := cap % 2 ^ 16 * 2 ^ 16 + e % 2 ^ 10

/-- A count message of a route (12, R657; 10, Table 10.2). -/
def countMsg (c : Core) (r : Route) (words : List Word) : Msg :=
  let g := (getGroup c r.group).cfg
  { rxq := rf g 0 12, tag := rf g 16 8 * 256 + r.seq % 256, words := words, srcDie := dieId c, srcKind := 1, srcId := r.inst
    ctx := r.ctx }

/-- An ABORT message to a peer whose link is UP.  CAP and E of a route whose descriptor was not read, and a Tally at landing
of a route that has not landed, are values that the manual leaves open (12, Table 12.11, R662). -/
def sendAbort (c : Core) (r : Route) (p : Peer) : Core :=
  if !linkUpTo c p.die then c
  else
    let k := if r.descW = [] then freeNat c else (capE r.cap (r.experts - 1), c)
    let t : Word × Core := match r.landed with | some w => (w, k.2) | none => freeWord k.2
    sendRemMsg t.2 .nobody p.die (countMsg c r (countPay r true (k.1 % 2 ^ 10 + k.1 / 2 ^ 16 % 2 ^ 16 * 2 ^ 16) 0 0 0 t.1))

/-- STATE of a route's plan written (12, Table 12.8, R660, Table 12.11). -/
def writePlanState (c : Core) (r : Route) (v : Nat) : Core :=
  match r.plan with
  | none => c
  | some a =>
    sendReq c
      { op := .write, port := .mp, addr := a + 8, part := routePart c r, len := 1, data := [w64 v], tag := .planState r.id }

/-- A route ends without agreement: ABORT messages to its peers, STATE 3 if the plan was written (12, Table 12.11). -/
def endRoute (c : Core) (r : Route) : Core :=
  let c := r.peers.foldl (fun c p => sendAbort c r p) c
  let c := writePlanState c r 3
  { c with shr := { c.shr with routes := c.shr.routes.filter (fun (x : Route) => x.id != r.id) } }

/-- The next queued route becomes COMPUTING when no route is: its descriptor is read.  A hold or quiescing starts none (12,
Table 12.11, R663, R665; 16, R801). -/
def routeKick (c : Core) : Core :=
  if c.shr.routes.any (fun (r : Route) => r.st == .computing) || !mayStart c then c
  else
    match c.shr.routes.find? (fun (r : Route) => r.st == .queued) with
    | none => c
    | some r =>
      let c := modRoute c r.id (fun r => { r with st := .computing })
      mpRead c r.desc (routePart c r) 256 (.routeIn r.id)

/-- A route dropped because its instance enters ABORTING or retires; one whose descriptor has not been read still takes its SEQ
when its turn comes (12, Table 12.11, R662). -/
def dropRoute (c : Core) (r : Route) : Core :=
  if r.bound then endRoute c r else modRoute c r.id (fun r => { r with dead := true })

/-- The routes of an instance dropped. -/
def dropRoutes (c : Core) (i : Nat) : Core :=
  let n := (getInst c i).serial
  let l := c.shr.routes.filter (fun (r : Route) => r.inst == i && r.serial == n && !r.dead)
  routeKick (l.foldl dropRoute c)

end Sys2Proof.Machine
end

