-- ==== Sys2Proof/Machine/Halt.lean ====
section
/-! DEFINITION. What stops a program or an instance: aborts, drops, the effects of Table 7.10, queue faults, the discard of
faulting submissions, and the retirement of instances (05, R257-R260, R851, R852; 07, R382; 08, R417, R447). -/

namespace Sys2Proof.Machine

/-! ## Issues of an instance -/

/-- Issues of the lanes that a test accepts: lane, issue ID and issue. -/
def issuesWhere (c : Core) (p : Issue → Bool) : List (Nat × Nat × Issue) :=
  c.lanes.flatMap (fun e => (e.2.issues.filter (fun x => p x.2)).map (fun x => (e.1, x.1, x.2)))

/-- Abort message (08, Table 8.13). -/
def abortMsg (x : Issue) (id reason : Nat) : Word :=
  w64 (x.eng + id * 2 ^ 16 + reason * 2 ^ 24 + (x.span - 1) * 2 ^ 28)

/-- An abort sent for an open issue that has not been sent one (02, R73, R76). -/
def abortIssue (c : Core) (lane id reason : Nat) : Core :=
  let x := tget (getLane c lane).issues {} id
  if x.abort.isSome then c
  else
    let c := emit c (.abort lane (abortMsg x id reason))
    modLane c lane (fun l => { l with issues := tmod l.issues {} id (fun x => { x with abort := some reason, abortAt := now c }) })

/-- Aborts sent for the issues that a test accepts; how many were sent. -/
def abortWhere (c : Core) (reason : Nat) (p : Issue → Bool) : Core × Nat :=
  let l := issuesWhere c (fun x => p x && x.abort.isNone)
  (l.foldl (fun c e => abortIssue c e.1 e.2.1 reason) c, l.length)

/-- An issue carries a task of an instance. -/
def issueOf (i : Nat) (x : Issue) : Bool := x.kind == .task && x.inst == i

/-- An issue is a save or a restore of a queue. -/
def issueSave (q : Nat) (x : Issue) : Bool :=
  match x.kind with | .save n => n == q | .restore n => n == q | _ => false

/-- The round and the waiting completions of an instance leave every combining queue (10, R548). -/
def cruDrop (c : Core) (i : Nat) : Core :=
  let n := (getInst c i).serial
  let mine (q : Cq) : Bool := (q.st == .open_ || q.st == .releasing) && q.inst == i && q.serial == n
  let clear (q : Cq) : Cq :=
    if mine q then
      { q with
        st := .idle, count := 0, target := 0, top := 0, open_ := [], waiting := [], closing := none, zero := false
        reading := none, stash := [], handed := false, acc := [] }
    else { q with waiting := q.waiting.filter (fun b => b.inst != i) }
  let k := (c.cru.cqs.filter (fun e => mine e.2)).length
  let c := if k = 0 then c else cntAdd c pgCru 0x148 k
  { c with cru := { c.cru with cqs := c.cru.cqs.foldl (fun t e => tset t {} e.1 (clear e.2)) c.cru.cqs } }

/-- Ready entries and held copies of an instance dropped: no further task of it is handed on or issued (05, R257; 08, R445). -/
def dropInst (c : Core) (i : Nat) : Core :=
  let keep (r : Ready) : Bool := r.inst != i
  let ln (l : Lane) : Lane := { l with
    ready := l.ready.filter keep
    wakes := l.wakes.filter (fun w => keep w.entry)
    resv := match l.resv with | some r => if keep r.1 then some r else none | none => none }
  let d := c.de
  let c := dropRoutes (cruDrop c i) i
  let headGone := match d.coord with | r :: _ => !keep r | [] => false
  { c with
    lanes := c.lanes.foldl (fun t e => tset t {} e.1 (ln e.2)) c.lanes
    de := { d with
      due := d.due.filter keep, hold := d.hold.filter keep, coord := d.coord.filter keep
      walks := d.walks.filter (fun w => w.1 != i)
      gangs := (d.gangs.filter (fun (g : Gang) => g.inst != i || g.left != g.lanes)).map
        (fun (g : Gang) => if g.inst = i ∧ g.left ≠ [] then { g with left := [], gone := true } else g)
      coordLanes := if headGone then [] else d.coordLanes }
    isr := { c.isr with insts := tmod c.isr.insts {} i (fun x => { x with waitCanes := [], heldCpl := [] }) } }

/-- An instance enters ABORTING; its issues are aborted for a reason, or drain where there is none (08, Table 8.14).  The
number is that of the aborts sent. -/
def instAbort (c : Core) (i : Nat) (reason : Option Nat) : Core × Nat :=
  let x := getInst c i
  if x.st = .free then (c, 0)
  else
    let c := if x.st = .aborting then c else dropInst (modInst c i (fun x => { x with st := .aborting })) i
    match reason with
    | some r => abortWhere c r (issueOf i)
    | none => (c, 0)

/-- Several instances enter ABORTING. -/
def instsAbort (c : Core) (l : List Nat) (reason : Option Nat) : Core × Nat :=
  l.foldl (fun (p : Core × Nat) i => let r := instAbort p.1 i reason; (r.1, p.2 + r.2)) (c, 0)

/-! ## Stopping a program (07, R382, Table 7.10) -/

/-- A record of a receive queue released; space returns in ring order (10, R520, R521). -/
def popReleased : List RingRec → List RingRec × Nat
  | [] => ([], 0)
  | r :: t => if r.st = .released then let p := popReleased t; (p.1, p.2 + r.len) else (r :: t, 0)

/-- A taken record released (10, R520, R521). -/
def rxRelease (c : Core) (rq n : Nat) : Core :=
  modRxq c rq (fun x =>
    let p := popReleased (x.recs.map (fun r => if r.n = n ∧ r.st = .taken then { r with st := .released } else r))
    { x with recs := p.1, used := x.used - p.2 })

/-- The record that a sequencer has taken is released (10, R520). -/
def rxGiveBack (c : Core) (sq : Nat) : Core :=
  match (getSq c sq).taken with
  | some (rq, n) => modSq (rxRelease c rq n) sq (fun s => { s with taken := none })
  | none => c

/-- An operation of the ST FIFO is a WAIT of a sequencer. -/
def isWaitOf (sq : Nat) : StOp → Bool
  | .wait s _ _ _ => s == sq
  | _ => false

/-- An operation of the ST FIFO is a SIGNAL or ADD of a sequencer. -/
def isSigOf (sq : Nat) : StOp → Bool
  | .signal (.cmd s _) _ _ => s == sq
  | .add (.cmd s _) _ _ => s == sq
  | _ => false

/-- Messages of a sequencer lose their sender: their answers are discarded (07, Table 7.10). -/
def forgetSend (c : Core) (sq : Nat) : Core :=
  let f (x : MsgFrom) : MsgFrom := if x = .sq sq then .nobody else x
  { c with
    mf := { c.mf with inbox := c.mf.inbox.map (fun e => (f e.1, e.2)), answers := c.mf.answers.filter (fun e => e.1 != sq) }
    pp := { c.pp with
      msgs := c.pp.msgs.map (fun m => { m with src := f m.src })
      msgHeld := c.pp.msgHeld.filter (fun e => decide (e.1 ≠ .sq sq)) } }

/-- Frames that a sequencer still holds for a die, withdrawn. -/
def dropHeld (c : Core) (die sq : Nat) : Core :=
  modPeer c die (fun p => { p with held := p.held.filter (fun e => decide (e.1 ≠ .sq sq)) })

/-- The registration of a sequencer's remote WAIT ends: a frame still held is withdrawn, else the object's die is told
(14, R739). -/
def cancelRemote (c : Core) (sq die h : Nat) : Core :=
  if (getPeer c die).held.any (fun e => decide (e.1 = .sq sq)) then dropHeld c die sq
  else if linkUpTo c die then linkOffer c die .unit_ [frSyncCancel h (waitId c sq)]
  else c

/-- The effect of a stop on the unfinished command at the head (07, R382, Table 7.10). -/
def stopCommand (c : Core) (sq : Nat) : Core :=
  let s := getSq c sq
  let c := { c with
    st := { c.st with releases := c.st.releases.filter (fun r => r.sq != sq) }
    pp := { c.pp with accepted := c.pp.accepted.filter (· != sq) } }
  match s.stall with
  | .waitObj h _ =>
    let st := c.st
    let c := { c with st := { st with
      fifo := st.fifo.filter (fun o => !isWaitOf sq o), offered := st.offered.filter (fun o => !isWaitOf sq o) } }
    endWait c h (.sq sq)
  | .waitRemote die h _ _ => cancelRemote c sq die h
  | .waitTally _ => alarmDrop c 3 sq
  | .send _ _ _ _ _ => forgetSend c sq
  | .sendBackoff _ _ _ _ _ => c
  | .launch => { c with isr := { c.isr with offers := c.isr.offers.filter (fun o => o.sq != sq) } }
  | .sig =>
    let c := { c with st := { c.st with offered := c.st.offered.filter (fun o => !isSigOf sq o) } }
    (c.pp.peers.map (·.1)).foldl (fun c d => dropHeld c d sq) c
  | _ => c

/-- The sequencer holds no program; its shape registers keep their values (07, R388; 10, R520). -/
def freeSq (c : Core) (sq : Nat) : Core :=
  let c := rxGiveBack c sq
  modSq c sq (fun s => { s with
    q := none, words := [], pc := 0, stall := .none, counted := false, inst := none, pred := none
    stepping := false, bpPass := false })

/-- A queue's program is over, however it came to be: its submission has ended, and the cache holds its words no more. -/
def programOver (c : Core) (q : Nat) : Core :=
  match (getQ c q).cur with
  | none => c
  | some sid =>
    modSub (modQ c q (fun x => { x with cur := none, demand := false, parked := false })) q sid
      (fun s => { s with ended := true, words := [] })

/-- A program ends on its sequencer: trace, and the submission's end (05, R228; 17, Table 17.3). -/
def programEnded (c : Core) (q how : Nat) : Core :=
  let x := getQ c q
  match x.cur with
  | none => c
  | some sid =>
    let seq := match findSub c q sid with | some s => s.seq | none => 0
    programOver (trace c 0x03 (ownQ c q) 0 0 seq how) q

/-- The save and restore of a queue's preemption end; its save and restore issues are aborted or drain (11, Table 11.8). -/
def endPreempt (c : Core) (q : Nat) (reason : Option Nat) : Core × Nat :=
  if (getPre c q).phase = .none then (c, 0)
  else
    let c := match (getPre c q).img.taken with
      | some (rq, n) => if (getSq c (getQ c q).sq).q = some q then c else rxRelease c rq n
      | none => c
    let c := inheritKeep (modPre c q (fun _ => {}))
    match reason with
    | some r => abortWhere c r (issueSave q)
    | none => (c, 0)

/-! ## Streams of a stopped queue (13, R690, R698) -/

/-- An issue is a transfer of a stream. -/
def issueOfStream (n : Nat) (x : Issue) : Bool := x.kind == .stream n

/-- An issue is a transfer of a queue's arm. -/
def issueStream (q : Nat) (x : Issue) : Bool := match x.kind with | .stream _ => x.q == q | _ => false

/-- A stream's arm is over: the pending arm loads, or the slot is free (13, R690, Table 13.3). -/
def strmNext (c : Core) (n : Nat) : Core :=
  match (getStream c n).pend with
  | some a =>
    let c := modStream c n (fun _ => { st := .loading, cur := a })
    mpRead c (regStrmBase c + 64 * n) 0 64 (.strmEntry n a.gen.toNat)
  | none => modStream c n (fun _ => {})

/-- A STOPPING stream whose last open transfer has closed (13, Table 13.3). -/
def strmStopped (c : Core) (n : Nat) : Core :=
  if (getStream c n).st = .stopping ∧ (issuesWhere c (issueOfStream n)).isEmpty then strmNext c n else c

/-- A queue that stops takes its pending arm with it, and its running arm stops (13, Table 13.3). -/
def stopStream (c : Core) (q n : Nat) (reason : Option Nat) : Core × Nat :=
  let x := getStream c n
  let keep (a : Arm) : Bool := a.q != q
  let c := modStream c n (fun x => { x with pend := x.pend.filter keep })
  if x.cur.q = q ∧ (x.st = .loading ∨ x.st = .active) then
    let c := modStream c n (fun x => { x with st := .stopping, redo := [] })
    let p := match reason with
      | some r => abortWhere c r (issueOfStream n)
      | none => (c, 0)
    (strmStopped p.1 n, p.2)
  else (c, 0)

/-- The streams of a queue stop; how many aborts were sent (13, Table 13.3). -/
def stopStreams (c : Core) (q : Nat) (reason : Option Nat) : Core × Nat :=
  c.strm.slots.foldl (fun (p : Core × Nat) e => let r := stopStream p.1 q e.1 reason; (r.1, p.2 + r.2)) (c, 0)

/-- A queue's program is stopped, whether it runs, waits, is parked or is preempted (07, R382; 11, Table 11.8). -/
def stopProgram (c : Core) (q how : Nat) : Core :=
  let x := getQ c q
  let c := if (getSq c x.sq).q = some q then freeSq (stopCommand c x.sq) x.sq else c
  programEnded c q how

/-! ## Leaving GUILTY (05, R260) -/

/-- A stalled command leaves its queue BLOCKED (07, Table 7.2, R330). -/
def stallBlocks (c : Core) (sq : Nat) : Stall → Bool
  | .none | .sig | .ldshape _ _ | .stshape | .point => false
  | .launch => c.isr.offers.any (fun o => o.sq == sq && o.room)
  | _ => true

/-- RUNNING or BLOCKED, by the command at the head. -/
def runState (c : Core) (sq : Nat) : QState := if stallBlocks c sq (getSq c sq).stall then .blocked else .running

/-- A progress event restarts a queue's timer and takes the timeout that stands (05, R254, R256). -/
def progress (c : Core) (q : Nat) : Core :=
  modQ c q (fun x => { x with progAt := now c, timeout := regFeqQTimeoutUs c (q / 32) (q % 32) })

/-- READY with a submission waiting, else IDLE (05, Table 5.12). -/
def restState (x : Queue) : QState := if x.wait = [] then .idle else .ready

/-- A queue leaves GUILTY: a parked program resumes, or the queue continues with its next submission (05, R260, R851). -/
def leaveGuilty (c : Core) (q : Nat) : Core :=
  let x := getQ c q
  let c := modQ c q (fun x => { x with held := false, fSource := 0, fCode := 0, fWord := 0, nAbort := 0, parked := false })
  if x.parked then progress (modQ c q (fun x => { x with st := runState c x.sq })) q
  else modQ c q (fun x => { x with st := restState x })

/-- Aborted work of a queue is still open: an ABORTING instance, a save or restore issue, or a transfer (05, R260). -/
def abortsOpen (c : Core) (q : Nat) : Bool :=
  (queueInsts c q).any (fun i => (getInst c i).st == .aborting) || !(issuesWhere c (issueSave q)).isEmpty
    || !(issuesWhere c (issueStream q)).isEmpty

/-- Discard of the faulting submissions of a GUILTY queue once every aborted issue is complete (05, R260, R852). -/
def checkGuilty (c : Core) (q : Nat) : Core :=
  let x := getQ c q
  if x.st = .guilty ∧ x.held = false ∧ abortsOpen c q = false then
    let bad := (x.subs.filter (·.faulted)).map (·.sid)
    let c := bad.foldl (fun c sid => subDone (modSub c q sid (fun s => { s with faulted := false, ended := true })) q sid) c
    if regFeqQCfgPolicy c (q / 32) (q % 32) then modQ c q (fun x => { x with held := true })
    else leaveGuilty c q
  else c

/-! ## Queue faults (05, R257-R259, R851, R852) -/

/-- A QUEUE_FAULT record (05, Tables 5.6, 5.8). -/
def faultRec (c : Core) (q source code word aborts : Nat) (seq : Word) : Rec :=
  { kind := 0x80, index := 0xFFFFFFFF, seq := seq, queue := q, ctx := (getQ c q).ctx
    detail := detail2 (source + code * 2 ^ 8 + word * 2 ^ 16) aborts }

/-- A submission is marked to be discarded with the fault. -/
def markFaulted (c : Core) (q sid : Nat) : Core := modSub c q sid (fun s => { s with faulted := true })

/-- The first fault of a queue (05, R257, R258, R851). -/
def firstFault (c : Core) (q source code word sid : Nat) : Core :=
  let x := getQ c q
  let seq := match findSub c q sid with | some s => s.seq | none => 0
  let mine := x.cur == some sid
  let away := (getPre c q).phase != .none
  let c := if mine || away then
      let c := match x.cur with | some n => markFaulted c q n | none => c
      stopProgram c q (0x100 * source + code)
    else
      let c := if x.cur.isNone && (getSq c x.sq).q == some q then freeSq c x.sq else c
      modQ c q (fun x => { x with parked := x.cur.isSome })
  let c := markFaulted c q sid
  let c := if x.wait.any (fun s => s.sid == sid) then dropSub c q sid else c
  let lost := match x.cur with | some n => if away then [n, sid] else [sid] | none => [sid]
  let p := endPreempt c q (some 1)
  let r := instsAbort p.1 ((queueInsts c q).filter (fun i => decide ((getInst c i).sid ∈ lost))) (some 1)
  let t := stopStreams r.1 q (some 1)
  let n := p.2 + r.2 + t.2
  let c := modQ t.1 q (fun x => { x with
    st := .guilty, held := false, fSource := source, fCode := code, fWord := word, nAbort := n
    pointFrom := none, pointLate := false, demand := false })
  let c := irqSet (regOr c (pgFeq q) 0x900 (r32 (2 ^ (q % 32)))) (pgFeq q) 2
  checkGuilty (balCheck (pushRec c (faultRec c q source code word n seq)) q) q

/-- A queue faults: its first fault, a further fault while GUILTY, or nothing while FREE or DESTROYING (05, R257, R852).
The submission is the faulting one of R851; an instance is named where it raised the fault. -/
def queueFault (c : Core) (q source code word sid : Nat) (inst : Option Nat) : Core :=
  match (getQ c q).st with
  | .free => c
  | .destroying => c
  | .guilty =>
    match inst with
    | none =>
      if (getQ c q).cur = some sid then
        checkGuilty (balCheck (stopProgram (markFaulted c q sid) q (0x100 * source + code)) q) q
      else c
    | some i =>
      if (getInst c i).st = .aborting then c
      else
        let c := (instAbort c i (some 1)).1
        let c := if ((getQ c q).subs.any (fun s => s.sid == sid && s.faulted)) then c
          else
            let c := if (getQ c q).cur = some sid then stopProgram c q (0x100 * source + code) else c
            markFaulted c q sid
        checkGuilty c q
  | _ => firstFault c q source code word sid

/-- A fault that an instance raises faults its launching queue (05, R851; 08, R448). -/
def instFault (c : Core) (i source code word : Nat) : Core :=
  let x := getInst c i
  if x.st = .free ∨ x.st = .aborting then c else queueFault c x.q source code word x.sid (some i)

/-- A command fault of the program on a sequencer (07, R384, R385). -/
def cmdFault (c : Core) (sq code : Nat) : Core :=
  let s := getSq c sq
  match s.q with
  | none => c
  | some q =>
    match (getQ c q).cur with
    | none => c
    | some sid => queueFault (irqSet c (pgSq sq) 2) q 2 code s.pc sid none

end Sys2Proof.Machine
end

