-- ==== Sys2Proof/Machine/RasOps.lean ====
section
/-! DEFINITION. Containments as the units ask for them: the waiting list, the start of a hold and the commit of a containment's
record (16, R800-R809). -/

namespace Sys2Proof.Machine

/-- Words of an error record with the Tally at its detection behind them (16, Table 16.7). -/
def errWordsAt (c : Core) (r : ErrRec) : List Reg := errWords r ++ [loReg (now c), hiReg (now c)]

/-- A record kept since its detection is committed (16, R808). -/
def commitLog (c : Core) (ws : List Reg) : Core := logWords c (ws.take 6) (joinReg (ws.getD 6 0) (ws.getD 7 0))

/-- FLAGS.CONTAINED taken out of a record (16, Table 16.5, Table 16.7). -/
def uncontained (ws : List Reg) : List Reg := (ws.getD 0 0 &&& ~~~4#32) :: ws.drop 1

/-- The QUEUE_FAULT record of a containment (16, R807). -/
def containRec (c : Core) (k : Contain) : Core :=
  match k.qf with
  | none => c
  | some (q, sid, code, task) =>
    let seq := match findSub c q sid with | some s => s.seq | none => 0
    pushRec c (faultRec c q 3 code task 0 seq)

/-- The hold of the first waiting teardown begins; faults of contexts that are no longer LIVE are only logged, and further
requests for their teardown join it (16, R800, Table 16.5; 06, R305). -/
def holdNext (c : Core) : List Contain → Core
  | [] => { c with ras := { c.ras with queue := [] } }
  | k :: t =>
    if (getCtx c k.ctx).st = .live then
      let c := { c with ras := { c.ras with queue := k :: t, hold := true, stepped := false, holdAt := c.tclk } }
      let c := if k.log.isSome then irqSet (cntAdd c pgRas 0x130 1) pgRas 4 else c
      containRec c k
    else
      let c := match k.log with | some ws => commitLog c (uncontained ws) | none => c
      let c := match k.hdr with
        | some h => modCtx c k.ctx (fun x => { x with hdrs := x.hdrs ++ [h] })
        | none => c
      holdNext c t

/-- The next hold begins unless one is in effect (16, R800, R803). -/
def startHold (c : Core) : Core := if c.ras.hold then c else holdNext c c.ras.queue

/-- A teardown asked for: it waits for its hold in order of detection (16, R800, R803). -/
def contain (c : Core) (k : Contain) : Core :=
  startHold { c with ras := { c.ras with queue := c.ras.queue ++ [k] } }

end Sys2Proof.Machine
end

