-- ==== Sys2Proof/Machine/QscOps.lean ====
section
/-! DEFINITION. The start of a quiesce sequence (03, R128, Table 3.3; 04, R206, R207). -/

namespace Sys2Proof.Machine

/-- Every issue without a completion is aborted for quiescing (03, Table 3.3, R848). -/
def quiesceAborts (c : Core) : Core := (abortWhere c 4 (fun _ => true)).1

/-- Quiescing starts in DRAIN or ABORT mode, or a DRAIN under way becomes an ABORT (03, Table 3.3; 04, R206, R207). -/
def quiesceStart (c : Core) (abort : Bool) : Core :=
  if c.qsc.req then
    if abort && !c.qsc.abort then quiesceAborts { c with qsc := { c.qsc with abort := true } } else c
  else
    let c := { c with qsc := { req := true, abort := abort, done := false, at_ := now c } }
    let c := regOr c pgQsc 0x100 1
    if abort then quiesceAborts c else c

end Sys2Proof.Machine
end

