-- ==== Sys2Proof/Machine/Det.lean ====
section
/-! DEFINITION. Lock-step entries, their exchange and comparison (15, R777-R787). -/

namespace Sys2Proof.Machine

/-- Entries are made and compared: RUN or DIVERGED (15, R778). -/
def lsOn (c : Core) : Bool := c.det.st == .run || c.det.st == .diverged

/-- The other die of the pair (15, Table 15.5). -/
def lsOther (c : Core) : Nat := if c.det.side = 1 then regDetLsCtrlSecondary c else regDetLsCtrlPrimary c

/-- The DE accepts no completion because lock-step has no room (15, R780, R781). -/
def lsFull (c : Core) : Bool :=
  lsOn c && (if c.det.side = 1 then decide (4096 ≤ c.det.table.length) else decide (1024 ≤ c.det.held.length))

/-- KEY of an entry (15, R779). -/
def lsKey (q lnum task repl : Nat) : Word := w64 (q * 2 ^ 55 + lnum * 2 ^ 39 + task * 2 ^ 23 + repl * 2 ^ 7)

/-- CHECK of an entry (15, R779). -/
def lsCheck (key : Word) (status : Nat) (sum : Word) : Reg := loReg (crc64 (wordsBytes [key, w64 status, sum]))

/-- Payload of an ENTRIES frame of at most three entries (15, Table 15.3). -/
def entriesPay : Nat → List LsEntry → Nat
  | _, [] => 0
  | b, e :: t => payPut b e.key.toNat + payPut (b + 8) e.check.toNat + entriesPay (b + 12) t

/-- An ENTRIES frame carries the oldest held entries to the primary, if the link can take it (15, R780; 14, R728). -/
def lsSend (c : Core) (n : Nat) : Core :=
  let die := lsOther c
  let es := c.det.held.take (min n 3)
  if es = [] ∨ linkUpTo c die = false ∨ (getPeer c die).held ≠ [] ∨ linkRoom c die 1 = false then c
  else
    let c := { c with det := { c.det with held := c.det.held.drop es.length } }
    linkOffer c die .unit_ [frLstep 2 es.length (entriesPay 20 es)]

/-- Frames of three entries sent while three are held and the link has room. -/
def lsPumpN : Nat → Core → Core
  | 0, c => c
  | n + 1, c =>
    if lsOn c && decide (c.det.side = 2 ∧ 3 ≤ c.det.held.length) then lsPumpN n (lsSend c 3) else c

/-- Frames of three entries sent (15, R780). -/
def lsPump (c : Core) : Core := lsPumpN (c.det.held.length / 3) c

/-- A divergence (15, R784, R785, R787). -/
def diverge (c : Core) (kind : Nat) (key : Word) (pchk schk : Reg) (pseq : Word) (varies : Bool) : Core :=
  let c := cntAdd c pgDet 0x138 1
  let d := c.det
  let c :=
    if !d.div.valid || decide (pseq.toNat < d.div.pseq.toNat) then
      { c with det := { d with div :=
        { key := key, pchk := pchk, schk := schk, pseq := pseq, tally := now c, valid := true, varies := varies, kind := kind } } }
    else c
  if d.st = .run then
    let c := irqSet { c with det := { c.det with st := .diverged } } pgDet 3
    if regDetLsCfgLsHalt c then
      let die := lsOther c
      let c := if linkUpTo c die then linkOffer c die .unit_ [frLstep 3 0 (payPut 24 pseq.toNat)] else c
      quiesceStart c false
    else c
  else c

/-- An entry meets the other die's entry of its KEY, or enters the match table (15, R781, R782). -/
def lsMatch (c : Core) (e : LsEntry) : Core :=
  match ltake (fun x => x.mine != e.mine && x.key == e.key) c.det.table with
  | none => { c with det := { c.det with table := c.det.table ++ [e] } }
  | some (x, t) =>
    let c := cntAdd { c with det := { c.det with table := t } } pgDet 0x130 1
    let p := if e.mine then e else x
    let s := if e.mine then x else e
    if p.check = s.check then c else diverge c 1 p.key p.check s.check p.pseq p.varies

/-- A received entry has its counterpart in the table (15, R781). -/
def lsHas (c : Core) (key : Word) : Bool := c.det.table.any (fun x => x.mine && x.key == key)

/-- The entry of a completion that the DE walks (15, R778-R781). -/
def lsNote (c : Core) (i task repl : Nat) (null : Bool) (sum : Word) (varies : Bool) : Core :=
  if !lsOn c then c
  else
    let x := getInst c i
    let key := lsKey x.q x.lnum task repl
    let e : LsEntry := { key := key, check := lsCheck key (b2n null) sum, pseq := c.det.pseq, mine := true, at_ := now c
                         varies := varies }
    let c := cntAdd c pgDet 0x128 1
    if c.det.side = 1 then lsMatch { c with det := { c.det with pseq := c.det.pseq + 1 } } e
    else lsPump { c with det := { c.det with held := c.det.held ++ [e] } }

end Sys2Proof.Machine
end

