-- ==== Sys2Proof/Machine/Fetch.lean ====
section
/-! DEFINITION. The fetch of ring entries, and the end of the entry in hand (05, R216-R223; 03, Table 3.3). -/

namespace Sys2Proof.Machine

/-- The FE fetches the next entries: at most 64, within 4 KiB (05, R218; 03, Table 3.3). -/
def feKick (c : Core) : Core :=
  let head := regFeRingHead c
  let size := 2 ^ regFeRingSizeLog2 c
  let left := (r32 (regFeRingTail c) - r32 head).toNat
  if !c.fe.decoding || !regFeCtrlEn c || c.fe.ringStop || c.fe.busy || c.fe.fetch.isSome || !c.fe.batch.isEmpty
    || hasReq c .ringFetch || c.qsc.req || left = 0 then c
  else
    let slot := head % size
    let n := min left (64 - slot % 64)
    hipRead { c with fe := { c.fe with fetch := some (head, n) } } (regFeRingBase c + 64 * slot) 0 (64 * n) .ringFetch

/-- The entry in hand is done: decoding goes on, or has stopped (05, R225, FE page). -/
def feDone (c : Core) : Core :=
  feKick { c with fe := { c.fe with busy := false, decoding := c.fe.decoding && regFeCtrlEn c } }

end Sys2Proof.Machine
end

