-- ==== Sys2Proof/Machine/Reset.lean ====
section
/-! DEFINITION. Reset, straps, fuses, bring-up and identity discovery (03; 02, R82-R89). -/

namespace Sys2Proof.Machine

/-! ## Reset inputs -/

/-- A reset input starts a reset; in reset only POR changes the cause (03, R113, R120). -/
def resetInput (cause : BitVec 4) (s : State) : Host.Outcome State Fault Refusal :=
  if s.rst.active then
    .next (if cause = 1 then { s with rst := { s.rst with next := 1 } } else s)
  else .next (startReset s cause none)

/-- POR_RESET (03, R113). -/
def execPorReset (s : State) : Host.Outcome State Fault Refusal := resetInput 1 s

/-- WARM_RESET (03, R113). -/
def execWarmReset (s : State) : Host.Outcome State Fault Refusal := resetInput 2 s

/-- SOURCE codes whose errors are critical: parity groups (16, Table 16.3). -/
def critParity (src : Nat) : Bool := decide (0x20 ≤ src ∧ src ≤ 0x2B)

/-- SOURCE codes whose uncorrectable errors reset the die (16, Table 16.2). -/
def critSram (src : Nat) : Bool := decide (src = 0x10 ∨ src = 0x12)

/-- The eight registers of a record as four words (03, Table 3.2). -/
def recWords (ws : List Reg) : List Word :=
  [joinReg (ws.getD 0 0) (ws.getD 1 0), joinReg (ws.getD 2 0) (ws.getD 3 0),
   joinReg (ws.getD 4 0) (ws.getD 5 0), joinReg (ws.getD 6 0) (ws.getD 7 0)]

/-- A critical error asks for a reset and stores its record (16, R798, R799, R809). -/
def criticalError (c : Core) (src : Nat) (loc : Reg) (syn : Nat) : Core :=
  let par := critParity src
  let r : ErrRec :=
    { kind := if par then 3 else 2, source := src, fatal := true, loc := loc.toNat, syn := if par then 0 else syn }
  let ws := errWords r
  let seq := c.ras.logSeq + 1
  let w0 := (ws.getD 0 0) ||| r32 (seq.toNat * 2 ^ 8 + b2n c.ras.lost * 32)
  { c with rstReq := some 6, fatalReq := some (recWords (w0 :: (ws.drop 1 ++ [loReg (now c), hiReg (now c)]))) }

/-- CRITICAL_ERROR_RESET (16, R798, R799). -/
def execCriticalErrorReset (src : BitVec 8) (loc : Reg) (syn : BitVec 8) (s : State) :
    Host.Outcome State Fault Refusal :=
  missionReset (fun c => if critParity src.toNat || critSram src.toNat then criticalError c src.toNat loc syn.toNat else c) s

/-! ## End of reset -/

/-- Fuse field BANK_TAG (03, Table 3.5). -/
def bankTag (b : BitVec 128) : Nat := fld b.toNat 120 8
/-- Device address of the identity area (03, Table 3.5). -/
def idAreaBase (c : Core) : Nat := fld c.bring.bank.toNat 76 36 * 0x10000
/-- MOD_MASK (03, Table 3.5). -/
def modMask (c : Core) : Nat := fld c.bring.bank.toNat 60 16
/-- DBG_FUSE_DIS (03, Table 3.5). -/
def dbgFuseDis (c : Core) : Bool := c.bring.bank.getLsbD 11
/-- STRAP_EFF.DEBUG_FORCE (03, R135). -/
def debugForce (c : Core) : Bool := c.bring.straps.debugForce && !dbgFuseDis c
/-- Lanes that LANE_GROUP enables (03, Table 3.4). -/
def laneCount (c : Core) : Nat := 16 * (c.bring.straps.laneGroup.toNat + 1)

/-- PEER_MASK after reset (14, R763). -/
def peerMaskReset (st : Straps) : Word :=
  match st.role.toNat with
  | 0 => 0
  | 1 => ~~~((1 : Word) <<< st.dieId.toNat)
  | _ => if st.dieId = 0 then 0 else 1

/-- END_OF_RESET: the straps and the fuse bank are sampled, the kept state of Table 3.2 is updated and bring-up stage 1
begins (03, R117, R122, R132, R138, R210). -/
def execEndOfReset (straps : Straps) (bank0 bank1 bank2 bank3 : BitVec 128) (s : State) :
    Host.Outcome State Fault Refusal :=
  if !s.rst.active then .next s
  else
    let bank := [bank0, bank1, bank2, bank3].getD straps.fusemapSel.toNat 0
    let unprog := bankTag bank != 0xB7
    let por := decide (s.rst.next = 1)
    let r := s.rst
    let rst : Rst := { r with
      active := false
      cause := r.next
      prev := if por then 0 else (r.prev <<< 4) ||| r.cause.setWidth 16
      count := if por then 0 else r.count + 1
      fatal := if por then [0, 0, 0, 0] else r.fatal
      epoch := if por then 0 else r.epoch + 1 }
    let c : Core := { resetCore with
      bring := { stage := 1, straps := straps, bank := if unprog then 0 else bank, unprog := unprog } }
    let c := regPut c pgPp 0x108 (loReg (peerMaskReset straps))
    let c := regPut c pgPp 0x10C (hiReg (peerMaskReset straps))
    let c := regPut c pgDet 0x100 (r32 (b2n straps.repro))
    let c := { c with tu := { c.tu with lock := s.pins.lock }, pp := { c.pp with linkUp := s.pins.linkUp, ownEpoch := rst.epoch } }
    .next { s with rst := rst, core := c }

/-! ## Identity discovery -/

/-- Engine ID of a lane position (02, Table 2.7); none for position 67 of an odd lane. -/
def engAt (lane pos : Nat) : Option Nat :=
  if pos < 64 then some (64 * lane + pos)
  else if pos < 66 then some (0x1000 + 2 * lane + (pos - 64))
  else if pos = 66 then some (0x1080 + lane)
  else if lane % 2 = 0 then some (0x10C0 + lane / 2) else none

/-- Class of a lane position (03, Table 3.8). -/
def posClass (pos : Nat) : Nat := if pos < 64 then 1 else if pos < 66 then 2 else if pos = 66 then 3 else 4

/-- Checks of an engine record of 16 words (03, Table 3.9). -/
def idCheck (ws : List Reg) (eng cls : Nat) : EngStatus :=
  let crc := crc32c ((ws.take 15).flatMap (fun w => toBytes w.toNat 4))
  let w0 := ws.getD 0 0
  if crc ≠ ws.getD 15 0 then .badRecord
  else if rf w0 16 16 ≠ 0x45E1 ∨ rf w0 8 8 ≠ 1 then .badRecord
  else if rf w0 0 4 ≠ cls then .wiring
  else if rf (ws.getD 1 0) 0 13 ≠ eng then .wiring
  else .present

/-- Registers paired into words. -/
def pairWords : List Reg → List Word
  | a :: b :: t => joinReg a b :: pairWords t
  | [a] => [joinReg a 0]
  | [] => []

/-- The count of engines of each status (04, Table 4.9). -/
def countEng (x : Sic) (st : EngStatus) (n : Nat) : Sic :=
  match st with
  | .present => { x with nPresent := x.nPresent + n }
  | .absent => { x with nAbsent := x.nAbsent + n }
  | .badRecord => { x with nBad := x.nBad + n }
  | .wiring => { x with nWiring := x.nWiring + n }
  | .disabled => { x with nDisabled := x.nDisabled + n }

/-- State of one lane's discovery. -/
def getIdLane (c : Core) (lane : Nat) : IdLane := tget c.sic.lanes {} lane

/-- Discovery of the engines of every enabled lane, and of the HBM stacks, is over (03, R158). -/
def sicDone (c : Core) : Bool :=
  (List.range (laneCount c)).all (fun k => (getIdLane c k).pos == 68) && c.sic.hbmLeft == 0

/-- SIC_STAT.ENG_DONE rises once discovery is over (04, Table 4.9). -/
def sicNote (c : Core) : Core := if sicDone c then { c with sic := { c.sic with engDone := true } } else c

/-- A position's discovery ends with a status; its record or zeros go to the identity area and the next position is asked
(03, R146-R148). -/
def idFinish (c : Core) (lane : Nat) (st : EngStatus) (ws : List Reg) : Core :=
  let l := getIdLane c lane
  let c := match engAt lane l.pos with
    | none => c
    | some e =>
      let c := modEng c e (fun x => { x with status := st })
      let c := { c with sic := countEng c.sic st 1 }
      let data := if st = EngStatus.present then pairWords ws else List.replicate 8 0
      mpWrite c (idAreaBase c + 64 * e) 0 data (.idArea e)
  let nxt := if l.pos = 66 ∧ lane % 2 = 1 then 68 else l.pos + 1
  let c := { c with sic := { c.sic with lanes := tset c.sic.lanes {} lane { pos := nxt, words := [] } } }
  let c := if nxt < 68 then emit c (.idReq lane nxt 0) else c
  sicNote c

/-- Stage 3 is in progress and the lane still reads identities. -/
def idActive (c : Core) (lane : Nat) : Bool :=
  c.bring.stage == 3 && decide (lane < laneCount c) && decide ((getIdLane c lane).pos < 68)

/-- ID_WORD_RESPONSE (03, R147). -/
def execIdWordResponse (lane : Fin 64) (word : Reg) (s : State) : Host.Outcome State Fault Refusal :=
  mission (fun c =>
    if !idActive c lane.val then c
    else
      let l := getIdLane c lane.val
      let ws := l.words ++ [word]
      if ws.length < 16 then
        let c := { c with sic := { c.sic with lanes := tset c.sic.lanes {} lane.val { l with words := ws } } }
        emit c (.idReq lane.val l.pos ws.length)
      else idFinish c lane.val (idCheck ws ((engAt lane.val l.pos).getD 0) (posClass l.pos)) ws) s

/-- ID_WORD_TIMEOUT (02, R84; 03, R147). -/
def execIdWordTimeout (lane : Fin 64) (s : State) : Host.Outcome State Fault Refusal :=
  mission (fun c => if !idActive c lane.val then c else idFinish c lane.val .absent []) s

/-- Result of an HBM stack record (03, R151): 0 absent, 1 present, 2 bad record. -/
def hbmResult (st : QStatus) (data : List Word) : Nat :=
  if st ≠ .ok then 2
  else if crc32c ((wordsBytes (data.take 8)).take 60) ≠ r32 (bytesAt data 60 4) then 2
  else if byteAt data 0 = 1 then 1 else if byteAt data 0 = 0 then 0 else 2

/-- HBM_RECORD_READ_DONE (03, R151). -/
def execHbmRecordReadDone (stack : Fin 8) (st : QStatus) (data : List Word) (s : State) :
    Host.Outcome State Fault Refusal :=
  mission (fun c =>
    match takeReq c (.hbmRec stack.val) with
    | none => c
    | some (r, c) =>
      let c := notePoison c st 5 r.addr
      let x := c.sic
      let v := hbmResult st data
      sicNote { c with sic := { x with
        hbmLeft := x.hbmLeft &&& ~~~((1 : BitVec 8) <<< stack.val)
        hbmStat := (x.hbmStat &&& ~~~((3 : BitVec 16) <<< (2 * stack.val))) ||| ((BitVec.ofNat 16 v) <<< (2 * stack.val)) } }) s

/-- The module whose read is under way: the lowest one left (03, R158). -/
def modNow (c : Core) : Option Nat := (below 16 (fun i => c.sic.modLeft.getLsbD i)).head?

/-- Bytes of a module's record (03, R153, R155). -/
def modBytes (m : Nat) : Nat := if m < 8 then 512 else 128

/-- A module read ends with a MOD_STAT code and the bytes for its identity slot; after the last one MOD_DONE rises
(03, R156-R158). -/
def modFinish (c : Core) (m : Nat) (code : Nat) (ws : List Word) : Core :=
  let x := c.sic
  let c := { c with sic := { x with
    modLeft := x.modLeft &&& ~~~((1 : BitVec 16) <<< m)
    modStat := (x.modStat &&& ~~~((3 : Reg) <<< (2 * m))) ||| ((r32 code) <<< (2 * m)) } }
  let c := mpWrite c (idAreaBase c + 0x48000 + 512 * m) 0 ws (.idArea (0x2000 + m))
  match modNow c with
  | some n => emit c (.i3cRead n)
  | none => irqSet { c with sic := { c.sic with modDone := true } } pgSic 2

/-- Result of a module's bytes (03, R154-R156): 1 present, 3 bad record. -/
def modResult (m : Nat) (ws : List Word) : Nat :=
  if m < 8 then
    if crc16 ((wordsBytes ws).take 510) = bytesAt ws 510 2 then 1 else 3
  else if crc32c ((wordsBytes ws).take 124) = r32 (bytesAt ws 124 4) ∧ bytesAt ws 0 2 = 0x4C4D ∧ byteAt ws 2 = 1 then 1
  else 3

/-- I3C_MODULE_READ_DONE (03, R157). -/
def execI3cModuleReadDone (module : Fin 16) (data : List Word) (s : State) : Host.Outcome State Fault Refusal :=
  mission (fun c =>
    if modNow c = some module.val then
      let ws := data.take (modBytes module.val / 8)
      modFinish c module.val (modResult module.val ws) ws
    else c) s

/-- I3C_ADDRESS_NACK (02, R89; 03, R156). -/
def execI3cAddressNack (module : Fin 16) (s : State) : Host.Outcome State Fault Refusal :=
  mission (fun c =>
    if modNow c = some module.val then modFinish c module.val 2 (List.replicate (modBytes module.val / 8) 0) else c) s

/-- ID_AREA_WRITE_ACK (03, R160; 16, R806). -/
def execIdAreaWriteAck (slot : Nat) (st : QStatus) (s : State) : Host.Outcome State Fault Refusal :=
  mission (fun c =>
    match takeReq c (.idArea slot) with
    | none => c
    | some (r, c) =>
      if st = .ok then c
      else logErr c { kind := 8, source := 5, loc := r.addr % 2 ^ 32, info := r.addr / 2 ^ 32 }) s

/-! ## Bring-up -/

/-- Engines of the lanes that LANE_GROUP disables: status DISABLED (03, R136). -/
def disableLanes (c : Core) : Core :=
  let ids := (List.range 64).flatMap (fun k =>
    if k < laneCount c then [] else (List.range 68).filterMap (fun p => engAt k p))
  let c := { c with engs := ids.foldl (fun t e => tset t {} e { status := .disabled }) c.engs }
  { c with sic := countEng c.sic .disabled ids.length }

/-- Stage 3 begins: the identity, HBM and module reads start (03, R146, R151, R158; 02, R86). -/
def startDiscovery (c : Core) : Core :=
  let c := disableLanes c
  let c := (List.range (laneCount c)).foldl (fun c k => emit c (.idReq k 0 0)) c
  let c := { c with sic := { c.sic with hbmLeft := 0xFF } }
  let c := (List.range 8).foldl (fun c k => mpRead c (idAreaBase c + 0x44000 + 64 * k) 0 64 (.hbmRec k)) c
  if modMask c = 0 then irqSet { c with sic := { c.sic with modDone := true } } pgSic 2
  else
    let c := { c with sic := { c.sic with modLeft := BitVec.ofNat 16 (modMask c) } }
    let c := emit (emit c (.i3cCcc 0)) (.i3cCcc 1)
    match modNow c with
    | some n => emit c (.i3cRead n)
    | none => c

/-- Partners that PEER_MASK names enter HELLO (14, Table 14.6, first row). -/
def startLinks (c : Core) : Core :=
  let c := { c with pp := { c.pp with on := true } }
  if role c = 0 then c
  else (bitsOf (w64 (regPpPeerMask c))).foldl
    (fun c d => if d = dieId c then c else modPeer c d (fun p => { p with st := .hello, epoch := none }))
    (armPeriod c 8 (regPpTimeHbUs c) (now c))

/-- Bring-up moves from a stage to the next (03, Table 3.6). -/
def stageEnd (c : Core) : Core :=
  let n := c.bring.stage
  let c := { c with bring := { c.bring with stage := n + 1 } }
  match n with
  | 1 => armPeriods c
  | 2 => startDiscovery c
  | 3 => { c with lanesUp := true }
  | 4 => startLinks c
  | 6 => irqSet c pgSrst 2
  | _ => c

/-- BRINGUP_STAGE_END: the stage in progress completes (03, R139, R141; R123 at the start of the Punty stage; 04, R209).
Stage 3 ends only once engine and HBM discovery are over (03, R158). -/
def execBringupStageEnd (s : State) : Host.Outcome State Fault Refusal :=
  if s.rst.active || s.pins.scan then .next s
  else
    let n := s.core.bring.stage
    if n = 7 ∨ (n = 3 ∧ s.core.sic.engDone = false) then .next s
    else
      let rst := if n = 4 ∧ s.rst.cause = 1 then { s.rst with epoch := r32 (fld (now s.core).toNat 16 32) } else s.rst
      let mb := if n = 2 then { s.mbist with undef := false } else s.mbist
      let c := { s.core with pp := { s.core.pp with ownEpoch := rst.epoch } }
      .next { s with rst := rst, mbist := mb, core := eventMsgs s.core (stageEnd c) }

/-- SCAN_MODE: tm_scan_mode takes a level (02, R112).  While it is high, the commands of the mission ports change nothing;
when it falls outside reset, the units see the pin levels that stand. -/
def execScanMode (high : Bool) (s : State) : Host.Outcome State Fault Refusal :=
  let c := s.core
  let c := if high || s.rst.active then c
    else { c with tu := { c.tu with lock := s.pins.lock }, pp := { c.pp with linkUp := s.pins.linkUp } }
  .next { s with pins := { s.pins with scan := high }, core := c }

end Sys2Proof.Machine
end

