-- ==== Sys2Proof/Machine/Operands.lean ====
section
/-! DEFINITION. The fields of a command word, its operand forms and the checks made before it takes effect
(07, R321-R323, R854, Tables 7.2 to 7.9). -/

namespace Sys2Proof.Machine

/-- Opcode of a command word. -/
def opOf (w : Word) : Nat := wf w 56 8

/-- VARIES of a command word. -/
def variesOf (w : Word) : Bool := wbit w 55

/-- Bits `hi` to `lo`, all ones. -/
def ones (hi lo : Nat) : Word := w64 (2 ^ (hi + 1) - 2 ^ lo)

/-- Bits that Tables 7.3 to 7.9 list for an opcode; none where Table 7.2 does not list it (07). -/
def listedBits : Nat → Option Word
  | 0x01 | 0x05 => some 0
  | 0x02 => some (ones 54 54)
  | 0x03 => some (ones 54 54 ||| ones 25 0)
  | 0x04 => some (ones 15 0)
  | 0x10 => some (ones 54 54 ||| ones 51 0)
  | 0x11 => some (ones 54 0)
  | 0x20 => some (ones 54 50 ||| ones 47 0)
  | 0x21 | 0x22 => some (ones 54 53 ||| ones 47 0)
  | 0x30 => some (ones 54 0)
  | 0x31 | 0x32 => some (ones 54 45 ||| ones 43 0)
  | 0x33 => some (ones 54 42 ||| ones 31 0)
  | 0x38 => some (ones 10 0)
  | 0x39 => some (ones 54 47 ||| ones 42 0)
  | 0x40 => some (ones 54 0)
  | 0x41 => some (ones 54 45 ||| ones 43 0)
  | 0x42 => some (ones 54 50 ||| ones 47 32)
  | 0x48 => some (ones 54 29)
  | 0x49 => some (ones 54 5)
  | _ => none

/-- Bits of the operand field that become reserved when it names a register (07, R323; log entry 21 for ASRC). -/
def regFormBits (op : Nat) (w : Word) : Word :=
  if !wbit w 54 then 0
  else
    match op with
    | 0x03 | 0x20 | 0x21 | 0x22 => ones 25 4
    | 0x30 => ones 47 4
    | 0x31 | 0x32 => if wbit w 53 then ones 8 4 else ones 43 4
    | 0x33 | 0x39 => ones 31 4
    | _ => 0

/-- BAD_RESERVED: a reserved bit is not zero (07, R322, R323). -/
def badReserved (w : Word) : Bool :=
  match listedBits (opOf w) with
  | none => false
  | some m => w &&& ones 54 0 &&& ~~~m != 0 || w &&& regFormBits (opOf w) w != 0

/-- BAD_OPERAND that the word alone shows: R854 and the ranges of the commands' own fields (07). -/
def badField (w w1 : Word) (descCount : Nat) : Bool :=
  let src := wbit w 54
  match opOf w with
  | 0x03 => !src && decide (60000000 < wf w 0 26)
  | 0x11 => wbit w 52 && w1 &&& ones 63 4 != 0
  | 0x20 =>
    let kind := wf w 50 3
    if kind = 0 then !wbit w 53 && wf w 26 6 != 0
    else decide (3 < kind) || wf w 32 16 != 0 || wf w 26 6 != 0 || wbit w 53 || (kind == 1 && !src) || (kind == 2 && src)
      || (kind == 3 && wf w 0 26 != 0)
  | 0x21 | 0x22 => !wbit w 53 && wf w 26 6 != 0
  | 0x31 | 0x32 =>
    decide (15 < wf w 49 4 + wf w 45 4)
      || (wbit w 53 && (wf w 9 35 != 0 || (!src && decide (511 < wf w 0 9 + wf w 45 4))))
  | 0x33 => decide (0xD ≤ wf w 50 4)
  | 0x39 => decide (6 ≤ wf w 51 3)
  | 0x40 => !wbit w 52 && wf w 44 8 != 0
  | 0x41 => decide (10 ≤ wf w 45 4)
  | 0x42 => (!src && wf w 50 4 != 0) || decide (descCount ≤ wf w 32 16)
  | 0x48 =>
    wf w 41 8 == 0 || (List.range 8).any (fun i => wbit w (41 + i) && decide (4095 < wf w 29 12 + i))
  | 0x49 => decide (15 < wf w 31 4 + wf w 53 2) || (!wbit w 5 && wf w 47 6 != 0)
  | _ => false

/-- BAD_TARGET: the TARGET of a JUMP or BRANCH is not below PROG_WORDS (07, R331). -/
def badTarget (w : Word) (len : Nat) : Bool :=
  match opOf w with
  | 0x38 => decide (len ≤ wf w 0 11)
  | 0x39 => decide (len ≤ wf w 32 11)
  | _ => false

/-- The operand of a command with a SRC field of so many immediate bits (07, R323). -/
def srcOperand (regs : Tbl Word) (w : Word) (bits : Nat) : Word :=
  if wbit w 54 then tget regs 0 (wf w 0 4) else w64 (wf w 0 bits)

/-- COND of a BRANCH (07, Table 7.3). -/
def branchCond (cond : Nat) (a b : Word) : Bool :=
  match cond with
  | 0 => a == b
  | 1 => a != b
  | 2 => decide (a.toNat < b.toNat)
  | 3 => decide (b.toNat ≤ a.toNat)
  | 4 => a &&& b != 0
  | _ => a &&& b == 0

/-- A SOP function; none for CDIV by zero (07, Table 7.5, R343). -/
def sopValue (fn : Nat) (a b : Word) : Option Word :=
  match fn with
  | 0x0 => some b
  | 0x1 => some (a + b)
  | 0x2 => some (a - b)
  | 0x3 => some (a * b)
  | 0x4 => if b = 0 then none else some (w64 ((a.toNat + b.toNat - 1) / b.toNat))
  | 0x5 => some (a <<< (b.toNat % 64))
  | 0x6 => some (a >>> (b.toNat % 64))
  | 0x7 => some (a &&& b)
  | 0x8 => some (a ||| b)
  | 0x9 => some (a ^^^ b)
  | 0xA => some (if a.toNat ≤ b.toNat then a else b)
  | 0xB => some (if a.toNat ≤ b.toNat then b else a)
  | _ => some (w64 (b.toNat % 2 ^ 32 * 2 ^ 32 + a.toNat % 2 ^ 32))

end Sys2Proof.Machine
end

