-- ==== Sys2Proof/Machine/Save.lean ====
section
/-! DEFINITION. Demands, preemption points taken, and saves up to the point where a queue is SAVED (11, R605-R616). -/

namespace Sys2Proof.Machine

/-- A queue can take a sequencer: READY, or SAVED with no demand against it (05, R242; 11, R613). -/
def demandFrom (c : Core) (v q : Nat) : Bool :=
  let x := getQ c q
  q != v && x.sq == (getQ c v).sq && decide (eprio c q < eprio c v)
    && (x.st == .ready || (x.st == .preempted && (getPre c q).phase == .saved))

/-- A demand stands against a queue (11, R605). -/
def demandOn (c : Core) (v : Nat) : Bool :=
  let x := getQ c v
  (x.st == .running || x.st == .blocked) && regSchedCtrlPreemptEn c && (r32 (regSchedVictimMask c)).getLsbD (eprio c v)
    && (x.demand || c.queues.any (fun e => demandFrom c v e.1))

/-- A demand stands against a SAVED queue: it would be preempted again at once (11, R613). -/
def demandOnSaved (c : Core) (v : Nat) : Bool :=
  regSchedCtrlPreemptEn c && (r32 (regSchedVictimMask c)).getLsbD (eprio c v) && c.queues.any (fun e => demandFrom c v e.1)

/-! ## The save area (11, Table 11.6) -/

/-- An optional pair in one word: valid bit, two numbers (log entry 20). -/
def optWord (o : Option (Nat × Nat)) : Word :=
  match o with | some (a, b) => w64 (2 ^ 63 + a % 2 ^ 16 * 2 ^ 40 + b % 2 ^ 40) | none => 0

/-- The pair that a word stands for. -/
def wordOpt (w : Word) : Option (Nat × Nat) := if wbit w 63 then some (wf w 40 16, wf w 0 40) else none

/-- Sequencer state at offset 0x100, 32 words: the manual names its contents and not their places (log entry 20). -/
def seqStateWords (s : Sq) : List Word :=
  [w64 (s.pc + s.rot * 2 ^ 16 + b2n s.counted * 2 ^ 24 + s.steps * 2 ^ 32)] ++ (List.range 16).map (fun i => tget s.s 0 i)
    ++ [optWord s.inst, optWord s.pred, optWord s.taken, w64 s.instGraph] ++ List.replicate 11 0

/-- Staging block at offset 0x200. -/
def stagingWords (s : Sq) : List Word := (List.range 64).map (fun i => tget s.staging 0 i)

/-- Scratch at offset 0x400. -/
def scratchWords (s : Sq) : List Word := (List.range 512).map (fun i => tget s.scratch 0 i)

/-- Live-set directory at offset 0x1400, 64 entries of four words. -/
def directoryWords (sets : List LiveSet) : List Word :=
  (List.range 64).flatMap (fun i =>
    match sets[i]? with
    | some x => [w64 x.data, w64 x.bytes, x.mask, w64 x.restDesc]
    | none => [0, 0, 0, 0])

/-- The first 31 words of the save header. -/
def headerWords (c : Core) (q : Nat) (p : Preempt) : List Word :=
  let ctx := (getQ c q).ctx
  let bytes := if p.full then popc p.mask * 2 ^ 25 else (p.sets.map (·.bytes)).sum
  [ w64 (0x56415345 + 2 ^ 32 + (if p.full then 2 else 1) * 2 ^ 48 + p.sets.length * 2 ^ 56),
    w64 (q + ctx * 2 ^ 16 + (getCtx c ctx).gen.toNat * 2 ^ 32), p.at_, w64 bytes, if p.full then p.mask else 0 ]
    ++ List.replicate 26 0

/-- What SAVE_CRC covers: the header's first 248 bytes and offsets 0x100 to 0x1BFF (11, Table 11.6). -/
def saveCrc (head rest : List Word) : Word := crc64 (wordsBytes (head ++ rest))

/-- The words at offsets 0x100 to 0x1BFF as saved. -/
def savedRest (p : Preempt) : List Word :=
  seqStateWords p.img ++ stagingWords p.img ++ scratchWords p.img ++ directoryWords p.sets

/-! ## The set to save (11, R607, R609, R610) -/

/-- A live set of a graph's table; none where the number lies past the table. -/
def liveSetOf (c : Core) (g id : Nat) : Option (List Word × LiveSet) :=
  let x := getImg c g
  let e := (x.live.drop (8 * id)).take 8
  if e.length = 8 then
    some (e, { id := id, bytes := (wat e 0).toNat, mask := wat e 2, saveDesc := x.pgiAddr + (wat e 3).toNat
               restDesc := x.pgiAddr + (wat e 4).toNat })
  else none

/-- Live sets as a union, without repeats, empty sets left out. -/
def unionSets (l : List LiveSet) : List LiveSet :=
  l.foldl (fun a x => if x.bytes = 0 ∨ x ∈ a then a else a ++ [x]) []

/-- Data addresses, each at a 4 KiB boundary in directory order (11, Table 11.6). -/
def placeSets (base : Nat) : List LiveSet → List LiveSet
  | [] => []
  | x :: t => { x with data := base } :: placeSets (base + (x.bytes + 4095) / 4096 * 4096) t

/-- Engines of a lane mask that a save needs are PRESENT (11, R609). -/
def streamsPresent (c : Core) (m : Word) : Bool :=
  (bitsOf m).all (fun k => let e := getEng c (0x1080 + k); e.status == EngStatus.present && !e.masked)

/-- Open issues of tasks with POINT set, of the instances of a queue, with the task's LIVESET (11, R608). -/
def pointIssues (c : Core) (q : Nat) : List (Nat × Nat × Issue) :=
  issuesWhere c (fun x => x.kind == .task && x.q == q && x.point && (getInst c x.inst).st != .aborting)

/-- The set to save at a point, or the refusal's error code (11, R607, R609, R610). -/
def pointSets (c : Core) (q sq liveset : Nat) : Except Nat (List LiveSet) :=
  let s := getSq c sq
  let tasks := (pointIssues c q).map (fun e => ((getInst c e.2.2.inst).graph, e.2.2.liveset))
  let names := match s.inst with
    | some _ => (s.instGraph, liveset) :: tasks
    | none => tasks
  if s.inst.isNone && liveset != 0 then .error 0x11
  else
    let found : List (Option (List Word × LiveSet)) := names.map (fun n => liveSetOf c n.1 n.2)
    let good (o : Option (List Word × LiveSet)) : Bool :=
      match o with
      | some (e, x) => (e.drop 5).all (· == 0) && (bitsOf x.mask).all (fun k => decide (k < 16 * (c.bring.straps.laneGroup.toNat + 1)))
      | none => false
    let sets : List LiveSet := unionSets (found.filterMap (fun o => o.map (·.2)))
    if found.any (fun o => !good o) || decide (64 < sets.length) then .error 0x11
    else
      let x := getCtx c (getQ c q).ctx
      let placed := placeSets (x.saveAddr.toNat + 0x2000) sets
      let need := 8192 + (sets.map (fun x => (x.bytes + 4095) / 4096 * 4096)).sum
      if x.saveSize.toNat < need then .error 0x12
      else if sets.any (fun x => !streamsPresent c x.mask) then .error 0x13
      else .ok placed

/-! ## Steps of a save (11, Table 11.7) -/

/-- A preemption phase entered: trace (17, Table 17.3). -/
def enterPhase (c : Core) (q : Nat) (ph : Phase) : Core :=
  let code := match ph with | .none => 0 | .draining => 1 | .saving => 2 | .saved => 3 | .restoring => 4
  let c := modPre c q (fun p => { p with phase := ph })
  trace c 0x0C (ownQ c q) 0 0 (getPre c q).at_ code

/-- Partition of a queue's context. -/
def qPart (c : Core) (q : Nat) : Nat := (getCtx c (getQ c q).ctx).part

/-- Save address of a queue's context. -/
def saveAt (c : Core) (q : Nat) : Nat := (getCtx c (getQ c q).ctx).saveAddr.toNat

/-- The issues that a save or a restore needs: lane and index of the set (11, Table 11.7, R616). -/
def saveIssues (p : Preempt) : List (Nat × Nat) :=
  if p.full then (bitsOf p.mask).map (fun k => (k, 0))
  else (List.range p.sets.length).flatMap (fun i => (bitsOf ((p.sets.getD i {}).mask)).map (fun k => (k, i)))

/-- Steps 1 and 2 of Table 11.7: the program stops after the point, its state goes to the save area, and the lanes stop
issuing the queue's instances (11, R611, R616). -/
def takeSave (c : Core) (q sq : Nat) (full : Bool) (sets : List LiveSet) : Core :=
  let s := { getSq c sq with stall := .none }
  let x := getQ c q
  let p : Preempt :=
    { full := full, mask := if full then x.ptLanes else 0, sets := sets, seqLeft := 3
      img := { s with words := [] }, pc := s.pc, at_ := now c }
  let c := modPre c q (fun _ => p)
  let c := modQ c q (fun x => { x with st := .preempted, demand := false, pointFrom := none })
  let c := cntAdd c pgSched 0x168 1
  let c := if full then cntAdd c pgSched 0x170 1 else c
  let c := if full then c else ((pointIssues c q).foldl (fun c e => abortIssue c e.1 e.2.1 5) c)
  let a := saveAt c q
  let c := mpWrite c (a + 0x100) (qPart c q) (seqStateWords s) (.saveSeq q)
  let c := mpWrite c (a + 0x200) (qPart c q) (stagingWords s) (.saveSeq q)
  let c := mpWrite c (a + 0x400) (qPart c q) (scratchWords s) (.saveSeq q)
  let c := modSq c sq (fun s => { s with stall := .point })
  enterPhase c q .draining

/-- Open issues of the instances of a queue, aborted ones included (05, Table 5.14 Q_OPEN). -/
def openTasks (c : Core) (q : Nat) : Nat := (issuesWhere c (fun x => x.kind == .task && x.q == q)).length

/-- Step 5: the directory write (11, Table 11.7). -/
def writeDirectory (c : Core) (q : Nat) : Core :=
  let p := getPre c q
  mpWrite (modPre c q (fun p => { p with step := 1 })) (saveAt c q + 0x1400) (qPart c q) (directoryWords p.sets) (.saveDir q)

/-- Step 5, after the directory's acknowledgement: the header write. -/
def writeHeader (c : Core) (q : Nat) : Core :=
  let p := getPre c q
  let h := headerWords c q p
  mpWrite (modPre c q (fun p => { p with step := 2 })) (saveAt c q) (qPart c q) (h ++ [saveCrc h (savedRest p)]) (.saveHdr q)

/-- A saturated count of microseconds since a Tally count. -/
def spanUs (c : Core) (t : Word) : Nat := sat ((now c - t).toNat / 1000) 0xFFFF

/-- A save moves from DRAINING to SAVING, and from its last issue to the directory write (11, Table 11.7). -/
def saveAdvance (c : Core) (q : Nat) : Core :=
  let p := getPre c q
  match p.phase with
  | .draining =>
    if p.seqLeft = 0 ∧ openTasks c q = 0 then
      let c := enterPhase (modPre c q (fun p => { p with toIssue := saveIssues p, from_ := now c })) q .saving
      if saveIssues p = [] then writeDirectory c q else c
    else c
  | .saving =>
    if p.step = 0 ∧ p.toIssue = [] ∧ (issuesWhere c (issueSave q)).isEmpty then
      if p.redo then (if c.qsc.req then c else modPre c q (fun p => { p with redo := false, toIssue := saveIssues p }))
      else writeDirectory c q
    else c
  | _ => c

/-- A full save is owed at a command boundary of a flagged queue with a demand against it (11, R616; 17, R832). -/
def fullSaveDue (c : Core) (q sq : Nat) : Bool :=
  let x := getQ c q
  x.pointLate && demandOn c q && !(getSq c sq).halted && mayStart c

/-- A full save taken, unless it cannot be built (11, R609, R616). -/
def takeFullSave (c : Core) (q sq : Nat) : Core :=
  let x := getQ c q
  let k := getCtx c x.ctx
  let refuse (code : Nat) : Core := irqSet (pageErr c pgSched code q 0) pgSched 7
  if k.saveSize.toNat < 8192 + popc x.ptLanes * 2 ^ 25 then refuse 0x12
  else if !streamsPresent c x.ptLanes then refuse 0x13
  else takeSave (stopCommand c sq) q sq true []

/-- A full save that is owed taken while a WAIT or SELECT waits (11, R616). -/
def lateSave (c : Core) (sq : Nat) : Core :=
  let s := getSq c sq
  let waits := match s.stall with
    | .waitObj _ _ | .waitRemote _ _ _ _ | .waitTally _ | .waitInst _ | .select _ _ _ _ => true
    | _ => false
  match s.q with
  | some q => if waits && !(c.st.releases.any (fun r => r.sq == sq)) && fullSaveDue c q sq then takeFullSave c q sq else c
  | none => c

end Sys2Proof.Machine
end

