-- ==== Sys2Proof/Machine/SqOps.lean ====
section
/-! DEFINITION. How a sequencer begins a command and moves on from it (07, R315-R323, R855; 17, R831-R834). -/

namespace Sys2Proof.Machine

/-! ## Queue state of a program -/

/-- The point timer of a queue runs while the queue is RUNNING or BLOCKED and an issue of its instances is open (11, R615). -/
def pointTimer (c : Core) (q : Nat) : Core :=
  let x := getQ c q
  if (x.st = .running ∨ x.st = .blocked) ∧ 0 < openTasks c q then
    modQ c q (fun x => { x with pointFrom := some (x.pointFrom.getD (now c)) })
  else modQ c q (fun x => { x with pointFrom := none })

/-- The point timer restarts (11, R606, R615). -/
def pointRestart (c : Core) (q : Nat) : Core := pointTimer (modQ c q (fun x => { x with pointFrom := none })) q

/-- A queue whose program waits reads BLOCKED or RUNNING as Table 7.2 says (07, R330). -/
def setBlocked (c : Core) (sq : Nat) : Core :=
  match (getSq c sq).q with
  | none => c
  | some q =>
    let x := getQ c q
    if x.st = .running ∨ x.st = .blocked then
      let st := runState c sq
      if st = x.st then c
      else
        let c := modQ c q (fun x => { x with st := st })
        if st = .running then progress c q else c
    else c

/-- The command at the head waits (07, Table 7.2). -/
def stallAt (c : Core) (sq : Nat) (st : Stall) : Core := setBlocked (modSq c sq (fun s => { s with stall := st })) sq

/-- The launches that sequencers offer wait for room from the first that lacks it (07, R353): their queues read BLOCKED. -/
def markOffers (c : Core) (short : Bool) : Core :=
  let c := { c with isr := { c.isr with offers := c.isr.offers.map (fun (x : Offer) => { x with room := short }) } }
  c.isr.offers.foldl (fun c o => setBlocked c o.sq) c

/-! ## Debug halts (17, R831-R834) -/

/-- A breakpoint stands at a sequencer's PC (17, R834). -/
def bpAt (c : Core) (sq pc : Nat) : Option Nat :=
  (below 4 (fun n => regDbgBpEn c n && regDbgBpSq c n == sq && regDbgBpPc c n == pc)).head?

/-- A sequencer halts at a breakpoint (17, R834). -/
def bpHalt (c : Core) (sq n : Nat) : Core :=
  let c := modSq c sq (fun s => { s with halted := true, stepping := false })
  irqSet { c with dbg := { c.dbg with bpHit := r32 (2 ^ 31 + n * 2 ^ 8 + sq) } } pgDbg 2

/-- A sequencer is halted and does not step: the FE grants it no program (17, R831, R833). -/
def sqHeld (c : Core) (sq : Nat) : Bool := (getSq c sq).halted && !(getSq c sq).stepping

/-- The PC of a halting breakpoint is checked when a sequencer comes to a command (17, R834). -/
def bpCheck (c : Core) (sq : Nat) : Core :=
  let s := getSq c sq
  if s.halted || s.q.isNone then c
  else match bpAt c sq s.pc with | some n => bpHalt c sq n | none => c

/-! ## Moving on -/

/-- A sequencer's program goes on: no quiescing, hold, debug halt or parking stands against it (03, Table 3.3; 05, R851; 16,
R801; 17, R832). -/
def sqRuns (c : Core) (sq : Nat) : Bool :=
  let s := getSq c sq
  match s.q with
  | none => false
  | some q => mayStart c && (!s.halted || s.stepping) && ((getQ c q).st == .running || (getQ c q).st == .blocked)

/-- A command reaches its move-on point, and the PC takes a value (07, R315, R318; 05, R254; 17, R833).  A PC past the last
word faults with RAN_OFF; a full save that is owed is taken. -/
def moveTo (c : Core) (sq pc : Nat) : Core :=
  let s := getSq c sq
  match s.q with
  | none => c
  | some q =>
    let c := modSq c sq (fun s => { s with pc := pc, stall := .none, counted := false, stepping := false, bpPass := false })
    let c := modQ c q (fun x => { x with st := if x.st = .blocked then .running else x.st })
    let c := progress c q
    let c := if s.stepping then irqSet c pgDbg 2 else c
    if s.words.length ≤ pc then cmdFault c sq 5
    else
      let c := match bpAt c sq pc with | some n => bpHalt c sq n | none => c
      if fullSaveDue c q sq then takeFullSave c q sq else c

/-- Words of the command at the head (07, Table 7.2). -/
def headLen (c : Core) (sq : Nat) : Nat :=
  let s := getSq c sq
  if opOf (wat s.words s.pc) = 0x11 then 2 else 1

/-- A command moves on to the next one (07, Table 7.2). -/
def moveOn (c : Core) (sq : Nat) : Core := moveTo c sq ((getSq c sq).pc + headLen c sq)

/-- A shape register. -/
def sreg (c : Core) (sq n : Nat) : Word := tget (getSq c sq).s 0 n

/-- A shape register written. -/
def setSreg (c : Core) (sq n : Nat) (v : Word) : Core := modSq c sq (fun s => { s with s := tset s.s 0 n v })

/-- The commands of sequencers whose held frames the link has accepted move on (07, R361). -/
def drainAccepted (c : Core) : Core :=
  let l := c.pp.accepted
  l.foldl (fun c s => if (getSq c s).stall = .sig then moveOn c s else c) { c with pp := { c.pp with accepted := [] } }

/-! ## Beginning a command -/

/-- Step limit of a sequencer (07, R319, Table 7.13). -/
def stepLimit (c : Core) (sq : Nat) : Nat := 2 ^ (max 10 (min 30 (regSqCtrlStepLog2 c sq)))

/-- A command or task with VARIES counted by the DET unit in Reproducible Mode (15, R772). -/
def reproVaries (c : Core) (kind q wher : Nat) : Core :=
  if regDetCtrlRepro c then
    let c := irqSet (cntAdd c pgDet 0x120 1) pgDet 2
    if c.det.variesFirst = 0 then
      { c with det := { c.det with variesFirst := r32 (kind * 2 ^ 30 + q * 2 ^ 21 + wher) } }
    else c
  else c

/-- A command counts as executed (07, R855; 17, Tables 17.1, 17.3). -/
def countCommand (c : Core) (sq q : Nat) (w : Word) : Core :=
  let pc := (getSq c sq).pc
  let c := modSq c sq (fun s => { s with steps := s.steps + 1, counted := true })
  let o := ownQ c q
  let c := pmuEv (cntAdd c (pgSq sq) 0x130 1) 0x020 1 o
  let c := trace c 0x04 o 0 0 w pc (variesOf w)
  if variesOf w then
    let c := pmuEv (cntAdd c (pgSq sq) 0x140 1) 0x022 1 o
    let c := trace c 0x0F o 0 0 w pc true
    if opOf w = 0x40 then c else reproVaries c 1 q pc
  else c

/-- The checks made on the word before a command takes effect: the fault code, in the order of Table 7.11's note (07, R321,
R322, R331, R854). -/
def wordFault (c : Core) (w w1 : Word) (len : Nat) : Option Nat :=
  if (listedBits (opOf w)).isNone then some 1
  else if badReserved w then some 2
  else if badField w w1 (regStrmDescCount c) then some 3
  else if badTarget w len then some 4
  else none

/-- A sequencer begins the command at its head, if it may and the command has the opcode asked for (07, R315, R319, R855;
17, R834); the effect is given the queue and the two words. -/
def sqBegin (sq : Nat) (is : Nat → Bool) (f : Core → Nat → Word → Word → Core) (c : Core) : Core :=
  let s := getSq c sq
  match s.q with
  | none => c
  | some q =>
    let w := wat s.words s.pc
    let w1 := wat s.words (s.pc + 1)
    if !(sqRuns c sq && s.stall == .none && !s.words.isEmpty && is (opOf w)) then c
    else
      match (if s.bpPass || s.stepping then none else bpAt c sq s.pc) with
      | some n => bpHalt c sq n
      | none =>
        if !badReserved w && opOf w == 0x11 && decide (s.words.length ≤ s.pc + 1) then cmdFault c sq 5
        else if !s.counted && decide (stepLimit c sq ≤ s.steps) then cmdFault c sq 6
        else
          let c := if s.counted then c else countCommand c sq q w
          match wordFault c w w1 s.words.length with
          | some code => cmdFault c sq code
          | none => f c q w w1

end Sys2Proof.Machine
end

