-- ==== Sys2Proof/Machine/StreamBase.lean ====
section
/-! DEFINITION. The Stream Table entry of an arm, credits, and the detachment of slow receivers (13, Table 13.1, R691, R696). -/

namespace Sys2Proof.Machine

/-! ## Stream Table entry (13, Table 13.1) -/

/-- SRC. -/
def steSrc (w : List Word) : Nat := (wat w 0).toNat

/-- LENGTH. -/
def steLen (w : List Word) : Nat := (wat w 1).toNat

/-- XFER. -/
def steXfer (w : List Word) : Nat := wf (wat w 2) 0 32

/-- WINDOW. -/
def steWindow (w : List Word) : Nat := wf (wat w 2) 32 32

/-- DONE. -/
def steDone (w : List Word) : Nat := wf (wat w 3) 0 16

/-- READY. -/
def steReady (w : List Word) : Nat := wf (wat w 3) 16 16

/-- CREDIT_BASE. -/
def steCredit (w : List Word) : Nat := wf (wat w 3) 32 16

/-- Receivers: RCVM1 + 1. -/
def steRcv (w : List Word) : Nat := wf (wat w 3) 48 8 + 1

/-- FLAGS.READY_EN. -/
def steReadyEn (w : List Word) : Bool := wbit (wat w 3) 56

/-- FLAGS.UPDATE. -/
def steUpdate (w : List Word) : Bool := wbit (wat w 3) 57

/-- LANE. -/
def steLane (w : List Word) : Nat := wf (wat w 4) 0 8

/-- MAX_INFLIGHT. -/
def steMax (w : List Word) : Nat := wf (wat w 4) 8 8

/-- The fields keep the rules of Table 13.1 (13, R686). -/
def steFieldsOk (w : List Word) : Bool :=
  let src := steSrc w
  let x := steXfer w
  decide (src % 256 = 0 ∧ src < 2 ^ 52 ∧ x % 256 = 0 ∧ 256 ≤ x ∧ x ≤ 2 ^ 24 ∧ steLen w ≠ 0 ∧ steLen w % x = 0
    ∧ steWindow w % x = 0 ∧ steRcv w ≤ 8 ∧ wf (wat w 3) 58 6 = 0 ∧ steLane w < 64 ∧ 1 ≤ steMax w ∧ steMax w ≤ 16
    ∧ wf (wat w 4) 16 48 = 0)

/-! ## Credits (13, R691, R696) -/

/-- released_r of an arm (13, "Transfers"). -/
def released (c : Core) (a : Arm) (r : Nat) : Nat := ((getObj c (steCredit a.entry + r)).value - wat a.bases r).toNat

/-- Receivers on the multicast path. -/
def onCast (x : Stream) : List Nat := below 8 (fun r => x.attached.getLsbD r)

/-- A receiver's lag exceeds MCAST_LAG_LIMIT (13, R696). -/
def lagsBehind (c : Core) (x : Stream) (r : Nat) : Bool :=
  let top := (onCast x).foldl (fun m n => max m (released c x.cur n)) 0
  let lim := regStrmMcastLagLimit c
  lim != 0 && decide (2 ≤ (onCast x).length) && decide (lim < top - released c x.cur r)

/-- A receiver leaves the multicast path (13, R696, R697). -/
def detachOne (n : Nat) (c : Core) (r : Nat) : Core :=
  let x := getStream c n
  if x.st = .active ∧ x.attached.getLsbD r = true ∧ lagsBehind c x r = true then
    let c := modStream c n (fun x => { x with
      attached := x.attached &&& ~~~(BitVec.ofNat 8 (2 ^ r)), detached := tput x.detached r x.sent })
    let c := irqSet (cntAdd c pgStrm 0x168 1) pgStrm 3
    { c with strm := { c.strm with detachLast := r32 (n * 2 ^ 16 + r) } }
  else c

/-- The receivers whose lag has grown past the limit are detached, stream by stream (13, R692, R696). -/
def detachAll (c : Core) : Core :=
  c.strm.slots.foldl (fun c e => (List.range 8).foldl (detachOne e.1) c) c

end Sys2Proof.Machine
end

