-- ==== Sys2Proof/Machine/Sync.lean ====
section
/-! DEFINITION. The Sync Table: its input FIFO, what each operation does to each type, releases, cookie notifications and the
debug view (09, R454-R484, R503-R505). -/

namespace Sys2Proof.Machine

/-! ## The input FIFO (09, R466, R467) -/

/-- Place of an operation among those of one tclk (09, R467). -/
def stClass : StOp → Nat
  | .create _ _ _ | .freeSlot _ _ => 0
  | .remoteWait _ _ _ _ _ => 64
  | .signal (.punty _) _ _ | .add (.punty _) _ _ => 64
  | .signal (.edge _ _ _) _ _ | .add (.edge _ _ _) _ _ => 128
  | .signal (.crucible _) _ _ | .add (.crucible _) _ _ => 192
  | .signal (.cmd s _) _ _ | .add (.cmd s _) _ _ => 256 + s
  | .wait s _ _ _ => 256 + s
  | .force _ _ => 320
  | .signal _ _ _ | .add _ _ _ => 320

/-- Offered operations enter the FIFO in the order of R467 while it has room; under a hold only the FE's (09, R466, R467;
16, R801). -/
def stFill (c : Core) : Core :=
  let can := c.st.offered.filter (fun o => !c.ras.hold || stClass o == 0)
  let cannot := c.st.offered.filter (fun o => !(!c.ras.hold || stClass o == 0))
  let l := sortBy stClass can
  let n := 128 - c.st.fifo.length
  { c with st := { c.st with fifo := c.st.fifo ++ l.take n, offered := l.drop n ++ cannot } }

/-- An operation offered to the ST (09, R466). -/
def stOffer (c : Core) (o : StOp) : Core := stFill { c with st := { c.st with offered := c.st.offered ++ [o] } }

/-! ## Operations (09, Table 9.3) -/

/-- SRC_KIND and ID of a signaller (09, Table 9.10 OOO_LAST_OBJ, OOO_LAST_SRC). -/
def srcCode : StSrc → Nat × Nat
  | .cmd _ q => (1, q)
  | .edge i _ _ => (2, i)
  | .crucible n => (3, n)
  | .punty d => (4, d)
  | .debug | .fe => (0, 0)

/-- Queue on whose behalf a signal is made by this die's programs and instances (09, R460, R483). -/
def srcQueue (c : Core) : StSrc → Option Nat
  | .cmd _ q => some q
  | .edge i _ _ => some (getInst c i).q
  | _ => none

/-- An out-of-order signal (09, R464). -/
def oooSignal (c : Core) (src : StSrc) (h : Nat) (x : Word) : Core :=
  let c := cntAdd c pgSt 0x128 1
  let v := (getObj c h).value
  let c := modObj c h (fun o => { o with ooo := sat (o.ooo + 1) 255 })
  let k := srcCode src
  irqSet { c with st := { c.st with oooObj := r32 (k.1 * 2 ^ 28 + h), oooSrc := r32 k.2, oooX := x, oooVal := v } } pgSt 2

/-- Units released to a semaphore (09, Table 9.3, R459, R460, R483). -/
def semRelease (c : Core) (src : StSrc) (h : Nat) (x : Word) : Core :=
  let o := getObj c h
  let sum := o.value.toNat + x.toNat
  let c := if 2 ^ 64 ≤ sum then pageErr c pgSt 0x11 h 0 else c
  let q := srcQueue c src
  let c := modObj c h (fun o => { o with
    value := w64 (min sum (2 ^ 64 - 1))
    holder := if q.isSome && o.holder == q then none else o.holder })
  let c := match q with | some n => balAdd c n (-(x.toNat : Int)) | none => c
  inheritKeep c

/-- Arrivals at a barrier (09, Table 9.3, R462). -/
def arrive (c : Core) (h : Nat) (x : Word) : Core :=
  let v := (getObj c h).value
  let c := if 2 ^ 64 ≤ v.toNat + x.toNat then releaseAll c h else c
  modObj c h (fun o => { o with value := v + x })

/-- SIGNAL X (09, Table 9.3). -/
def doSignal (c : Core) (src : StSrc) (h : Nat) (x : Word) : Core :=
  let o := getObj c h
  match o.ty with
  | .semaphore => semRelease c src h x
  | .barrier => arrive c h x
  | _ =>
    if x = o.value then c
    else if geW x o.value then notifyCookie (modObj c h (fun o => { o with value := x })) h
    else oooSignal c src h x

/-- ADD X (09, Table 9.3). -/
def doAdd (c : Core) (src : StSrc) (h : Nat) (x : Word) : Core :=
  match (getObj c h).ty with
  | .semaphore => semRelease c src h x
  | .barrier => arrive c h x
  | _ =>
    let c := modObj c h (fun o => { o with value := o.value + x })
    if x = 0 then c else notifyCookie c h

/-- A registered waiter (09, R469). -/
def register (c : Core) (h : Nat) (w : Wait) : Core := modObj c h (fun o => { o with waits := o.waits ++ [w] })

/-- A WAIT on a live object: released against VALUE as it stands, or registered (09, R461, R469; 11, R619). -/
def doWait (c : Core) (h : Nat) (w : Wait) : Core :=
  let o := getObj c h
  match o.ty with
  | .semaphore =>
    if o.waits = [] ∧ waitMet o w = true then releaseOne c h w
    else
      let c := register c h w
      match w.who with | .sq _ => inheritStart c w.q h | .remote _ _ _ => c
  | .barrier =>
    let v := o.value.toNat
    let e := (v / o.parties + 1) * o.parties
    let w := { w with x := e }
    let c := arrive c h 1
    if v + 1 = e ∨ 2 ^ 64 ≤ v + 1 then releaseOne c h w else register c h w
  | _ => if waitMet o w then releaseOne c h w else register c h w

/-- ABANDONED releases fault the commands that waited (07, R360; 09, R465). -/
def faultAbandoned (c : Core) : Core :=
  let l := (c.st.releases.filter (·.aban)).map (·.sq)
  let c := { c with st := { c.st with releases := c.st.releases.filter (fun r => !r.aban) } }
  l.foldl (fun c s => cmdFault c s 0x0C) c

/-- A signalling command, or an edge, whose operation the ST has applied, goes on (07, Table 7.2; 08, R418). -/
def signalDone (c : Core) : StSrc → Core
  | .cmd s _ => if (getSq c s).stall = .sig then moveOn c s else c
  | .edge i n _ => if (getInst c i).serial = n then modInst c i (fun x => { x with sigOut := x.sigOut - 1 }) else c
  | _ => c

/-- Context that a signaller acts for (06, R297; 08, Table 8.5). -/
def srcCtx (c : Core) : StSrc → Option Nat
  | .cmd _ q => some (getQ c q).ctx
  | .edge i _ _ => some (getInst c i).ctx
  | _ => none

/-- Source of an operation refused: FREE object or ACCESS (07, R359; 08, R423; 14, R734). -/
def signalRefused (c : Core) (src : StSrc) (h op code : Nat) : Core :=
  match src with
  | .cmd s _ => if (getSq c s).stall = .sig then cmdFault c s code else c
  | .edge i n t =>
    if (getInst c i).serial = n then instFault (modInst c i (fun x => { x with sigOut := x.sigOut - 1 })) i 4 4 t else c
  | .punty d => pageErr c pgPp 0x10 (h + d * 2 ^ 16) op
  | _ => c

/-- A SIGNAL or ADD applied (09, R359, R457, R465). -/
def applySignal (c : Core) (isAdd : Bool) (src : StSrc) (h : Nat) (x : Word) : Core :=
  let o := getObj c h
  let allowed := match srcCtx c src with
    | some k => accessOk c o.access o.owner k
    | none => match src with | .punty _ => decide (o.access = 2) | _ => true
  if o.st = .free then signalRefused c src h (b2n isAdd) 0x0B
  else if !allowed then signalRefused c src h (b2n isAdd) 0x0A
  else if o.st = .abandoned then signalDone (cntAdd c pgSt 0x130 1) src
  else signalDone (if isAdd then doAdd c src h x else doSignal c src h x) src

/-- A WAIT of a sequencer of this die applied (07, R359; 09, R458, R465, R469). -/
def applyWait (c : Core) (sq q h : Nat) (x : Word) : Core :=
  let o := getObj c h
  if o.st = .free then cmdFault c sq 0x0B
  else if !accessOk c o.access o.owner (getQ c q).ctx then cmdFault c sq 0x0A
  else if o.st = .abandoned then cmdFault c sq 0x0C
  else if (o.ty = .semaphore ∧ x = 0) ∨ (o.ty = .barrier ∧ x ≠ 0) then cmdFault c sq 3
  else doWait c h { who := .sq sq, x := x.toNat, opd := x, q := q }

/-- A SYNC_REL that refuses a remote WAIT, or releases it as ABANDONED (14, R735). -/
def refuseRemote (c : Core) (die sqId wid h status : Nat) (x : Word) : Core :=
  let ty := match (getObj c h).ty with | .counter => 0 | .semaphore => 1 | .barrier => 2 | .cookie => 3
  linkOffer c die .unit_ [frSyncRel status ty h (wid * 32 + sqId) x]

/-- The remote WAIT would have to be registered (14, R735). -/
def mustRegister (o : SyncObj) (w : Wait) : Bool :=
  match o.ty with
  | .semaphore => !(o.waits.isEmpty && waitMet o w)
  | .barrier => decide ((o.value.toNat + 1) % o.parties ≠ 0)
  | _ => !waitMet o w

/-- A WAIT of another die applied (14, R735; 09, R471). -/
def applyRemoteWait (c : Core) (die sqId wid h : Nat) (x : Word) : Core :=
  let o := getObj c h
  let w : Wait := { who := .remote die sqId wid, x := x.toNat, opd := x }
  if o.st = .free then refuseRemote c die sqId wid h 2 x
  else if o.access ≠ 2 then refuseRemote c die sqId wid h 3 x
  else if o.st = .abandoned then refuseRemote c die sqId wid h 1 x
  else if mustRegister o w && decide (1024 ≤ remoteWaits c) then refuseRemote c die sqId wid h 4 x
  else doWait c h w

/-- A hand-set applied (09, R504, R505). -/
def applyForce (c : Core) (h : Nat) (x : Word) : Core :=
  let o := getObj c h
  if o.st ≠ .live then { c with st := { c.st with forceDone := false, forceRef := 2 } }
  else
    let c := modObj c h (fun o => { o with value := x, handset := true })
    let c := if x = o.value then c else notifyCookie c h
    { c with st := { c.st with forceDone := true, forceRef := 0 } }

/-- One operation applied, without the check of the waiters that follows (09, R468). -/
def applyOp (c : Core) : StOp → Core
  | .signal src h x => applySignal c false src h x
  | .add src h x => applySignal c true src h x
  | .wait sq q h x => applyWait c sq q h x
  | .remoteWait die sqId wid h x => applyRemoteWait c die sqId wid h x
  | .force h x => applyForce c h x
  | .create hdr h o =>
    feDone (answer { c with st := { c.st with objs := tset c.st.objs {} h o } } hdr 0)
  | .freeSlot hdr h =>
    let c := abandonWaits c h
    let c := { c with st := { c.st with objs := tdel c.st.objs h } }
    feDone (answer (faultAbandoned c) hdr 0)

/-- Object of an operation. -/
def opObj : StOp → Nat
  | .signal _ h _ | .add _ h _ | .force h _ | .create _ h _ | .freeSlot _ h => h
  | .wait _ _ h _ => h
  | .remoteWait _ _ _ h _ => h

/-- Operations of one tclk: applied in FIFO order, then every touched object's waiters are checked (09, R468), and the streams
see their credits (13, R692, R696). -/
def applyOps (c : Core) (ops : List StOp) : Core :=
  let c := ops.foldl applyOp c
  let c := pmuEv (cntAdd c pgSt 0x118 ops.length) 0x050 ops.length {}
  detachAll (faultAbandoned ((ops.map opObj).dedup.foldl serveObj c))

/-- So many operations leave the FIFO and are applied. -/
def applyHead (c : Core) (n : Nat) : Core :=
  let ops := c.st.fifo.take n
  stFill (applyOps { c with st := { c.st with fifo := c.st.fifo.drop n } } ops)

/-- Every operation in the FIFO applied, ahead of a teardown's step 1 (09, R467). -/
def stDrain (c : Core) : Core := if c.st.fifo = [] then c else applyHead c c.st.fifo.length

/-- SYNC_OP_APPLY: up to four operations (09, R466, R468). -/
def execSyncOpApply (s : State) : Host.Outcome State Fault Refusal :=
  mission (fun c => if c.st.fifo = [] then stFill c else applyHead c 4) s

/-- WAITER_RELEASE: the oldest release whose sequencer goes on (09, R470, R475; 05, R254). -/
def execWaiterRelease (s : State) : Host.Outcome State Fault Refusal :=
  mission (fun c =>
    match ltake (fun r => sqRuns c r.sq) c.st.releases with
    | none => c
    | some (r, l) =>
      let c := { c with st := { c.st with releases := l } }
      match (getSq c r.sq).stall with
      | .waitObj h _ => if h = r.h then moveOn c r.sq else c
      | .waitRemote _ h _ _ => if h = r.h then moveOn c r.sq else c
      | _ => c) s

/-! ## Cookie notifications (09, R479-R481) -/

/-- COOKIE_NOTIFY: the FE takes a handle, reads VALUE, clears NPEND and writes a record (09, R479, R480, Table 9.6). -/
def execCookieNotify (s : State) : Host.Outcome State Fault Refusal :=
  mission (fun c =>
    match c.st.notify with
    | [] => c
    | h :: t =>
      let c := { c with st := { c.st with notify := t } }
      let o := getObj c h
      let c := modObj c h (fun o => { o with npend := false })
      if o.st ≠ .live then c
      else
        pushRec c { kind := 0x84, index := 0xFFFFFFFF, seq := o.value, cookie := o.cookie, ctx := o.owner, detail := w64 h }) s

/-! ## Debug view and hand-set (09, R503, R504) -/

/-- Word 1 of an ST entry (09, Table 9.2). -/
def stWord1 (o : SyncObj) : Word :=
  let st := match o.st with | .free => 0 | .live => 1 | .abandoned => 2 | .closing => 3
  let ty := match o.ty with | .counter => 0 | .semaphore => 1 | .barrier => 2 | .cookie => 3
  let lw := o.waits.any (fun w => match w.who with | .sq _ => true | _ => false)
  let rw := o.waits.any (fun w => match w.who with | .sq _ => false | _ => true)
  let low := match o.ty with
    | .semaphore => match o.holder with | some q => 2 ^ 31 + q * 2 ^ 16 | none => 0
    | .barrier => o.parties
    | .cookie => o.cookie
    | .counter => 0
  w64 (st * 2 ^ 62 + ty * 2 ^ 60 + o.access * 2 ^ 58 + o.owner * 2 ^ 50 + b2n lw * 2 ^ 49 + b2n rw * 2 ^ 48
    + b2n o.handset * 2 ^ 47 + b2n o.npend * 2 ^ 46 + o.ooo * 2 ^ 38 + low)

/-- Registered waiters of this die on an object. -/
def localWaiters (o : SyncObj) : Nat :=
  (o.waits.filter (fun w => match w.who with | .sq _ => true | _ => false)).length

/-- The snapshot that a read of DBG_VALUE_LO takes (09, R503). -/
def dbgSnap (c : Core) : Core :=
  let o := getObj c (regStDbgSelHandle c)
  { c with st := { c.st with dbg := [o.value, stWord1 o, w64 (localWaiters o)] } }

/-- A write of FORCE_VAL_HI (09, R504). -/
def forceHi (c : Core) (v : Reg) : Core :=
  let h := regStDbgSelHandle c
  if !debugForce c then { c with st := { c.st with forceDone := false, forceRef := 1 } }
  else if (getObj c h).st ≠ .live then { c with st := { c.st with forceDone := false, forceRef := 2 } }
  else
    let c := { c with st := { c.st with forceDone := false, forceRef := 0 } }
    stOffer c (.force h (joinReg c.st.forceLo v))

end Sys2Proof.Machine
end

