-- ==== Sys2Proof/Machine/Program.lean ====
section
/-! DEFINITION. Commands of a program that need no unit but the sequencer, the FE, the ST and memory: program control, shapes
and patches, launches offered, and sync commands (07). -/

namespace Sys2Proof.Machine

/-! ## Ends of a program (07, R318, R332; 05, R248-R251) -/

/-- The completion write at the head of a queue's list is issued (05, R248; 02, "Host Initiator Port"). -/
def issueCpl (c : Core) (q : Nat) : Core :=
  match (getQ c q).cpls with
  | [] => c
  | x :: _ => hipWrite c (getQ c q).cplAddr (qPart c q) [x.seq] (.cpl q)

/-- A completion handed to the FE: it is issued once every earlier one is acknowledged (05, R248, R251). -/
def handCpl (c : Core) (q : Nat) (x : Cpl) : Core :=
  let first := (getQ c q).cpls.isEmpty
  let c := modQ c q (fun y => { y with cpls := y.cpls ++ [x] })
  if first then issueCpl c q else c

/-- The running program ends without a fault: its sequencer is free, and its queue READY or IDLE (05, R228, Table 5.12; 09,
R484; 17, R833). -/
def endProgram (c : Core) (sq q how : Nat) : Core :=
  let stepped := (getSq c sq).stepping
  let c := freeSq c sq
  let c := if stepped then irqSet c pgDbg 2 else c
  let sid := (getQ c q).cur
  let c := programEnded c q how
  let c := modQ c q (fun x => { x with st := restState x, pointFrom := none })
  let c := match sid with | some n => subDone c q n | none => c
  balCheck c q

/-- HALT ends the program without a completion (05, R250; 07, R318). -/
def opHalt (sq : Nat) (c : Core) (q : Nat) (_w _w1 : Word) : Core := endProgram c sq q 1

/-- Every instance that the program launched has retired (07, R332, Table 7.2). -/
def drained (c : Core) (q : Nat) : Bool :=
  match (getQ c q).cur with
  | some sid => (subInsts c q sid).isEmpty
  | none => true

/-- The hand-over of the submission's SEQ and the end of its program (07, R332). -/
def fenceDone (c : Core) (sq q : Nat) : Core :=
  match (getQ c q).cur with
  | none => c
  | some sid =>
    match findSub c q sid with
    | none => c
    | some s => endProgram (handCpl c q { seq := s.seq, cookie := s.cookie, int := s.int }) sq q 0

/-- FENCE_OUT (07, R332). -/
def opFenceOut (sq : Nat) (c : Core) (q : Nat) (w _w1 : Word) : Core :=
  if wbit w 54 && !drained c q then stallAt c sq .drain else fenceDone c sq q

/-- A waiting FENCE_OUT whose instances have all retired completes (07, R332). -/
def pollFence (c : Core) (sq : Nat) : Core :=
  match (getSq c sq).q with
  | some q => if (getSq c sq).stall = .drain ∧ sqRuns c sq ∧ drained c q then fenceDone c sq q else c
  | none => c

/-- HALT: the program ends (05, R250). -/
def execHalt (sq : Fin 32) (s : State) : Host.Outcome State Fault Refusal :=
  mission (sqBegin sq.val (· == 0x01) (opHalt sq.val)) s

/-- FENCE_OUT: begun at the head, or continued while it drains (07, R332). -/
def execFenceOut (sq : Fin 32) (s : State) : Host.Outcome State Fault Refusal :=
  mission (fun c =>
    if (getSq c sq.val).stall = .drain then pollFence c sq.val
    else sqBegin sq.val (· == 0x02) (opFenceOut sq.val) c) s

/-! ## Timeouts, points and jumps -/

/-- A timeout clamped (05, R240; 07, R333, Table 7.3). -/
def clampUs (us : Nat) : Nat := if us = 0 then 50000 else if us < 10 then 10 else us

/-- TIMEOUT_SET (07, R333). -/
def opTimeoutSet (sq : Nat) (c : Core) (q : Nat) (w _w1 : Word) : Core :=
  let us := (srcOperand (getSq c sq).s w 26).toNat
  if 60000000 < us then cmdFault c sq 3
  else moveOn (regSet c (pgFeq q) (0x104 + 0x40 * (q % 32)) (r32 (clampUs us))) sq

/-- TIMEOUT_SET. -/
def execTimeoutSet (sq : Fin 32) (s : State) : Host.Outcome State Fault Refusal :=
  mission (sqBegin sq.val (· == 0x03) (opTimeoutSet sq.val)) s

/-- An issue of CLASS 0x4 of the program's instances is open: the program holds a link credit (07, R334). -/
def holdsCredit (c : Core) (q : Nat) : Bool :=
  match (getQ c q).cur with
  | some sid =>
    let l := subInsts c q sid
    !(issuesWhere c (fun x => x.kind == .task && x.cls == 4 && l.contains x.inst)).isEmpty
  | none => false

/-- Another queue of the same context is in a preemption phase (11, R606). -/
def mateInPhase (c : Core) (q : Nat) : Bool :=
  c.queues.any (fun e => e.1 != q && e.2.ctx == (getQ c q).ctx && inPhase c e.1)

/-- A point is taken: the program stops after it (11, R611, Table 11.7). -/
def takePoint (c : Core) (sq q : Nat) (sets : List LiveSet) : Core :=
  let s := getSq c sq
  if s.words.length ≤ s.pc + 1 then moveOn c sq
  else takeSave (modSq c sq (fun s => { s with pc := s.pc + 1, counted := false, bpPass := false })) q sq false sets

/-- PREEMPT_POINT (07, R334; 11, R606-R610, R615, R616; 17, R832). -/
def opPreemptPoint (sq : Nat) (c : Core) (q : Nat) (w _w1 : Word) : Core :=
  let demand := demandOn c q && !(getSq c sq).halted
  let c := pointRestart (modQ c q (fun x => { x with pointLate := false, ptLanes := 0 })) q
  if holdsCredit c q then moveOn (pageErr c (pgSq sq) 0x10 q (getSq c sq).pc) sq
  else if !demand then moveOn c sq
  else if mateInPhase c q then moveOn (cntAdd c pgSched 0x180 1) sq
  else
    match pointSets c q sq (wf w 0 16) with
    | .error code => moveOn (irqSet (pageErr c pgSched code q 0) pgSched 7) sq
    | .ok sets => takePoint c sq q sets

/-- PREEMPT_POINT. -/
def execPreemptPoint (sq : Fin 32) (s : State) : Host.Outcome State Fault Refusal :=
  mission (sqBegin sq.val (· == 0x04) (opPreemptPoint sq.val)) s

/-- NOP (07, Table 7.2). -/
def opNop (sq : Nat) (c : Core) (_q : Nat) (_w _w1 : Word) : Core := moveOn c sq

/-- NOP. -/
def execNop (sq : Fin 32) (s : State) : Host.Outcome State Fault Refusal :=
  mission (sqBegin sq.val (· == 0x05) (opNop sq.val)) s

/-- JUMP (07, R331). -/
def opJump (sq : Nat) (c : Core) (_q : Nat) (w _w1 : Word) : Core := moveTo c sq (wf w 0 11)

/-- JUMP. -/
def execJump (sq : Fin 32) (s : State) : Host.Outcome State Fault Refusal :=
  mission (sqBegin sq.val (· == 0x38) (opJump sq.val)) s

/-- BRANCH (07, Table 7.3, R331). -/
def opBranch (sq : Nat) (c : Core) (_q : Nat) (w _w1 : Word) : Core :=
  if branchCond (wf w 51 3) (sreg c sq (wf w 47 4)) (srcOperand (getSq c sq).s w 32) then moveTo c sq (wf w 32 11)
  else moveOn c sq

/-- BRANCH. -/
def execBranch (sq : Fin 32) (s : State) : Host.Outcome State Fault Refusal :=
  mission (sqBegin sq.val (· == 0x39) (opBranch sq.val)) s

/-- BAD_OPCODE: every opcode that Table 7.2 does not list faults (07, R321). -/
def execBadOpcode (sq : Fin 32) (s : State) : Host.Outcome State Fault Refusal :=
  mission (sqBegin sq.val (fun op => (listedBits op).isNone) (fun c _ _ _ => c)) s

/-! ## Shapes and patches -/

/-- SOP (07, R343, Table 7.5). -/
def opSop (sq : Nat) (c : Core) (_q : Nat) (w _w1 : Word) : Core :=
  match sopValue (wf w 50 4) (sreg c sq (wf w 42 4)) (srcOperand (getSq c sq).s w 32) with
  | none => cmdFault c sq 7
  | some v => moveOn (setSreg c sq (wf w 46 4) v) sq

/-- SOP. -/
def execSop (sq : Fin 32) (s : State) : Host.Outcome State Fault Refusal :=
  mission (sqBegin sq.val (· == 0x33) (opSop sq.val)) s

/-- PATCH (07, R340). -/
def opPatch (sq : Nat) (c : Core) (_q : Nat) (w _w1 : Word) : Core :=
  let v := srcOperand (getSq c sq).s w 48
  moveOn (modSq c sq (fun s => { s with staging := tset s.staging 0 (wf w 48 6) v })) sq

/-- PATCH. -/
def execPatch (sq : Fin 32) (s : State) : Host.Outcome State Fault Refusal :=
  mission (sqBegin sq.val (· == 0x30) (opPatch sq.val)) s

/-- Where an LDSHAPE or STSHAPE goes: a device address, a scratch index, or a fault code (07, R335, R336, R376). -/
inductive ShapePlace where
  | device (addr : Nat)
  | scratch (idx : Nat)
  | bad (code : Nat)
  deriving DecidableEq, Repr

/-- Operand of an LDSHAPE or STSHAPE (07, Table 7.4, R335, R336, R376). -/
def shapePlace (c : Core) (sq q : Nat) (w : Word) : ShapePlace :=
  let reg := sreg c sq (wf w 0 4)
  let n := wf w 45 4
  if wbit w 53 then
    let idx := if wbit w 54 then reg.toNat else wf w 0 9
    if 511 < idx + n then .bad 3 else .scratch idx
  else
    let addr := if wbit w 54 then reg.toNat else wf w 0 44 * 256
    if addr % 256 ≠ 0 ∨ 2 ^ 52 ≤ addr then .bad 3
    else if !inCarve c (getQ c q).ctx addr 256 then .bad 0x0D
    else .device addr

/-- LDSHAPE (07, R335-R337). -/
def opLdshape (sq : Nat) (c : Core) (q : Nat) (w _w1 : Word) : Core :=
  let first := wf w 49 4
  let n := wf w 45 4 + 1
  match shapePlace c sq q w with
  | .bad code => cmdFault c sq code
  | .scratch idx =>
    let c := (List.range n).foldl (fun c i => setSreg c sq (first + i) (tget (getSq c sq).scratch 0 (idx + i))) c
    moveOn c sq
  | .device addr => stallAt (mpRead c addr (qPart c q) 256 (.shapeRd sq)) sq (.ldshape first n)

/-- LDSHAPE. -/
def execLdshape (sq : Fin 32) (s : State) : Host.Outcome State Fault Refusal :=
  mission (sqBegin sq.val (· == 0x31) (opLdshape sq.val)) s

/-- LDSHAPE_DATA: the oldest shape read of the sequencer is answered; one of a stopped program is discarded (07, R337, R339,
Table 7.10; 02, R62; 16, R806). -/
def execLdshapeData (sq : Fin 32) (st : QStatus) (data : List Word) (s : State) : Host.Outcome State Fault Refusal :=
  mission (fun c =>
    match takeReq c (.shapeRd sq.val) with
    | none => c
    | some (r, c) =>
      let c := notePoison c st (pageTy (pgSq sq.val)) r.addr
      match (getSq c sq.val).stall with
      | .ldshape first n =>
        if hasReq c (.shapeRd sq.val) then c
        else if st ≠ .ok then cmdFault c sq.val 0x0E
        else
          let c := (List.range n).foldl (fun c i => setSreg c sq.val (first + i) (wat data i)) c
          moveOn c sq.val
      | _ => c) s

/-- STSHAPE (07, R335, R336, R338). -/
def opStshape (sq : Nat) (c : Core) (q : Nat) (w _w1 : Word) : Core :=
  let first := wf w 49 4
  let n := wf w 45 4 + 1
  let vals := (List.range n).map (fun i => sreg c sq (first + i))
  match shapePlace c sq q w with
  | .bad code => cmdFault c sq code
  | .scratch idx =>
    let c := (List.range n).foldl (fun c i =>
      modSq c sq (fun s => { s with scratch := tset s.scratch 0 (idx + i) (wat vals i) })) c
    moveOn c sq
  | .device addr => stallAt (mpWrite c addr (qPart c q) vals (.shapeWr sq)) sq .stshape

/-- STSHAPE. -/
def execStshape (sq : Fin 32) (s : State) : Host.Outcome State Fault Refusal :=
  mission (sqBegin sq.val (· == 0x32) (opStshape sq.val)) s

/-- STSHAPE_ACK: the oldest shape write of the sequencer is acknowledged (07, R339, Table 7.2, Table 7.10). -/
def execStshapeAck (sq : Fin 32) (st : QStatus) (s : State) : Host.Outcome State Fault Refusal :=
  mission (fun c =>
    match takeReq c (.shapeWr sq.val) with
    | none => c
    | some (_, c) =>
      if (getSq c sq.val).stall = .stshape ∧ hasReq c (.shapeWr sq.val) = false then
        if st ≠ .ok then cmdFault c sq.val 0x0E else moveOn c sq.val
      else c) s

/-! ## Launches (07, R344, R349, R353) -/

/-- Poisoned blocks that an instance of a version would read: image, map and task blocks, and the edge blocks (16, R797). -/
def versionPoisoned (c : Core) (g : Nat) (v : Version) : Bool :=
  let x := getImg c g
  let edge (b : Nat) : Bool :=
    decide (4096 ≤ b ∧ x.edgeBase / 4 ≤ b - 4096 ∧ 4 * (b - 4096) < x.edgeBase + x.edgeBlocks)
  c.gs.poison.any (fun b => b == x.block || b == v.map || v.blocks.contains b || edge b)

/-- The version that a launch would bind: VERSION, or the current one for 0 (07, Table 7.6). -/
def versionOf (c : Core) (g ver : Nat) : Option Version :=
  let x := getImg c g
  let n := if ver = 0 then x.cur else ver
  x.versions.find? (fun v => v.num == n)

/-- A context may launch a graph (08, R397). -/
def graphUse (c : Core) (g x : Nat) : Bool :=
  let i := getImg c g
  i.st == .loaded && accessOk c i.access i.owner x

/-- BAD_GRAPH (07, R344; 08, R397; 16, R797). -/
def badGraph (c : Core) (g ver x : Nat) : Bool :=
  !graphUse c g x ||
    (match versionOf c g ver with
     | none => true
     | some v => versionPoisoned c g v)

/-- LAUNCH and LAUNCH_AT offered to the DE, behind the launches offered before (07, R344, R353). -/
def opLaunch (sq : Nat) (atForm : Bool) (c : Core) (q : Nat) (w w1 : Word) : Core :=
  let g := wf w 40 12
  let ver := wf w 24 16
  if badGraph c g ver (getQ c q).ctx then cmdFault c sq 9
  else
    let at_ := if !atForm then none else if wbit w 52 then some (sreg c sq (wf w1 0 4)) else some w1
    let r : Offer :=
      { sq := sq, graph := g, ver := ver, dl := wf w 0 24, chain := wbit w 54, sync := atForm && wbit w 53, at_ := at_
        room := c.isr.offers.any (·.room) }
    stallAt { c with isr := { c.isr with offers := c.isr.offers ++ [r] } } sq .launch

/-- LAUNCH. -/
def execLaunch (sq : Fin 32) (s : State) : Host.Outcome State Fault Refusal :=
  mission (sqBegin sq.val (· == 0x10) (opLaunch sq.val false)) s

/-- LAUNCH_AT. -/
def execLaunchAt (sq : Fin 32) (s : State) : Host.Outcome State Fault Refusal :=
  mission (sqBegin sq.val (· == 0x11) (opLaunch sq.val true)) s

/-! ## Sync commands (07, R354-R361; 14, R733-R737) -/

/-- Where a sync command or SEND acts: none on this die, else the die; an error where REMOTE is not available (07, R358;
14, R733). -/
def remoteDie (c : Core) (remote : Bool) (die : Nat) : Except Nat (Option Nat) :=
  if !remote then .ok none
  else if role c = 0 then .error 0x0F
  else if die = dieId c then .ok none
  else if linkUpTo c die then .ok (some die)
  else .error 0x0F

/-- SIGNAL and ADD (07, R354, R358, R361). -/
def opSignal (sq : Nat) (isAdd : Bool) (c : Core) (q : Nat) (w _w1 : Word) : Core :=
  let h := wf w 32 16
  let x := srcOperand (getSq c sq).s w 26
  match remoteDie c (wbit w 53) (wf w 26 6) with
  | .error code => cmdFault c sq code
  | .ok none =>
    let src : StSrc := .cmd sq q
    stOffer (stallAt c sq .sig) (if isAdd then .add src h x else .signal src h x)
  | .ok (some die) =>
    drainAccepted (linkOffer (stallAt c sq .sig) die (.sq sq) [frSyncOp (b2n isAdd) 1 h 0 q x])

/-- SIGNAL. -/
def execSignal (sq : Fin 32) (s : State) : Host.Outcome State Fault Refusal :=
  mission (sqBegin sq.val (· == 0x21) (opSignal sq.val false)) s

/-- ADD. -/
def execAdd (sq : Fin 32) (s : State) : Host.Outcome State Fault Refusal :=
  mission (sqBegin sq.val (· == 0x22) (opSignal sq.val true)) s

/-- A current instance or chain predecessor has not retired (07, R348, R356). -/
def instLive (c : Core) (r : Nat × Nat) : Bool :=
  let x := getInst c r.1
  x.st != .free && x.serial == r.2

/-- A remote WAIT sent, under the sequencer's next count (14, R735). -/
def sendRemoteWait (c : Core) (sq q die h : Nat) (x : Word) : Core :=
  let n := (tget c.pp.waitIds 0 sq + 1) % 2048
  let c := { c with pp := { c.pp with waitIds := tset c.pp.waitIds 0 sq n } }
  linkOffer c die (.sq sq) [frSyncOp 2 1 h (waitId c sq) q x]

/-- WAIT (07, R354-R359). -/
def opWait (sq : Nat) (c : Core) (q : Nat) (w _w1 : Word) : Core :=
  let h := wf w 32 16
  let x := srcOperand (getSq c sq).s w 26
  match wf w 50 3 with
  | 0 =>
    match remoteDie c (wbit w 53) (wf w 26 6) with
    | .error code => cmdFault c sq code
    | .ok none => lateSave (stOffer (stallAt c sq (.waitObj h x)) (.wait sq q h x)) sq
    | .ok (some die) =>
      lateSave (drainAccepted (sendRemoteWait (stallAt c sq (.waitRemote die h x false)) sq q die h x)) sq
  | 1 => lateSave (alarmAdd (stallAt c sq (.waitTally x)) 3 sq x) sq
  | 2 =>
    let t := now c + w64 (wf w 0 26 * 1000)
    lateSave (alarmAdd (stallAt c sq (.waitTally t)) 3 sq t) sq
  | _ =>
    match (getSq c sq).inst with
    | none => cmdFault c sq 8
    | some r => if instLive c r then lateSave (stallAt c sq (.waitInst r.1)) sq else moveOn c sq

/-- A WAIT of KIND 3 whose instance has retired moves on (07, R356). -/
def pollInst (c : Core) (sq : Nat) : Core :=
  let s := getSq c sq
  match s.stall, s.inst with
  | .waitInst _, some r => if sqRuns c sq && !instLive c r then moveOn c sq else c
  | _, _ => c

/-- WAIT: begun at the head, or, with KIND 3, continued once its instance has retired (07, R354-R356). -/
def execWait (sq : Fin 32) (s : State) : Host.Outcome State Fault Refusal :=
  mission (fun c =>
    match (getSq c sq.val).stall with
    | .waitInst _ => pollInst c sq.val
    | _ => sqBegin sq.val (· == 0x20) (opWait sq.val) c) s

/-- TALLY_WAIT_RELEASE: the alarm of a WAIT of KIND 1 or 2 fires, and the WAIT is released (07, R355; 11, Table 11.3). -/
def execTallyWaitRelease (sq : Fin 32) (s : State) : Host.Outcome State Fault Refusal :=
  mission (fun c =>
    match (getSq c sq.val).stall with
    | .waitTally _ =>
      if sqRuns c sq.val then
        match alarmFire c 3 sq.val with
        | some (_, c) => moveOn c sq.val
        | none => c
      else c
    | _ => c) s

/-- REMOTE_WAIT_RETRY: the remote WAIT that was answered RETRY is sent again (14, R733, R737). -/
def execRemoteWaitRetry (sq : Fin 32) (s : State) : Host.Outcome State Fault Refusal :=
  mission (fun c =>
    let x := getSq c sq.val
    match x.stall, x.q with
    | .waitRemote die h v true, some q =>
      if !mayStart c then c
      else if linkUpTo c die then
        let c := stallAt c sq.val (.waitRemote die h v false)
        drainAccepted (linkOffer c die (.sq sq.val) [frSyncOp 2 1 h (waitId c sq.val) q v])
      else cmdFault c sq.val 0x0F
    | _, _ => c) s

end Sys2Proof.Machine
end

