-- ==== Sys2Proof/Machine/De.lean ====
section
/-! DEFINITION. The Dependency Engine: task and edge records, patch blocks, counters, edge walks, Canes and hand-off
(08, R391-R393, R415-R435; 01, R23, R27, R28). -/

namespace Sys2Proof.Machine

/-! ## Task records (08, Tables 8.1, 8.4) -/

/-- The version that an instance is bound to (08, R345). -/
def instVersion (c : Core) (i : Nat) : Version :=
  let x := getInst c i
  ((getImg c x.graph).versions.find? (fun v => v.num == x.ver)).getD {}

/-- Task record of a version, four words (08, R391, R392). -/
def verRec (c : Core) (v : Version) (t : Nat) : List Word :=
  ((getBlock c (v.blocks.getD (t / 60) 0)).recs.drop (4 * (t % 60))).take 4

/-- Task record of an instance's task. -/
def taskRec (c : Core) (i t : Nat) : List Word := verRec c (instVersion c i) t

/-- CLASS. -/
def rcClass (r : List Word) : Nat := wf (wat r 0) 60 4
/-- Gang size: GANGM1 + 1. -/
def rcGang (r : List Word) : Nat := wf (wat r 0) 48 12 + 1
/-- INIT_COUNT. -/
def rcInit (r : List Word) : Nat := wf (wat r 0) 36 12
/-- VARIES. -/
def rcVaries (r : List Word) : Bool := wbit (wat r 0) 35
/-- POINT. -/
def rcPoint (r : List Word) : Bool := wbit (wat r 0) 34
/-- CANE. -/
def rcCane (r : List Word) : Bool := wbit (wat r 0) 33
/-- NULL_OK. -/
def rcNullOk (r : List Word) : Bool := wbit (wat r 0) 32
/-- EDGE_COUNT. -/
def rcEdges (r : List Word) : Nat := wf (wat r 0) 16 16
/-- COST_INDEX. -/
def rcCost (r : List Word) : Nat := wf (wat r 0) 0 16
/-- AFFINITY. -/
def rcAff (r : List Word) : Nat := wf (wat r 1) 56 8
/-- DESC_ADDR, as bits 51:6 of the address. -/
def rcDesc (r : List Word) : Nat := wf (wat r 1) 0 46
/-- EDGE_INDEX. -/
def rcEdge (r : List Word) : Nat := wf (wat r 2) 44 20
/-- LIVESET. -/
def rcLive (r : List Word) : Nat := wf (wat r 2) 28 16
/-- CSRC. -/
def rcCsrc (r : List Word) : Nat := wf (wat r 3) 62 2
/-- CSLOT. -/
def rcCslot (r : List Word) : Nat := wf (wat r 3) 60 2
/-- CPSLOT. -/
def rcCpslot (r : List Word) : Nat := wf (wat r 3) 54 6
/-- MAX_REPL. -/
def rcMaxRepl (r : List Word) : Nat := wf (wat r 3) 38 16

/-- A task slot's number in the GS, which keys the chunk map (08, R391; 11, R583). -/
def taskSlot (v : Version) (t : Nat) : Nat := 64 * v.blocks.getD (t / 60) 0 + 4 + t % 60

/-- Chunk bit of a task of an instance (11, R583). -/
def chunkBit (c : Core) (i t : Nat) : Bool := tget c.marv.chunkMap false (taskSlot (instVersion c i) t)

/-! ## Patch blocks (01, R27, R28; 08, R451) -/

/-- The patch block of an instance is in the patch cache. -/
def patchIn (c : Core) (i : Nat) : Bool := (tfind c.isr.patch i).isSome

/-- A patch slot of a cached block. -/
def patchSlot (c : Core) (i n : Nat) : Word := wat (tget c.isr.patch [] i) n

/-- A use of a cached block (01, R27). -/
def patchUse (c : Core) (i : Nat) : Core := { c with isr := { c.isr with lru := c.isr.lru.filter (· != i) ++ [i] } }

/-- Home address of an instance's patch block (08, R451). -/
def patchHome (c : Core) (i : Nat) : Nat := regIsrPatchHome c + 512 * i

/-- The read of a block that is not in the cache begins, unless it is under way or the block's write-back is not yet
acknowledged (01, R28; 02, R61). -/
def patchFetch (c : Core) (i : Nat) : Core :=
  if patchIn c i || c.isr.loading.contains i || hasReq c (.blkWb i) || hasReq c (.blkLoad i) then c
  else
    let c := { c with isr := { c.isr with loading := c.isr.loading ++ [i] } }
    mpRead (cntAdd c pgIsr 0x128 1) (patchHome c i) 0 512 (.blkLoad i)

/-- A block written back to its home and out of the cache (01, R27). -/
def patchEvict (c : Core) (i : Nat) : Core :=
  let blk := tget c.isr.patch [] i
  let c := { c with isr := { c.isr with patch := tdel c.isr.patch i, lru := c.isr.lru.filter (· != i) } }
  mpWrite c (patchHome c i) 0 blk (.blkWb i)

/-- A block placed in the cache of 3,040 blocks (07, Table 7.1 with 01, Table 1.3); the least recently used block of another
instance leaves it when it is full (01, R27). -/
def patchInsert (c : Core) (i : Nat) (blk : List Word) : Core :=
  let c := if c.isr.patch.length < 3040 then c
    else match c.isr.lru.find? (· != i) with
      | some j => patchEvict c j
      | none => c
  patchUse { c with isr := { c.isr with patch := tput c.isr.patch i blk } } i

/-- A patch slot of a cached block written (11, R596; 12, R644). -/
def patchPut (c : Core) (i n : Nat) (v : Word) : Core :=
  { c with isr := { c.isr with patch := tput c.isr.patch i (lset (tget c.isr.patch [] i) 0 n v) } }

/-! ## Counters (08, R412, R420, R421) -/

/-- Counter of a task. -/
def ctrOf (c : Core) (i t : Nat) : Nat := tget c.isr.ctrs 0 ((getInst c i).cbase + t)

/-- Counter of a task set. -/
def ctrSet (c : Core) (i t n : Nat) : Core :=
  { c with isr := { c.isr with ctrs := tset c.isr.ctrs 0 ((getInst c i).cbase + t) n } }

/-- A task whose counter has reached zero is due to be handed on; a Cane is due to take its count (08, R421, R424). -/
def taskReady (c : Core) (i t : Nat) : Core :=
  if rcCane (taskRec c i t) then modInst c i (fun x => { x with waitCanes := x.waitCanes ++ [t] })
  else { c with de := { c.de with due := c.de.due ++ [{ inst := i, task := t }] } }

/-- A decrement counted (08, Table 8.18; 17, event 0x032). -/
def countDec (c : Core) (i : Nat) : Core := pmuEv (cntAdd c pgDe 0x110 1) 0x032 1 (ownQ c (getInst c i).q)

/-- A SUCC edge (08, R420, R421). -/
def decCounter (c : Core) (i t : Nat) : Core :=
  let n := ctrOf c i t
  let c := countDec (ctrSet c i t (n - 1)) i
  if n = 1 then taskReady c i t else c

/-! ## Edges (08, R393, R418-R423; 14, R733) -/

/-- Outcome of a signal edge that needs a patch slot outside the cache. -/
def edgeNeeds (c : Core) (i : Nat) (e : Word) : Bool := wf e 60 2 == 1 && !patchIn c i

/-- A SIGNAL edge (08, Table 8.5, R418, R423; 14, R733). -/
def signalEdge (c : Core) (i t : Nat) (e : Word) : Core :=
  let op := wf e 60 2
  let h := wf e 38 16
  let x := if op = 1 then patchSlot c i (wf e 54 6) else w64 (wf e 0 31)
  let c := if op = 1 then patchUse c i else c
  let n := (getInst c i).serial
  match remoteDie c (wbit e 37) (wf e 31 6) with
  | .error _ => instFault c i 4 4 t
  | .ok none =>
    let c := modInst c i (fun x => { x with sigOut := x.sigOut + 1 })
    let src : StSrc := .edge i n t
    stOffer c (if op = 0 then .add src h x else .signal src h x)
  | .ok (some die) =>
    let c := modInst c i (fun x => { x with sigOut := x.sigOut + 1 })
    linkOffer c die (.edge i n t) [frSyncOp (b2n (op == 0)) 2 h 0 i x]

/-- Edges of a task walked in list order, from an edge slot, so many counted edges to come; the bound is the number of edge
slots of the GS (08, R390, R393, R419).  A walk whose next edge needs a patch slot outside the cache waits for the block. -/
def walkEdges (i t : Nat) : Nat → Nat → Nat → Core → Core
  | 0, _, _, c => c
  | _ + 1, _, 0, c => c
  | fuel + 1, slot, n + 1, c =>
    if (getInst c i).st = .aborting then c
    else
      let e := tget c.gs.edges 0 slot
      match wf e 62 2 with
      | 0 => walkEdges i t fuel (slot + 1) n (decCounter c i (wf e 46 16))
      | 1 =>
        if edgeNeeds c i e then
          patchFetch { c with de := { c.de with walks := c.de.walks ++ [(i, t, slot, n + 1)] } } i
        else walkEdges i t fuel (slot + 1) n (signalEdge c i t e)
      | 2 => walkEdges i t fuel (wf e 0 20) (n + 1) c
      | _ => c

/-- A walk of an instance waits for its patch block. -/
def walkWaits (c : Core) (i : Nat) : Bool := c.de.walks.any (fun w => w.1 == i)

/-- A task's walk, or what is left of it; at its end the task has completed (05, R254; 08, R417, R419). -/
def walkTask (c : Core) (i t slot n : Nat) : Core :=
  let c := walkEdges i t 1048576 slot n c
  if (getInst c i).st = .aborting || walkWaits c i then c
  else progress (modInst c i (fun x => { x with left := x.left - 1 })) (getInst c i).q

/-- A completed task's edges are walked once (08, R419, R427). -/
def taskDone (c : Core) (i t : Nat) : Core :=
  let r := taskRec c i t
  walkTask c i t (rcEdge r) (rcEdges r)

/-! ## Completions (08, R419, R422, R427-R431; 01, R23) -/

/-- REPL_INDEX of a copy (08, Table 8.10). -/
def replIndex (c : Core) (i t copy : Nat) : Nat :=
  let r := taskRec c i t
  if rcCane r && rcCsrc r == 1 then
    match tget (getInst c i).rslots .empty (rcCslot r) with
    | .landed _ rows => (below rows.length (fun n => decide (rows.getD n 0 ≠ 0))).getD copy 0
    | _ => copy
  else copy

/-- A completed chunk copy leaves the count of its mix (11, R599). -/
def mixCopyDone (c : Core) (i t : Nat) (r : List Word) : Core :=
  if rcCsrc r = 3 then
    let c := modInst c i (fun x => { x with
      mslots := tmod x.mslots {} (rcCslot r) (fun m => if m.task = some t then { m with inflight := m.inflight - 1 } else m) })
    c
  else c

/-- A completion that the DE takes: it is counted, a copy lowers its Cane's counter, and a completed task is walked
(08, R419, R427, R430; 15, R778). -/
def takeCpl (c : Core) (b : CplBeat) : Core :=
  let i := b.inst
  let r := taskRec c i b.task
  let o : Owner := { ownQ c (getInst c i).q with lane := b.lane }
  let c := pmuEv (cntAdd c pgDe 0x108 1) 0x031 1 o
  let c := if b.null then pmuEv (cntAdd c pgDe 0x120 1) 0x034 1 o else c
  let c := lsNote c i b.task (replIndex c i b.task b.copy) b.null b.sum (rcVaries r)
  if rcCane r then
    let n := ctrOf c i b.task
    let c := mixCopyDone (countDec (ctrSet c i b.task (n - 1)) i) i b.task r
    if n = 1 then taskDone c i b.task else c
  else taskDone c i b.task

/-- Completions held by an instance taken in order while none waits for its patch block (01, R23; 08, R422). -/
def takeHeld : Nat → Nat → Core → Core
  | 0, _, c => c
  | n + 1, i, c =>
    match (getInst c i).heldCpl with
    | [] => c
    | b :: t =>
      if (getInst c i).init || walkWaits c i then c
      else takeHeld n i (takeCpl (modInst c i (fun x => { x with heldCpl := t })) b)

/-- A completion of an instance that is not ABORTING, taken at once or held (01, R23; 08, R419, R422, R446). -/
def acceptCpl (c : Core) (b : CplBeat) : Core :=
  let x := getInst c b.inst
  if x.st = .free ∨ x.st = .aborting then c
  else if x.init || walkWaits c b.inst || !x.heldCpl.isEmpty then
    modInst c b.inst (fun x => { x with heldCpl := x.heldCpl ++ [b] })
  else takeCpl c b

/-- Waiting walks of an instance go on once its patch block is in the cache (01, R28). -/
def resumeWalks (c : Core) (i : Nat) : Core :=
  let l := c.de.walks.filter (fun w => w.1 == i)
  let c := { c with de := { c.de with walks := c.de.walks.filter (fun w => w.1 != i) } }
  let c := l.foldl (fun c w => walkTask c i w.2.1 w.2.2.1 w.2.2.2) c
  takeHeld (getInst c i).heldCpl.length i c

/-- A Cane with no copies completes: a null completion made by the DE (08, R428, R430). -/
def nullCane (c : Core) (i t : Nat) : Core :=
  let o := ownQ c (getInst c i).q
  let c := pmuEv (cntAdd c pgDe 0x108 1) 0x031 1 o
  let c := pmuEv (cntAdd c pgDe 0x120 1) 0x034 1 o
  taskDone (lsNote c i t 0 true 0 (rcVaries (taskRec c i t))) i t

/-! ## Cane counts (08, R424-R428) -/

/-- N of a Cane, if its source holds it (08, R424, Table 8.10). -/
def caneN (c : Core) (i : Nat) (r : List Word) : Option Nat :=
  let x := getInst c i
  match rcCsrc r with
  | 0 => if patchIn c i then some (patchSlot c i (rcCpslot r)).toNat else none
  | 1 =>
    match tget x.rslots .empty (rcCslot r) with
    | .landed _ rows => some (rows.filter (· != 0)).length
    | _ => none
  | 2 =>
    match tget x.rslots .empty (rcCslot r) with
    | .landed e _ => some e
    | _ => none
  | _ =>
    let m := tget x.mslots {} (rcCslot r)
    if m.used then some m.n else none

/-! ## Lanes allowed for a task (08, R432, R433; 16, R804) -/

/-- Lanes that LANE_GROUP enables (03, Table 3.4). -/
def lanesOn (c : Core) : Nat := 16 * (c.bring.straps.laneGroup.toNat + 1)

/-- An engine is PRESENT and not masked (03, R149; 16, R804). -/
def engOk (c : Core) (e : Nat) : Bool := (getEng c e).status == .present && !(getEng c e).masked

/-- Engines of a class that serve a lane (02, Table 2.7). -/
def engsOf (k cls : Nat) : List Nat :=
  match cls with
  | 1 => (List.range 64).map (fun p => 64 * k + p)
  | 2 => [0x1000 + 2 * k, 0x1001 + 2 * k]
  | 3 => [0x1080 + k]
  | 4 => [0x10C0 + k / 2]
  | _ => []

/-- Longest run of true places of a list. -/
def longestRun (l : List Bool) : Nat :=
  (l.foldl (fun (p : Nat × Nat) b => if b then (p.1 + 1, max p.2 (p.1 + 1)) else (0, p.2)) (0, 0)).2

/-- A lane can place a gang of so many arrays (08, R433). -/
def gangFits (c : Core) (k n : Nat) : Bool :=
  let l := (engsOf k 1).map (engOk c)
  if n ≤ 64 then decide (n ≤ longestRun l) else l.all id

/-- Affinity mask of a task record in a graph (08, Table 8.1). -/
def affMask (c : Core) (g : Nat) (r : List Word) : Word := wat (getImg c g).affs (rcAff r)

/-- Lanes allowed for a task (08, R432). -/
def allowed (c : Core) (i t : Nat) : List Nat :=
  let r := taskRec c i t
  let m := affMask c (getInst c i).graph r
  below (lanesOn c) (fun k => wbit m k && (engsOf k (rcClass r)).any (engOk c))

/-- Allowed lanes that can place the task's gang (08, R433). -/
def placeable (c : Core) (i t : Nat) : List Nat :=
  let r := taskRec c i t
  if rcClass r = 1 ∧ 1 < rcGang r then (allowed c i t).filter (fun k => gangFits c k (rcGang r)) else allowed c i t

/-! ## Hand-off (08, R434, R435; 15, R769, R770) -/

/-- Ready entries of a lane; a pick that waits for its engine keeps its entry's place (08, Table 8.19; 02, R847). -/
def readyLen (l : Lane) : Nat :=
  l.ready.length + ((l.wakes.map (fun w => w.entry.order)).dedup.filter (fun n => !l.ready.any (fun e => e.order == n))).length

/-- An entry pushed at the tail of a ready queue; a copy that follows the tail entry's last copy joins it (08, R434). -/
def pushTail (l : List Ready) (e : Ready) : List Ready :=
  match l.getLast? with
  | some x =>
    if x.inst = e.inst ∧ x.task = e.task ∧ x.copy + x.runm1 + 1 = e.copy then l.dropLast ++ [{ x with runm1 := x.runm1 + 1 }]
    else l ++ [e]
  | none => l ++ [e]

/-- Distance of a lane from a place in the rotation. -/
def lanePast (nl rr k : Nat) : Nat := (k + nl - rr % nl) % nl

/-- The lane that R434 chooses: the preferred one, else the next of the candidates with room (08, R434). -/
def chooseLane (c : Core) (cand : List Nat) : Option Nat :=
  let nl := lanesOn c
  let rr := c.de.rr
  let len (k : Nat) : Nat := readyLen (getLane c k)
  let home := if regDeCfgPlace c then argmin (fun k => lanePast nl rr k) cand
    else argmin (fun k => len k * 64 + lanePast nl rr k) cand
  match home with
  | none => none
  | some h =>
    if len h < 256 then some h
    else argmin (fun k => lanePast nl (h + 1) k) (cand.filter (fun k => decide (k ≠ h ∧ len k < 256)))

/-- s of static placement (15, R769). -/
def reproS (c : Core) (i t copy : Nat) : Nat := (t + replIndex c i t copy) % 65536

/-- Home lane in Reproducible Mode (15, R769). -/
def reproHome (c : Core) (i t copy : Nat) (cand : List Nat) : Option Nat :=
  match cand[(reproS c i t copy) % cand.length]? with
  | some k => if readyLen (getLane c k) < 256 then some k else none
  | none => none

/-- A ready entry placed in a lane's queue; its context is active in the period (08, R434, Table 8.18; 11, R575; 17, event
0x033). -/
def putReady (c : Core) (k : Nat) (e : Ready) : Core :=
  let o := c.de.order
  let c := modLane c k (fun l => { l with ready := pushTail l.ready { e with order := o } })
  let c := { c with de := { c.de with order := o + 1 } }
  let c := modSched c (getInst c e.inst).ctx (fun y => { y with active := true })
  pmuEv (cntAdd c pgDe 0x118 1) 0x033 1 (ownQ c (getInst c e.inst).q)

/-- The DE accepts completions: its hold buffer has room, and lock-step has (08, R435; 15, R780, R781; 16, R801). -/
def deAccepts (c : Core) : Bool := decide (c.de.hold.length < 64) && !lsFull c && !c.ras.hold

end Sys2Proof.Machine
end

