-- ==== Sys2Proof/Machine/Floats.lean ====
section
/-! DEFINITION. The number formats as the Crucible reads, adds and writes them (00, R6-R8, Table 0.5; 10, R556-R563,
Table 10.5). -/

namespace Sys2Proof.Machine

/-- What the largest exponent of a format stands for. -/
inductive FpTop where
  | ieee | e4m3 | finite
  deriving DecidableEq, Repr

/-- A binary floating-point format: exponent and fraction bits, bias, and its top exponent. -/
structure Fmt where
  /-- Exponent bits. -/
  e : Nat
  /-- Fraction bits. -/
  m : Nat
  /-- Bias. -/
  bias : Nat
  /-- Top exponent. -/
  top : FpTop
  deriving DecidableEq, Repr

/-- FP32. -/
def fp32 : Fmt := ⟨8, 23, 127, .ieee⟩

/-- A value: the magnitude of a finite one is `mant` times 2 to the `exp`. -/
inductive FVal where
  | nan
  | inf (neg : Bool)
  | fin (neg : Bool) (mant : Nat) (exp : Int)
  deriving DecidableEq, Repr

/-- The value that bits of a format spell. -/
def fpDecode (f : Fmt) (b : Nat) : FVal :=
  let neg := decide (b / 2 ^ (f.e + f.m) % 2 = 1)
  let ex := b / 2 ^ f.m % 2 ^ f.e
  let fr := b % 2 ^ f.m
  let value : FVal :=
    if ex = 0 then .fin neg fr (1 - (f.bias : Int) - f.m)
    else .fin neg (2 ^ f.m + fr) ((ex : Int) - f.bias - f.m)
  match f.top with
  | .finite => value
  | .ieee => if ex = 2 ^ f.e - 1 then (if fr = 0 then .inf neg else .nan) else value
  | .e4m3 => if ex = 2 ^ f.e - 1 ∧ fr = 2 ^ f.m - 1 then .nan else value

/-- A number divided by a power of two, rounded to nearest, ties to even. -/
def rne (n s : Nat) : Nat :=
  let q := n / 2 ^ s
  let r := 2 * (n % 2 ^ s)
  if r > 2 ^ s ∨ (r = 2 ^ s ∧ q % 2 = 1) then q + 1 else q

/-- Bits of the largest finite magnitude of a format. -/
def fpMax (f : Fmt) : Nat :=
  match f.top with
  | .ieee => (2 ^ f.e - 1) * 2 ^ f.m - 1
  | .e4m3 => 2 ^ (f.e + f.m) - 2
  | .finite => 2 ^ (f.e + f.m) - 1

/-- Bits, without the sign, of a finite magnitude rounded to nearest even in a format; the result lies above `fpMax` where the
magnitude rounds beyond it (00, R7). -/
def fpRound (f : Fmt) (mant : Nat) (exp : Int) : Nat :=
  if mant = 0 then 0
  else
    let emin : Int := 1 - f.bias
    let ex : Int := max ((Nat.log2 mant : Int) + exp) emin
    let shift : Int := ex - f.m - exp
    let q := if shift ≤ 0 then mant * 2 ^ (-shift).toNat else rne mant shift.toNat
    (ex - emin).toNat * 2 ^ f.m + q

/-- The sign bit of a format. -/
def fpSign (f : Fmt) (neg : Bool) : Nat := b2n neg * 2 ^ (f.e + f.m)

/-- The block's own bits for a NaN in an accumulator; which NaN it is shows only where it is written. -/
def nan32 : Nat := 0x7FC00000

/-- FP32 bits of a value, rounded to nearest even; beyond the range it is an infinity (10, R557). -/
def toFp32 : FVal → Nat
  | .nan => nan32
  | .inf neg => fpSign fp32 neg + 0x7F800000
  | .fin neg m e => fpSign fp32 neg + min (fpRound fp32 m e) 0x7F800000

/-- Sum of two FP32 values (00, R7). -/
def fpAdd (a b : Nat) : Nat :=
  match fpDecode fp32 a, fpDecode fp32 b with
  | .nan, _ => nan32
  | _, .nan => nan32
  | .inf s, .inf t => if s = t then a else nan32
  | .inf _, _ => a
  | _, .inf _ => b
  | .fin s m e, .fin t n f =>
    let x : Int := m * 2 ^ (e + 149).toNat
    let y : Int := n * 2 ^ (f + 149).toNat
    let z := (if s then -x else x) + (if t then -y else y)
    if z = 0 ∧ s ∧ t then fpSign fp32 true
    else toFp32 (.fin (decide (z < 0)) z.natAbs (-149))

/-! ## ESL-LOG8 (10, R561-R563) -/

/-- FP32 significands nearest to 2^(f/8), f from 0 to 7. -/
def eslTable : List Nat := [8388608, 9147842, 9975792, 10878679, 11863283, 12937002, 14107901, 15384775]

/-- FP32 bits of an ESL-LOG8 code (10, R561, R562). -/
def eslDecode (b : Nat) : Nat :=
  let e := b % 128
  if e = 0 then (if b / 128 % 2 = 1 then nan32 else 0)
  else fpSign fp32 (decide (b / 128 % 2 = 1)) + (127 + (e + 64) / 8 - 16) * 2 ^ 23 + (eslTable.getD (e % 8) 0 - 2 ^ 23)

/-- ESL-LOG8 code of an FP32 value (10, R563): a step is passed where the magnitude's 16th power exceeds the power of two
halfway between two codes. -/
def eslEncode (b : Nat) : Nat :=
  match fpDecode fp32 b with
  | .nan => 0x80
  | .inf neg => b2n neg * 128 + 127
  | .fin neg m e =>
    let n := m * 2 ^ (e + 149).toNat
    if n < 2 ^ 141 then 0
    else
      let steps := below 126 (fun j => decide (2 ^ (2 * j + 2259) < n ^ 16))
      b2n neg * 128 + (1 + steps.length)

/-! ## Formats (00, Table 0.5; 10, Table 10.5) -/

/-- Floating-point format of a format code, the element format of an MX one. -/
def fmtOf : Nat → Option Fmt
  | 0x0 => some fp32
  | 0x1 => some ⟨5, 10, 15, .ieee⟩
  | 0x2 => some ⟨8, 7, 127, .ieee⟩
  | 0x3 => some ⟨4, 3, 7, .e4m3⟩
  | 0x4 => some ⟨5, 2, 15, .ieee⟩
  | 0x5 => some ⟨3, 2, 3, .finite⟩
  | 0x6 => some ⟨2, 3, 1, .finite⟩
  | 0x7 => some ⟨2, 1, 1, .finite⟩
  | 0x8 => some (if Config.mx8E5M2 then ⟨5, 2, 15, .ieee⟩ else ⟨4, 3, 7, .e4m3⟩)
  | 0x9 => some (if Config.mx6E3M2 then ⟨3, 2, 3, .finite⟩ else ⟨2, 3, 1, .finite⟩)
  | 0xA => some ⟨2, 1, 1, .finite⟩
  | _ => none

/-- Words of a block of an MX format; 0 for the others (10, Table 10.5). -/
def mxWords : Nat → Nat
  | 0x8 => 4
  | 0x9 => 3
  | 0xA => 2
  | _ => 0

/-- Bits of an element of a format. -/
def elemBits : Nat → Nat
  | 0x0 | 0xB => 32
  | 0x1 | 0x2 | 0xC => 16
  | 0x5 | 0x6 | 0x9 => 6
  | 0x7 | 0xA | 0xE => 4
  | _ => 8

/-- Elements of a word of a format other than MX. -/
def perWord (fmt : Nat) : Nat := 64 / elemBits fmt

/-- An integer format. -/
def isInt (fmt : Nat) : Bool := decide (0xB ≤ fmt ∧ fmt ≤ 0xE)

/-- WORDS is allowed for a format (10, Table 10.5). -/
def wordsOk (fmt w : Nat) : Bool :=
  let n := mxWords fmt
  n == 0 || decide (n < w ∧ (w - 1) % n = 0)

/-- Elements of a contribution. -/
def elemCount (fmt w : Nat) : Nat := if mxWords fmt = 0 then perWord fmt * w else (w - 1) / mxWords fmt * 32

/-- Accumulator lines of a contribution (10, R556). -/
def linesOf (fmt w : Nat) : Nat := (elemCount fmt w * (if isInt fmt then 6 else 4) + 127) / 128

/-- A two's complement number. -/
def signed (bits b : Nat) : Int := if 2 ^ (bits - 1) ≤ b then (b : Int) - 2 ^ bits else b

/-- An element of a format other than MX as its accumulator holds it (10, R557). -/
def elemValue (fmt b : Nat) : Int :=
  if isInt fmt then signed (elemBits fmt) b
  else
    match fmtOf fmt with
    | some f => toFp32 (fpDecode f b)
    | none => eslDecode b

/-- An MX element under its block scale (10, R557). -/
def mxValue (fmt b scale : Nat) : Int :=
  if scale = 0xFF then nan32
  else
    match (fmtOf fmt).map (fun f => fpDecode f b) with
    | some (.fin neg m e) => toFp32 (.fin neg m (e + scale - 127))
    | some v => toFp32 v
    | none => 0

/-- Elements of a contribution, as accumulators hold them (10, Table 10.5). -/
def elems (fmt w : Nat) (data : List Word) : List Int :=
  let n := mxWords fmt
  let b := elemBits fmt
  if n = 0 then
    (data.take w).flatMap (fun x => (List.range (perWord fmt)).map (fun j => elemValue fmt (wf x (b * j) b)))
  else
    (List.range ((w - 1) / n)).flatMap (fun k =>
      let blk := bytesAt data (8 * n * k) (8 * n)
      (List.range 32).map (fun j => mxValue fmt (fld blk (b * j) b) (wf (wat data (w - 1)) (8 * k) 8)))

/-- An integer kept between two bounds. -/
def clampInt (bits : Nat) (x : Int) : Int := max (-(2 ^ (bits - 1))) (min (2 ^ (bits - 1) - 1) x)

/-- One addition to an accumulator, and whether it saturated (10, R557, R558). -/
def accAdd (fmt : Nat) (a x : Int) : Int × Bool :=
  if isInt fmt then
    let s := a + x
    (clampInt 48 s, decide (clampInt 48 s ≠ s))
  else (fpAdd a.toNat x.toNat, false)

/-- Bits of an element converted back to its format, a NaN of it from a number that names which NaN, and whether a NaN was
lost (10, R560). -/
def elemBack (fmt : Nat) (a : Int) (which : Nat) : Nat × Bool :=
  if isInt fmt then ((clampInt (elemBits fmt) a % 2 ^ elemBits fmt).toNat, false)
  else
    match fmtOf fmt with
    | none => (eslEncode a.toNat, false)
    | some f =>
      match fpDecode fp32 a.toNat with
      | .inf neg => (fpSign f neg + fpMax f, false)
      | .fin neg m e => (fpSign f neg + min (fpRound f m e) (fpMax f), false)
      | .nan =>
        match f.top with
        | .finite => (0, true)
        | .e4m3 => (fpSign f (decide (which % 2 = 1)) + 2 ^ (f.e + f.m) - 1, false)
        | .ieee =>
          (fpSign f (decide (which % 2 = 1)) + (2 ^ f.e - 1) * 2 ^ f.m + 2 ^ (f.m - 1) + which / 2 % 2 ^ (f.m - 1), false)

/-- Elements packed in words, with the bits that a word of ten leaves over taken from a number (10, Table 10.5). -/
def packElems (fmt : Nat) : List Nat → Nat → List Nat → List Word
  | _, 0, _ => []
  | el, n + 1, left =>
    let b := elemBits fmt
    let p := perWord fmt
    w64 (ofDigits b (el.take p) + left.headD 0 % 2 ^ (64 - b * p) * 2 ^ (b * p)) :: packElems fmt (el.drop p) n (left.drop 1)
where
  /-- Digits of so many bits, the lowest first. -/
  ofDigits (b : Nat) : List Nat → Nat
    | [] => 0
    | x :: t => x % 2 ^ b + 2 ^ b * ofDigits b t

end Sys2Proof.Machine
end

