-- ==== Sys2Proof/Machine/Crucible.lean ====
section
/-! DEFINITION. The Crucible: binding, rounds, accumulation, release and the enabling of combining queues (10, R542-R566). -/

namespace Sys2Proof.Machine

/-! ## Fields of a combining queue (10, Table 10.9) -/

/-- GRAPH. -/
def cqGraph (q : Cq) : Nat := rf q.cfg0 20 12
/-- TASK. -/
def cqTask (q : Cq) : Nat := rf q.cfg0 4 16
/-- FORMAT. -/
def cqFormat (q : Cq) : Nat := rf q.cfg0 0 4
/-- EXPECT. -/
def cqExpect (q : Cq) : Nat := rf q.cfg1 16 16
/-- WORDS. -/
def cqWords (q : Cq) : Nat := rf q.cfg1 12 4 + 1
/-- STRIDE. -/
def cqStride (q : Cq) : Nat := rf q.cfg1 9 3
/-- ORDER. -/
def cqOrder (q : Cq) : Bool := rbit q.cfg1 8
/-- OUT_CONV. -/
def cqConv (q : Cq) : Bool := rbit q.cfg1 7
/-- DONE. -/
def cqDone (q : Cq) : Nat := rf q.cfg2 16 16
/-- OUT_PSLOT. -/
def cqOut (q : Cq) : Nat := rf q.cfg2 8 6
/-- IN_PSLOT. -/
def cqIn (q : Cq) : Nat := rf q.cfg2 0 6
/-- OUT_OFF. -/
def cqOff (q : Cq) : Nat := rf q.cfg3 0 16

/-! ## Binding and faults -/

/-- The combining queue bound to a task of a graph (10, R542). -/
def cqFind (c : Core) (g t : Nat) : Option Nat :=
  (c.cru.cqs.find? (fun e => e.2.st != .off && cqGraph e.2 == g && cqTask e.2 == t)).map (·.1)

/-- A fault that the Crucible finds (10, R566). -/
def cqFault (c : Core) (i task code : Nat) : Core :=
  let x := getInst c i
  if x.st = .free ∨ x.st = .aborting then c else instFault (irqSet c pgCru 2) i 5 code task

/-- A round of the queue is open for an instance: its own, or another one (10, R545). -/
def cqMine (c : Core) (q : Cq) (i : Nat) : Bool := q.inst == i && q.serial == (getInst c i).serial

/-- A round is open or being released. -/
def cqBusy (q : Cq) : Bool := q.st == .open_ || q.st == .releasing

/-- A round of the queue would act as ORDER 1 (10, R550, R552). -/
def cqOrd (c : Core) (q : Cq) : Bool := cqOrder q || regCruCfgForceOrder c || regDetCtrlRepro c

/-- A round opens and binds to an instance (10, R544, R550, R552). -/
def cqOpen (c : Core) (n i t target : Nat) : Core :=
  let ord := cqOrd c (getCq c n)
  modCq c n (fun q => { q with
    st := .open_, inst := i, serial := (getInst c i).serial, task := t, round := q.round + 1, target := target, ord := ord })

/-- Contribution address of a sender index (10, R543). -/
def cqSlot (c : Core) (q : Cq) (s : Nat) : Nat := (patchSlot c q.inst (cqIn q)).toNat + s * 2 ^ (7 + cqStride q)

/-- A contribution's address is aligned and in the carve-out (10, Table 10.7 CQ_ADDR). -/
def cqSlotOk (c : Core) (q : Cq) (s : Nat) : Bool :=
  cqSlot c q s % 128 == 0 && inCarve c (getInst c q.inst).ctx (cqSlot c q s) (8 * cqWords q)

/-- The read of a contribution. -/
def cqRead (c : Core) (n s : Nat) : Core :=
  let q := getCq c n
  mpRead (patchUse c q.inst) (cqSlot c q s) (getCtx c (getInst c q.inst).ctx).part (8 * cqWords q) (.contrib n q.round s)

/-! ## The sum (10, R553, R559, R560) -/

/-- Elements of a sum converted back, NaNs and unused bits taken from free values. -/
def cqBack (fmt : Nat) (acc : Tbl Int) : List Nat → Core → List Nat × Core
  | [], c => ([], c)
  | k :: t, c =>
    let f := freeNat c
    let b := elemBack fmt (tget acc 0 k) f.1
    let c := if b.2 then cntAdd f.2 pgCru 0x150 1 else f.2
    let r := cqBack fmt acc t c
    (b.1 :: r.1, r.2)

/-- So many free numbers. -/
def freeNats : Nat → Core → List Nat × Core
  | 0, c => ([], c)
  | n + 1, c =>
    let f := freeNat c
    let r := freeNats n f.2
    (f.1 :: r.1, r.2)

/-- FP32 elements two to a word. -/
def fpWords : List Nat → List Word
  | a :: b :: t => w64 (a + b * 2 ^ 32) :: fpWords t
  | [a] => [w64 a]
  | [] => []

/-- Words of a round's sum. -/
def cqSum (c : Core) (q : Cq) : List Word × Core :=
  let fmt := cqFormat q
  let idx := List.range (elemCount fmt (cqWords q))
  if cqConv q then
    let r := cqBack fmt q.acc idx c
    let f := freeNats (cqWords q) r.2
    (packElems fmt r.1 (cqWords q) f.1, f.2)
  else if isInt fmt then (idx.map (fun k => BitVec.ofInt 64 (tget q.acc 0 k)), c)
  else
    let r := cqBack 0 q.acc idx c
    -- OUT_CONV 0 keeps infinities, which the conversion of OUT_CONV 1 would limit
    (fpWords ((idx.zip r.1).map (fun p =>
      match fpDecode fp32 (tget q.acc 0 p.1).toNat with
      | .nan => p.2
      | _ => (tget q.acc 0 p.1).toNat)), r.2)

/-- The sum is written (10, R553, Table 10.7 CQ_ADDR). -/
def cqWriteSum (c : Core) (n : Nat) : Core :=
  let q := getCq c n
  let addr := (patchSlot c q.inst (cqOut q)).toNat + 256 * cqOff q
  let r := cqSum c q
  let x := (getInst c q.inst).ctx
  if addr % 256 ≠ 0 ∨ inCarve c x addr (8 * r.1.length) = false then cqFault c q.inst q.task 2
  else
    let c := modCq (patchUse r.2 q.inst) n (fun q => { q with st := .releasing })
    mpWrite c addr (getCtx c x).part r.1 (.sum n q.round)

/-- The slots of an ORDER 1 round are read (10, R550). -/
def cqReadAll (c : Core) (n : Nat) : Core :=
  let q := getCq c n
  let l := List.range (q.top + 1)
  if l.all (cqSlotOk c q) then l.foldl (fun c s => cqRead c n s) (modCq c n (fun q => { q with reading := some 0 }))
  else cqFault c q.inst q.task 2

/-- What the round owes once its count has reached the target: the reads of ORDER 1, or the sum (10, R550, R553).  It waits
for the patch block, and starts nothing under a hold or while quiescing (03, Table 3.3; 16, R801). -/
def cqDue (c : Core) (n : Nat) : Core :=
  let q := getCq c n
  if q.st = .open_ ∧ (q.zero = true ∨ q.closing.isSome = true) ∧ mayStart c = true then
    if !patchIn c q.inst then patchFetch c q.inst
    else if q.ord && !q.zero then
      match q.reading with
      | none => cqReadAll c n
      | some k => if q.top < k then cqWriteSum c n else c
    else cqWriteSum c n
  else c

/-! ## Contributions (10, R544-R550) -/

/-- Target of a round that a completion opens (10, R544). -/
def cqTarget (c : Core) (q : Cq) (i t : Nat) : Option Nat :=
  if cqExpect q ≠ 0 then some (cqExpect q)
  else
    let r := taskRec c i t
    if rcCane r then caneN c i r else some 1

/-- A completion whose contribution is in the count passes on, or closes the round (10, R549, R550, R553). -/
def cqCounted (c : Core) (n : Nat) (b : CplBeat) : Core :=
  let q := getCq c n
  if q.target ≤ q.count then modCq c n (fun q => { q with closing := some b }) else acceptCpl c b

/-- One completion enters an open round (10, R543, R546, R549, R550). -/
def cqEnter (c : Core) (n : Nat) (b : CplBeat) : Core :=
  let q := getCq c n
  let s := if rcCane (taskRec c b.inst b.task) then replIndex c b.inst b.task b.copy else 0
  let c := if b.null then cntAdd c pgCru 0x138 1 else c
  if q.ord || b.null then
    cqCounted (modCq c n (fun q => { q with count := q.count + 1, top := max q.top s })) n b
  else if cqSlotOk c q s then
    cqRead (modCq c n (fun q => { q with top := max q.top s, open_ := q.open_ ++ [{ idx := s, beat := b }] })) n s
  else cqFault c b.inst b.task 2

/-- The first waiting completion enters the round, or opens it; none where it must wait. -/
def cqNext (c : Core) (n : Nat) : Option Core :=
  let q := getCq c n
  match q.waiting with
  | [] => none
  | b :: t =>
    let c' := modCq c n (fun q => { q with waiting := t })
    let reads := !b.null && !(if q.st = .open_ then q.ord else cqOrd c q)
    if !mayStart c then none
    else if reads && !patchIn c b.inst then none
    else if q.st = .idle then
      match cqTarget c q b.inst b.task with
      | none => none
      | some k => some (cqEnter (cqOpen c' n b.inst b.task k) n b)
    else if q.st = .open_ ∧ q.count + q.open_.length < q.target then some (cqEnter c' n b)
    else none

/-- Waiting completions enter while they can. -/
def cqPumpN : Nat → Nat → Core → Core
  | 0, n, c => cqDue c n
  | k + 1, n, c => match cqNext c n with | some d => cqPumpN k n d | none => cqDue c n

/-- A combining queue goes on as far as it can. -/
def cqPump (c : Core) (n : Nat) : Core :=
  let q := getCq c n
  let c := match q.waiting with
    | b :: _ => if patchIn c b.inst || !mayStart c then c else patchFetch c b.inst
    | [] => c
  cqPumpN q.waiting.length n c

/-- Every combining queue of an instance goes on: its patch block has come in, or a hold has ended. -/
def cruResume (c : Core) (p : Nat → Bool) : Core :=
  (c.cru.cqs.filter (fun e => (cqBusy e.2 && p e.2.inst) || e.2.waiting.any (fun b => p b.inst))).foldl
    (fun c e => cqPump c e.1) c

/-- A completion with status OK or NULL on its way to the DE: a combining queue that it matches takes it first
(10, R542, R545, R546). -/
def cruTake (c : Core) (b : CplBeat) : Core :=
  let x := getInst c b.inst
  if x.st = .free ∨ x.st = .aborting then c
  else
    match cqFind c x.graph b.task with
    | none => acceptCpl c b
    | some n =>
      let q := getCq c n
      if cqBusy q && !cqMine c q b.inst then cqFault c b.inst b.task 3
      else cqPump (modCq c n (fun q => { q with waiting := q.waiting ++ [b] })) n

/-- Completions in the Crucible's input (10, R555). -/
def cruInput (c : Core) : Nat := (c.cru.cqs.map (fun e => e.2.waiting.length + e.2.open_.length)).sum

/-- The DE may accept a completion of a task: one that matches a combining queue needs room in the input (10, R555). -/
def cruRoom (c : Core) (i t : Nat) : Bool := (cqFind c (getInst c i).graph t).isNone || decide (cruInput c < 64)

/-- A bound Cane's count is taken: its round opens; with no copies it also closes, and its null completion waits for the
release (10, R544, R547).  The flag says that the Crucible keeps the null completion. -/
def cruCane (c : Core) (i t n : Nat) : Core × Bool :=
  match cqFind c (getInst c i).graph t with
  | none => (c, false)
  | some k =>
    let q := getCq c k
    if cqBusy q then
      if n = 0 ∧ cqMine c q i = false then (cqFault c i t 3, true) else (c, false)
    else
      let target := if cqExpect q = 0 then n else cqExpect q
      let c := cqOpen c k i t target
      if n = 0 then (cqDue (modCq c k (fun q => { q with zero := true })) k, true) else (c, false)

/-! ## Accumulation and release -/

/-- A contribution added to the accumulators (10, R549, R550, R557, R558; 17, event 0x070). -/
def cqAdd (c : Core) (n : Nat) (data : List Word) : Core :=
  let q := getCq c n
  let fmt := cqFormat q
  let r := (elems fmt (cqWords q) data).foldl (fun (p : Tbl Int × Nat × Nat) x =>
    let a := accAdd fmt (tget p.1 0 p.2.1) x
    (tset p.1 0 p.2.1 a.1, p.2.1 + 1, p.2.2 + b2n a.2)) (q.acc, 0, 0)
  let c := modCq c n (fun q => { q with acc := r.1 })
  let c := cntAdd (cntAdd c pgCru 0x130 1) pgCru 0x140 r.2.2
  pmuEv c 0x070 (cqWords q) (ownQ c (getInst c q.inst).q)

/-- Data of ORDER 1 added in ascending order of slot (10, R550). -/
def cqDrain : Nat → Nat → Core → Core
  | 0, _, c => c
  | k + 1, n, c =>
    let q := getCq c n
    match q.reading with
    | none => c
    | some s =>
      match tfind q.stash s with
      | none => c
      | some data =>
        cqDrain k n (modCq (cqAdd c n data) n (fun q => { q with reading := some (s + 1), stash := tdel q.stash s }))

/-- The tag of the oldest read of a combining queue's slot. -/
def contribTag (c : Core) (n s : Nat) : Option ReqTag :=
  (c.io.reqs.find? (fun r => match r.tag with | .contrib a _ b => a == n && b == s | _ => false)).map (·.tag)

/-- Data of a slot of the open round. -/
def cqData (c : Core) (n s : Nat) (st : QStatus) (data : List Word) : Core :=
  let q := getCq c n
  if st ≠ .ok then cqFault c q.inst q.task 1
  else if q.ord then
    let c := modCq c n (fun q => { q with stash := tput q.stash s data })
    cqDue (cqDrain (q.stash.length + 1) n c) n
  else
    match ltake (fun (x : Contrib) => x.idx == s) q.open_ with
    | none => c
    | some (x, l) =>
      let c := modCq c n (fun q => { q with open_ := l, count := q.count + 1 })
      cqPump (cqCounted (cqAdd c n data) n x.beat) n

/-- CONTRIBUTION_ADD: the data of a slot returns; that of a round no longer open is discarded (10, R548-R550, R566). -/
def execContributionAdd (cq : Fin 1024) (idx : BitVec 16) (st : QStatus) (data : List Word) (s : State) :
    Host.Outcome State Fault Refusal :=
  mission (fun c =>
    match contribTag c cq.val idx.toNat with
    | none => c
    | some tag =>
      match takeReq c tag with
      | none => c
      | some (r, c) =>
        let c := notePoison c st (pageTy pgCru) r.addr
        let q := getCq c cq.val
        if q.st = .open_ ∧ tag = .contrib cq.val q.round idx.toNat then cqData c cq.val idx.toNat st data else c) s

/-- The round is over: its accumulators are zero, and the completion that closed it is walked (10, R547, R553, R554). -/
def cqFinish (c : Core) (n : Nat) : Core :=
  let q := getCq c n
  let c := modCq c n (fun q => { q with
    st := .idle, count := 0, target := 0, top := 0, open_ := [], closing := none, zero := false, reading := none
    stash := [], handed := false, acc := [] })
  let c := match q.closing with
    | some b => acceptCpl c b
    | none => if q.zero then nullCane c q.inst q.task else c
  cqPump c n

/-- The ADD on DONE has left the Crucible: the ST has taken it (10, R553). -/
def cqHanded (c : Core) (n : Nat) : Bool :=
  !(c.st.offered.any (fun o => match o with | .add (.crucible k) _ _ => k == n | _ => false))

/-- The release goes on once the ST has taken the ADD. -/
def cqWalk (c : Core) (n : Nat) : Core :=
  let q := getCq c n
  if q.st = .releasing ∧ q.handed = true ∧ cqHanded c n = true then cqFinish c n else c

/-- The sum is in memory: DONE is signalled (10, R553, Table 10.7). -/
def cqSignal (c : Core) (n : Nat) : Core :=
  let q := getCq c n
  let o := getObj c (cqDone q)
  if o.st = .free ∨ accessOk c o.access o.owner (getInst c q.inst).ctx = false then cqFault c q.inst q.task 4
  else
    let c := modCq (cntAdd c pgCru 0x128 1) n (fun q => { q with handed := true })
    cqWalk (stOffer c (.add (.crucible n) (cqDone q) 1)) n

/-- The tag of the oldest sum write of a combining queue. -/
def sumTag (c : Core) (n : Nat) : Option ReqTag :=
  (c.io.reqs.find? (fun r => match r.tag with | .sum a _ => a == n | _ => false)).map (·.tag)

/-- ROUND_RELEASE: the sum write is acknowledged; or the ST has room for the ADD that it lacked (10, R553, R566). -/
def execRoundRelease (cq : Fin 1024) (st : QStatus) (s : State) : Host.Outcome State Fault Refusal :=
  mission (fun c =>
    match sumTag c cq.val with
    | none => cqWalk c cq.val
    | some tag =>
      match takeReq c tag with
      | none => c
      | some (_, c) =>
        let q := getCq c cq.val
        if q.st = .releasing ∧ tag = .sum cq.val q.round then
          if st ≠ .ok then cqFault c q.inst q.task 1 else cqSignal c cq.val
        else c) s

/-! ## Enabling (10, R564, R565) -/

/-- The first check of Table 10.6 that fails. -/
def cqCheck (c : Core) (n : Nat) : Option Nat :=
  let q := getCq c n
  let fmt := cqFormat q
  let w := cqWords q
  if !wordsOk fmt w then some 1
  else if mxWords fmt ≠ 0 ∧ cqConv q then some 2
  else if c.cru.cqs.any (fun e => e.1 != n && e.2.st != .off && cqGraph e.2 == cqGraph q && cqTask e.2 == cqTask q) then some 3
  else if 5 < cqStride q ∨ 2 ^ (7 + cqStride q) < 8 * w then some 4
  else if 1024 < c.cru.used + linesOf fmt w then some 5
  else none

/-- A write of CQ_CTRL (10, R564, R565; 04, R174). -/
def writeCqCtrl (c : Core) (v : Reg) : Core :=
  let n := regCruCqSelCq c
  let q := getCq c n
  if rbit v 0 then
    if q.st = .off then
      match cqCheck c n with
      | some k => pageErr c pgCru 0x10 0 k
      | none =>
        let l := linesOf (cqFormat q) (cqWords q)
        let c := modCq c n (fun q => { q with st := .idle, lines := l })
        { c with cru := { c.cru with used := c.cru.used + l } }
    else c
  else if q.st = .off then c
  else if cqBusy q then pageErr c pgCru 0x0A 0x118 v.toNat
  else
    let c := modCq c n (fun q => { q with st := .off, lines := 0 })
    { c with cru := { c.cru with used := c.cru.used - q.lines } }

end Sys2Proof.Machine
end

