-- ==== Sys2Proof/Machine/Handoff.lean ====
section
/-! DEFINITION. Canes taking their counts and the hand-off of tasks and copies to lanes (08, R424-R435). -/

namespace Sys2Proof.Machine

/-- A Cane's count taken (08, R424-R428; 11, R599). -/
def takeCane (c : Core) (i t : Nat) : Core :=
  let r := taskRec c i t
  match caneN c i r with
  | none => if rcCsrc r = 0 then patchFetch c i else c
  | some n =>
    let c := if rcCsrc r = 0 then patchUse c i else c
    if rcMaxRepl r < n then instFault c i 4 3 t
    else
      let c := cntAdd c pgDe 0x128 1
      let c := modInst c i (fun x => { x with waitCanes := x.waitCanes.filter (· != t) })
      let k := cruCane (ctrSet c i t n) i t n
      let c := k.1
      if (getInst c i).st = .aborting then c
      else if n = 0 then (if k.2 then c else nullCane c i t)
      else if rcCsrc r = 3 then
        modInst c i (fun x => { x with mslots := tmod x.mslots {} (rcCslot r) (fun m => { m with task := some t }) })
      else { c with de := { c.de with due := c.de.due ++ [{ inst := i, task := t, runm1 := n - 1 }] } }

/-! ## Hand-off (08, R429, R434, R435) -/

/-- One task or copy handed on: none where it must be held (08, R429, R432-R434, R440; 15, R769, R770). -/
def handOn (c : Core) (e : Ready) : Option Core :=
  let i := e.inst
  let r := taskRec c i e.task
  let rowsZero := match tget (getInst c i).rslots .empty (rcCslot r) with
    | .landed _ rows => rows.getD e.copy 0 == 0
    | _ => false
  if rcCane r && rcCsrc r == 2 && rcNullOk r && rowsZero then
    some (cruTake c { inst := i, task := e.task, copy := e.copy, null := true })
  else
    let cand := placeable c i e.task
    if (allowed c i e.task).isEmpty then some (instFault c i 4 1 e.task)
    else if cand.isEmpty || decide (rcClass r = 1 ∧ 64 < rcGang r ∧ cand.length < rcGang r / 64) then
      some (instFault c i 4 2 e.task)
    else if rcClass r = 1 ∧ 64 < rcGang r then
      let o := c.de.order
      let c := { c with de := { c.de with coord := c.de.coord ++ [{ e with order := o }], order := o + 1 } }
      some (pmuEv (cntAdd c pgDe 0x118 1) 0x033 1 (ownQ c (getInst c i).q))
    else if regDetCtrlRepro c then (reproHome c i e.task e.copy cand).map (fun k => putReady c k e)
    else
      (chooseLane c cand).map (fun k =>
        putReady { c with de := { c.de with rr := (k + 1) % lanesOn c } } k e)

/-- The first copy of an entry. -/
def firstCopy (e : Ready) : Ready := { e with runm1 := 0 }

/-- What is left of an entry without its first copy. -/
def restCopies (e : Ready) : List Ready := if e.runm1 = 0 then [] else [{ e with copy := e.copy + 1, runm1 := e.runm1 - 1 }]

/-- The next task or copy handed on: held ones go first, and while one is held nothing newer is handed on, to a lane or to the
buffer; what cannot be placed is held (08, R434, R435; 16, R801). -/
def handNext (c : Core) : Core :=
  if c.ras.hold then c
  else
    match c.de.hold with
    | h :: t =>
      match handOn { c with de := { c.de with hold := t } } h with
      | some d => d
      | none => c
    | [] =>
      match c.de.due with
      | [] => c
      | e :: t =>
        let c := { c with de := { c.de with due := restCopies e ++ t } }
        match handOn c (firstCopy e) with
        | some d => d
        | none => { c with de := { c.de with hold := [firstCopy e] } }

end Sys2Proof.Machine
end

