-- ==== Sys2Proof/Machine/Shears.lean ====
section
/-! DEFINITION. The Shears: selection, capacity, sorting and the tables of a route as pure functions (12, R628-R653). -/

namespace Sys2Proof.Machine

/-! ## The route descriptor (12, Table 12.1) -/

/-- A number of a descriptor's bytes. -/
def dsc (w : List Word) (off len : Nat) : Nat := bytesAt w off len
/-- MODE. -/
def dMode (w : List Word) : Nat := dsc w 6 1
/-- K. -/
def dK (w : List Word) : Nat := dsc w 7 1
/-- TMAX. -/
def dTmax (w : List Word) : Nat := dsc w 10 2
/-- E. -/
def dE (w : List Word) : Nat := dsc w 12 2
/-- LAYOUT. -/
def dLayout (w : List Word) : Nat := dsc w 14 1
/-- SFMT. -/
def dSfmt (w : List Word) : Nat := dsc w 15 1
/-- CAND_K. -/
def dCandK (w : List Word) : Nat := dsc w 16 1
/-- GROUP. -/
def dGroup (w : List Word) : Nat := dsc w 17 1
/-- CAP_Q. -/
def dCapQ (w : List Word) : Nat := dsc w 18 2
/-- PITCH. -/
def dPitch (w : List Word) : Nat := dsc w 20 4
/-- HASH_SEED. -/
def dSeed (w : List Word) : Nat := dsc w 24 4
/-- ROW_BYTES. -/
def dRowBytes (w : List Word) : Nat := dsc w 28 4
/-- The n-th address: IN, DIT, TT, GGT, PLAN, SUM, RESID, XBUF. -/
def dAddr (w : List Word) (n : Nat) : Nat := dsc w (32 + 8 * n) 8

/-- The token count T (12, "The route descriptor"; 07, R371). -/
def tokensOf (r : Route) : Nat := r.tokens.getD (dsc r.descW 8 2)

/-- Bytes of a score. -/
def scoreBytes (fmt : Nat) : Nat := elemBits fmt / 8

/-- Bytes of one input row. -/
def rowSize (w : List Word) : Nat :=
  if dMode w = 1 then 8 else if dLayout w = 0 then dE w * scoreBytes (dSfmt w) else 4 * dCandK w

/-- The first check of Table 12.2 that fails. -/
def descBad (r : Route) (groupOn : Bool) : Option Nat :=
  let w := r.descW
  let topk := dMode w == 0
  if dsc w 0 4 ≠ 0x45545552 ∨ dsc w 4 2 ≠ 1 ∨ (w.drop 12).any (· != 0) = true then some 1
  else if 1 < dMode w ∨ dK w = 0 ∨ 2 < dK w ∨ dE w = 0 ∨ 512 < dE w ∨ dE w < dK w then some 2
  else if dTmax w < tokensOf r ∨ (r.tokens.isNone = true ∧ 8192 < dsc w 8 2) then some 3
  else if topk && (decide (1 < dLayout w) || (dLayout w == 0 && !decide (dSfmt w ∈ [0x0, 0x1, 0x2, 0x3, 0x4, 0xF]))
      || (dLayout w == 1 && decide (dCandK w < dK w ∨ 8 < dCandK w))) then some 4
  else if dCapQ w = 0 ∨ dPitch w < rowSize w then some 5
  else if dAddr w 4 % 4096 ≠ 0 ∨ (List.range 8).any (fun n => dAddr w n % 256 != 0) = true then some 6
  else if !groupOn then some 7
  else none

/-! ## Choices (12, R631-R634) -/

/-- Order of FP32 scores: the larger the number, the higher the score; both zeros are equal (12, R631). -/
def scoreKey (b : Nat) : Int := if b < 2 ^ 31 then b else -((b - 2 ^ 31 : Nat) : Int)

/-- A score is NaN. -/
def scoreNan (b : Nat) : Bool := fpDecode fp32 b == .nan

/-- A candidate: expert and FP32 score. -/
abbrev Cand := Nat × Nat

/-- One candidate ranks before another (12, R631). -/
def ranksFirst (a b : Cand) : Bool :=
  decide (scoreKey b.2 < scoreKey a.2) || (scoreKey a.2 == scoreKey b.2 && decide (a.1 < b.1))

/-- Insertion in rank order. -/
def rankIns (x : Cand) : List Cand → List Cand
  | [] => [x]
  | y :: t => if ranksFirst x y then x :: y :: t else y :: rankIns x t

/-- Candidates in rank order; a repeated expert keeps its first rank (12, R631). -/
def ranked (l : List Cand) : List Cand :=
  let s := (l.filter (fun x => !scoreNan x.2)).foldl (fun a x => rankIns x a) []
  s.foldl (fun a x => if a.any (fun y => y.1 == x.1) then a else a ++ [x]) []

/-- A score of a format in FP32 (12, R631). -/
def scoreOf (fmt b : Nat) : Nat := (elemValue fmt b).toNat

/-- Candidates of a token's input row (12, "Inputs"). -/
def candsOf (w : List Word) (inp : List Word) (t : Nat) : List Cand :=
  let base := t * dPitch w
  if dLayout w = 0 then
    let n := scoreBytes (dSfmt w)
    (List.range (dE w)).map (fun e => (e, scoreOf (dSfmt w) (bytesAt inp (base + e * n) n)))
  else
    ((List.range (dCandK w)).map (fun j =>
      let x := bytesAt inp (base + 4 * j) 4
      (x % 512, x / 2 ^ 16 * 2 ^ 16))).filter (fun x => decide (x.1 < dE w))

/-- Choices of a token: rank by rank, none where invalid (12, R632, R634). -/
def choicesOf (w : List Word) (inp : List Word) (t : Nat) : List (Option Cand) :=
  let k := dK w
  if dMode w = 1 then
    let key := toBytes (bytesAt inp (t * dPitch w) 8) 8
    let h (r : Nat) : Nat := (crc32c (key ++ toBytes ((dSeed w + r) % 2 ^ 32) 4)).toNat % dE w
    let one := 0x3F800000
    let e1 := if h 1 = h 0 then (h 0 + 1) % dE w else h 1
    if k = 2 then [some (h 0, one), some (e1, one)] else [some (h 0, one)]
  else
    let l := ranked (candsOf w inp t)
    (List.range k).map (fun r => l[r]?)

/-! ## Placement (12, Table 12.13) -/

/-- Word 0 of an expert's placement entry. -/
def plW (p : List Word) (e : Nat) : Word := wat p (2 * e)
/-- TIER. -/
def plTier (p : List Word) (e : Nat) : Nat := wf (plW p e) 62 2
/-- MODULE. -/
def plModule (p : List Word) (e : Nat) : Nat := wf (plW p e) 59 3
/-- REPL(e). -/
def plRepl (p : List Word) (e : Nat) : Nat := wf (plW p e) 56 3 % 4 + 1
/-- Die of a replica. -/
def plDie (p : List Word) (e j : Nat) : Nat := wf (plW p e) (32 + 6 * j) 6
/-- WADDR. -/
def plWaddr (p : List Word) (e : Nat) : Nat := wf (wat p (2 * e + 1)) 0 52

/-- What the computation of a route reads besides its descriptor and input. -/
structure RouteEnv where
  /-- Placement entries. -/
  place : List Word
  /-- An expert's tier and module allow it (12, R636). -/
  usable : Nat → Bool
  /-- SLOW_MAX. -/
  slowMax : Nat
  /-- Die of a replica. -/
  die : Nat → Nat → Nat

/-! ## Capacity and drops (12, R635-R638) -/

/-- C (12, R635). -/
def baseCap (w : List Word) : Nat :=
  let d := 256 * dE w
  min 65535 ((dCapQ w * dTmax w * dK w + d - 1) / d)

/-- Capacity of an expert (12, R635). -/
def expCap (w : List Word) (env : RouteEnv) (e : Nat) : Nat := min 65535 (baseCap w * plRepl env.place e)

/-- A choice once served: token, rank, expert, weight, cause (0 kept, else Table 12.4) and row number within its expert. -/
structure Choice where
  /-- Token. -/
  tok : Nat
  /-- Rank. -/
  rank : Nat
  /-- Expert. -/
  e : Nat
  /-- Weight. -/
  w : Nat
  /-- Cause. -/
  cause : Nat
  /-- Row number. -/
  i : Nat
  deriving DecidableEq, Repr

/-- Serving one choice: loads by expert and slow-tier experts with rows (12, R636, R637). -/
def serveOne (w : List Word) (env : RouteEnv) (st : Tbl Nat × Nat) (t r : Nat) : Option Cand → Choice × (Tbl Nat × Nat)
  | none => (⟨t, r, 0, 0, 3, 0⟩, st)
  | some (e, x) =>
    let load := tget st.1 0 e
    let slow := plTier env.place e == 1
    if !env.usable e || (slow && load == 0 && decide (env.slowMax ≤ st.2)) then (⟨t, r, e, x, 2, 0⟩, st)
    else if expCap w env e ≤ load then (⟨t, r, e, x, 1, 0⟩, st)
    else (⟨t, r, e, x, 0, load⟩, (tset st.1 0 e (load + 1), if slow && load == 0 then st.2 + 1 else st.2))

/-- Choices of a batch served in rank order (12, R637). -/
def serveAll (w : List Word) (env : RouteEnv) : List (Nat × Nat × Option Cand) → Tbl Nat × Nat → List Choice × Tbl Nat
  | [], st => ([], st.1)
  | (t, r, x) :: l, st =>
    let a := serveOne w env st t r x
    let b := serveAll w env l a.2
    (a.1 :: b.1, b.2)

/-- Every choice of a batch in the order of service (12, R637). -/
def serviceOrder (w : List Word) (n : Nat) (inp : List Word) : List (Nat × Nat × Option Cand) :=
  let l := (List.range n).map (fun t => (t, choicesOf w inp t))
  (List.range (dK w)).flatMap (fun r => l.map (fun p => (p.1, r, p.2.getD r none)))

/-! ## Sorting (12, R639-R641) -/

/-- Buckets in order: expert and replica. -/
def bucketsOf (w : List Word) (env : RouteEnv) : List (Nat × Nat) :=
  (List.range (dE w)).flatMap (fun e => (List.range (plRepl env.place e)).map (fun j => (e, j)))

/-- Rows of a bucket (12, R639). -/
def bucketRows (env : RouteEnv) (rows : Tbl Nat) (b : Nat × Nat) : Nat :=
  let n := plRepl env.place b.1
  (tget rows 0 b.1 + n - 1 - b.2) / n

/-- Kept choices of a bucket in ascending token index, then rank (12, R639, R641). -/
def bucketChoices (env : RouteEnv) (l : List Choice) (b : Nat × Nat) : List Choice :=
  sortBy (fun x => 2 * x.tok + x.rank)
    (l.filter (fun x => x.cause == 0 && x.e == b.1 && x.i % plRepl env.place b.1 == b.2))

/-- Removal of the n-th element. -/
def takeNth {α : Type} : List α → Nat → Option (α × List α)
  | [], _ => none
  | x :: t, 0 => some (x, t)
  | x :: t, n + 1 => (takeNth t n).map (fun p => (p.1, x :: p.2))

/-- A permutation that the hardware chooses (12, R641): each next element is picked by a free value. -/
def permute {α : Type} : Nat → List α → Core → List α × Core
  | 0, _, c => ([], c)
  | n + 1, l, c =>
    let f := freeNat c
    match takeNth l (f.1 % l.length) with
    | none => ([], f.2)
    | some (x, t) =>
      let r := permute n t f.2
      (x :: r.1, r.2)

/-- The rows of each bucket in the order of R641. -/
def orderBuckets (stable : Bool) (env : RouteEnv) (l : List Choice) : List (Nat × Nat) → Core → List (List Choice) × Core
  | [], c => ([], c)
  | b :: t, c =>
    let ch := bucketChoices env l b
    let p := if stable then (ch, c) else permute ch.length ch c
    let r := orderBuckets stable env l t p.2
    (p.1 :: r.1, r.2)

/-- Exclusive prefix sums. -/
def prefixSums : Nat → List Nat → List Nat
  | _, [] => []
  | a, x :: t => a :: prefixSums (a + x) t

/-! ## Result tables (12, Tables 12.3 to 12.8) -/

/-- What a route's computation gives. -/
structure RouteOut where
  /-- Every choice, in the order of service. -/
  choices : List Choice
  /-- Rows by expert. -/
  rows : Tbl Nat
  /-- Buckets in order. -/
  buckets : List (Nat × Nat)
  /-- First row of each bucket. -/
  offs : List Nat
  /-- Kept choices in row order. -/
  order : List Choice
  deriving DecidableEq, Repr

/-- The computation (12, R631-R641). -/
def routeOut (c : Core) (w : List Word) (n : Nat) (inp : List Word) (env : RouteEnv) (stable : Bool) : RouteOut × Core :=
  let s := serveAll w env (serviceOrder w n inp) ([], 0)
  let b := bucketsOf w env
  let o := orderBuckets stable env s.1 b c
  ({ choices := s.1, rows := s.2, buckets := b, offs := prefixSums 0 (b.map (bucketRows env s.2)), order := o.1.flatten }, o.2)

/-- Dispatch index table (12, Table 12.3). -/
def ditWords (env : RouteEnv) (o : RouteOut) : List Word :=
  o.order.map (fun x =>
    let j := x.i % plRepl env.place x.e
    w64 (env.die x.e j * 2 ^ 57 + j * 2 ^ 55 + x.e * 2 ^ 46 + x.rank * 2 ^ 45 + x.tok * 2 ^ 32 + x.w))

/-- ROWn and Wn of a token's choice (12, Table 12.4). -/
def ttEntry (o : RouteOut) (k t r : Nat) : Nat × Nat :=
  if k ≤ r then (0xFFFFFFFF, 0)
  else
    match o.order.findIdx? (fun x => x.tok == t && x.rank == r) with
    | some n => (n, ((o.order[n]?).map (·.w)).getD 0)
    | none => (0xFFFFFFF0 + ((o.choices.find? (fun x => x.tok == t && x.rank == r)).map (·.cause)).getD 3, 0)

/-- Token table (12, Table 12.4). -/
def ttWords (o : RouteOut) (k n : Nat) : List Word :=
  (List.range n).flatMap (fun t =>
    let a := ttEntry o k t 0
    let b := ttEntry o k t 1
    [w64 (a.1 + b.1 * 2 ^ 32), w64 (a.2 + b.2 * 2 ^ 32)])

/-- First row of an expert's first bucket. -/
def firstRow (o : RouteOut) (e : Nat) : Nat :=
  ((o.buckets.zip o.offs).find? (fun p => p.1.1 == e)).elim 0 (·.2)

/-- Slow-tier experts with rows, in expert order. -/
def slowExperts (w : List Word) (env : RouteEnv) (rows : Tbl Nat) : List Nat :=
  below (dE w) (fun e => plTier env.place e == 1 && tget rows 0 e != 0)

/-- Grouped-GEMM table (12, Table 12.5). -/
def ggtWords (w : List Word) (env : RouteEnv) (o : RouteOut) : List Word :=
  let slow := slowExperts w env o.rows
  (List.range (dE w)).flatMap (fun e =>
    let n := tget o.rows 0 e
    let m := plRepl env.place e
    let isSlow := slow.contains e
    let flags := b2n (n != 0) + 2 * b2n isSlow + 4 * b2n (!env.usable e)
    let rowsJ := ((List.range m).map (fun j => bucketRows env o.rows (e, j) % 2 ^ 16 * 2 ^ (16 * j))).sum
    let dies := ((List.range m).map (fun j => env.die e j * 2 ^ (6 * j))).sum
    let fetch := if isSlow then ((slow.findIdx? (· == e)).getD 0) % 256 else 0xFF
    [ w64 (e + m * 2 ^ 16 + flags * 2 ^ 24 + n * 2 ^ 32),
      w64 ((if n = 0 then 0 else firstRow o e) + rowsJ % 2 ^ 32 * 2 ^ 32),
      w64 (rowsJ / 2 ^ 32 + (dies + fetch * 2 ^ 24) * 2 ^ 32),
      w64 (plWaddr env.place e) ])

/-- Choices of a cause. -/
def causeCount (o : RouteOut) (k : Nat) : Nat := (o.choices.filter (fun x => x.cause == k)).length

/-- Tokens without a kept choice, ascending (12, R638). -/
def residual (o : RouteOut) (n : Nat) : List Nat := below n (fun t => !o.order.any (fun x => x.tok == t))

/-- MASK, eight words (12, Table 12.6, R644). -/
def maskWords (e : Nat) (rows : Nat → Nat) : List Word :=
  (List.range 8).map (fun k => ofBits (below 64 (fun b => decide (64 * k + b < e) && rows (64 * k + b) != 0)))

/-- Route summary (12, Table 12.6). -/
def sumWords (r : Route) (env : RouteEnv) (o : RouteOut) (n : Nat) : List Word :=
  let w := r.descW
  let e := dE w
  let nonEmpty := (below e (fun k => tget o.rows 0 k != 0)).length
  [ w64 (0x4D4D5553 + r.seq * 2 ^ 32 + r.gen * 2 ^ 48),
    w64 (n + o.order.length * 2 ^ 32),
    w64 (causeCount o 1 + causeCount o 2 * 2 ^ 32),
    w64 (causeCount o 3 + (residual o n).length * 2 ^ 32),
    w64 (nonEmpty + (slowExperts w env o.rows).length * 2 ^ 16 + e * 2 ^ 32 + dK w * 2 ^ 48 + r.group * 2 ^ 56),
    w64 (baseCap w), 0, 0 ]
    ++ maskWords e (fun k => tget o.rows 0 k) ++ List.replicate 16 0

/-- Residual list, two entries a word (12, Table 12.7). -/
def residWords : List Nat → List Word
  | a :: b :: t => w64 (a + b * 2 ^ 32) :: residWords t
  | [a] => [w64 a]
  | [] => []

/-- Headers of a destination die, in bucket order (12, Table 12.8). -/
def headersOf (env : RouteEnv) (o : RouteOut) (die : Nat) : List Word :=
  ((o.buckets.zip o.offs).filter (fun p => env.die p.1.1 p.1.2 == die)).map (fun p =>
    w64 (p.1.1 + p.1.2 * 2 ^ 9 + bucketRows env o.rows p.1 % 2 ^ 16 * 2 ^ 16 + p.2 * 2 ^ 32))

/-- Rows of a destination's headers. -/
def headerRows (h : List Word) : Nat := (h.map (fun x => wf x 16 16)).sum

/-- DIGEST of a destination's headers (12, R652). -/
def headerDigest (h : List Word) : Word := crc64 (wordsBytes h)

/-- Receive entry (12, Table 12.8). -/
def recvEntry (die rows : Nat) (digest : Word) : List Word := [w64 (die + rows * 2 ^ 32), digest]

/-- Send entries from a header index on (12, Table 12.8). -/
def sendEntries (env : RouteEnv) (o : RouteOut) : Nat → List Nat → List Word
  | _, [] => []
  | k, d :: t =>
    let h := headersOf env o d
    [w64 (d + h.length * 2 ^ 16 + headerRows h * 2 ^ 32), w64 k, headerDigest h, 0] ++ sendEntries env o (k + h.length) t

/-- Plan header (12, Table 12.8, R653). -/
def planHeader (r : Route) (env : RouteEnv) (o : RouteOut) (dies : List Nat) (self : Nat) : List Word :=
  let w := r.descW
  let pos := (dies.findIdx? (· == self)).getD 0
  let state := if dies.length ≤ 1 then 2 else 1
  [ w64 (0x4E414C50 + r.seq * 2 ^ 32 + r.gen * 2 ^ 48),
    w64 (state + dies.length * 2 ^ 8 + pos * 2 ^ 16 + r.group * 2 ^ 24 + baseCap w * 2 ^ 32),
    w64 (dE w + (headersOf env o self).length * 2 ^ 16 + dRowBytes w * 2 ^ 32),
    w64 (dAddr w 7), 0, 0, 0, 0 ]

/-- Receive entries at landing: the own one is known, what a peer's holds before its message comes is open (12, R653). -/
def recvEntries (env : RouteEnv) (o : RouteOut) (self : Nat) : List Nat → Core → List Word × Core
  | [], c => ([], c)
  | d :: t, c =>
    if d = self then
      let h := headersOf env o d
      let r := recvEntries env o self t c
      (recvEntry d (headerRows h) (headerDigest h) ++ r.1, r.2)
    else
      let f := freeNat c
      let g := freeWord f.2
      let r := recvEntries env o self t g.2
      (recvEntry d (f.1 % 2 ^ 32) g.1 ++ r.1, r.2)

end Sys2Proof.Machine
end

