-- ==== Sys2Proof/Machine/Routes.lean ====
section
/-! DEFINITION. Routes: acceptance, the steps of their computation, landing, agreement, faults, count messages, and the placement
epochs of the Shears (12, R629-R677; 07, R370-R373). -/

namespace Sys2Proof.Machine

/-! ## Faults (12, R664, Table 12.12) -/

/-- A route faults (12, R661, R664). -/
def routeFault (c : Core) (id code reason : Nat) : Core :=
  match findRoute c id with
  | none => c
  | some r =>
    let c := endRoute c r
    let c := { c with shr := { c.shr with lastFault := r32 (code * 2 ^ 24 + reason * 2 ^ 16 + r.seq) } }
    let c := irqSet c pgShr 2
    let c := if (getInst c r.inst).serial = r.serial then instFault c r.inst 7 code r.pc else c
    routeKick c

/-! ## ROUTE (07, R370-R372, R376) -/

/-- Requests that the Shears holds, queued or COMPUTING (12, R665). -/
def routesOpen (c : Core) : Nat := (c.shr.routes.filter (fun (r : Route) => r.st != .waiting)).length

/-- The current instance of a program, unless it has retired (07, R370). -/
def curInst (c : Core) (sq : Nat) : Option Nat :=
  match (getSq c sq).inst with
  | some r => if instLive c r then some r.1 else none
  | none => none

/-- The Shears accepts a request (12, Table 12.11, R641). -/
def routeAccept (c : Core) (sq q i slot desc : Nat) (tokens : Option Nat) : Core :=
  let x := getInst c i
  let r : Route :=
    { id := c.shr.next, inst := i, serial := x.serial, slot := slot, pc := (getSq c sq).pc, ctx := x.ctx, q := q, desc := desc
      tokens := tokens, stable := regShrCtrlStable c || regDetCtrlRepro c }
  let c := { c with shr := { c.shr with next := c.shr.next + 1, routes := c.shr.routes ++ [r] } }
  let c := modInst c i (fun x => { x with rslots := tset x.rslots .empty slot .requested })
  routeKick c

/-- ROUTE (07, Table 7.9, R370-R372, R376, Table 7.2). -/
def opRoute (sq : Nat) (c : Core) (q : Nat) (w _w1 : Word) : Core :=
  let slot := wf w 53 2
  let desc := wf w 0 44 * 256
  let n := (sreg c sq (wf w 48 4)).toNat * 2 ^ wf w 44 4
  match curInst c sq with
  | none => cmdFault c sq 8
  | some i =>
    if wbit w 52 && decide (8192 < n) then cmdFault c sq 3
    else if tget (getInst c i).rslots .empty slot ≠ .empty then cmdFault c sq 0x10
    else if !inCarve c (getQ c q).ctx desc 256 then cmdFault c sq 0x0D
    else if 4 ≤ routesOpen c then stallAt c sq .enter
    else moveOn (routeAccept c sq q i slot desc (if wbit w 52 then some n else none)) sq

/-- The opcode of the command at the head. -/
def headOp (c : Core) (sq : Nat) : Nat := opOf (wat (getSq c sq).words (getSq c sq).pc)

/-- A ROUTE or MIX that the full unit did not take tries again. -/
def admitAgain (c : Core) (sq op : Nat) (f : Core → Nat → Word → Word → Core) : Core :=
  let s := getSq c sq
  match s.q with
  | some q =>
    if s.stall = .enter ∧ sqRuns c sq = true ∧ headOp c sq = op then f c q (wat s.words s.pc) (wat s.words (s.pc + 1)) else c
  | none => c

/-- ROUTE: begun at the head, or tried again once the Shears has room (07, R370-R373, Table 7.2). -/
def execRoute (sq : Fin 32) (s : State) : Host.Outcome State Fault Refusal :=
  mission (fun c =>
    if (getSq c sq.val).stall = .enter then admitAgain c sq.val 0x40 (opRoute sq.val)
    else sqBegin sq.val (· == 0x40) (opRoute sq.val) c) s

/-! ## Groups (12, R655, R668) -/

/-- EN of a group. -/
def grpEn (g : Group) : Bool := rbit g.cfg 31

/-- Dies of a group; the die itself where it is local-only. -/
def grpDies (c : Core) (g : Group) : List Nat := if g.mask = 0 then [dieId c] else bitsOf g.mask

/-- A route takes its group's SEQ and placement; an armed flip with this SEQ takes effect first (12, R655, R668). -/
def routeBind (c : Core) (id : Nat) (desc : List Word) : Core :=
  let k := dGroup desc
  if 15 < k then modRoute c id (fun r => { r with descW := desc })
  else
    let g := getGroup c k
    let flip := rbit g.next 1 && g.nextSeq == g.seq
    let g := if flip then { g with sel := rbit g.next 0, gen := rf g.next 16 16, next := g.next &&& ~~~2#32 } else g
    let peers : List Peer := ((bitsOf g.mask).filter (· != dieId c)).map (fun d => { die := d })
    let c := modGroup c k (fun _ => { g with seq := (g.seq + 1) % 2 ^ 16 })
    modRoute c id (fun r => { r with
      descW := desc, bound := true, group := k, seq := g.seq, placeB := g.sel, gen := g.gen, peers := peers
      experts := dE desc, cap := if dE desc = 0 then 0 else baseCap desc })

/-- A message's CAP and E are those of the route (12, Table 12.10). -/
def countAgrees (r : Route) (pay : List Word) : Bool :=
  wf (wat pay 0) 16 16 == r.cap && wf (wat pay 0) 0 10 + 1 == r.experts && wf (wat pay 0) 32 16 == r.gen

/-! ## Computation (12, R629-R643) -/

/-- Placement buffer of a route. -/
def routePlace (c : Core) (r : Route) : Nat :=
  let g := getGroup c r.group
  (if r.placeB then g.placeB else g.placeA).toNat

/-- What the computation reads besides the descriptor and the input (12, R636; 03, R156, R159). -/
def routeEnv (c : Core) (r : Route) : RouteEnv :=
  let local_ := decide ((getGroup c r.group).mask = 0)
  { place := r.place
    usable := fun e =>
      let t := plTier r.place e
      t == 0 || (t == 1 && c.sic.modDone && rf c.sic.modStat (2 * plModule r.place e) 2 == 1)
    slowMax := regShrSlowCfgSlowMax c
    die := fun e j => if local_ then dieId c else plDie r.place e j }

/-- One output write (12, R643): exactly so many bytes. -/
def routeWrite (c : Core) (r : Route) (addr len : Nat) (data : List Word) : Core :=
  if len = 0 then c
  else
    let c := modRoute c r.id (fun x => { x with writes := x.writes + 1 })
    sendReq c { op := .write, port := .mp, addr := addr, part := routePart c r, len := len, data := data, tag := .routeOut r.id }

/-- Popularity of a route's choices (12, R669). -/
def popAdd (c : Core) (r : Route) (o : RouteOut) : Core :=
  if regShrCtrlPopEn c && r.group == regShrSlowCfgPopGroup c then
    let bump (t : Tbl Nat) (e : Nat) : Tbl Nat := tmod t 0 e (fun n => sat (n + 1) 0xFFFFFFFF)
    let req := (o.choices.filter (fun x => x.cause != 3)).foldl (fun t x => bump t x.e) c.shr.popReq
    let kept := o.order.foldl (fun t x => bump t x.e) c.shr.popKept
    { c with shr := { c.shr with popReq := req, popKept := kept, popE := r.experts } }
  else c

/-- Counters of a computed route (12, Table 12.16; 17, event 0x081). -/
def routeCounts (c : Core) (r : Route) (o : RouteOut) (n : Nat) : Core :=
  let c := cntAdd c pgShr 0x168 o.order.length
  let c := cntAdd c pgShr 0x170 (causeCount o 1)
  let c := cntAdd c pgShr 0x178 (causeCount o 2)
  let c := cntAdd c pgShr 0x180 (causeCount o 3)
  let c := cntAdd c pgShr 0x188 (residual o n).length
  let c := cntAdd c pgShr 0x190 (below r.experts (fun e => tget o.rows 0 e == 0)).length
  pmuEv c 0x081 (causeCount o 1) (ownQ c r.q)

/-- The spans that a route's tables take (12, R643, Table 12.8). -/
def routeSpans (r : Route) (env : RouteEnv) (o : RouteOut) (n dies : Nat) : List (Nat × Nat) :=
  let w := r.descW
  [(dAddr w 1, 8 * o.order.length), (dAddr w 2, 16 * n), (dAddr w 3, 32 * dE w), (dAddr w 5, 256),
   (dAddr w 6, 4 * (residual o n).length), (dAddr w 4, 0x440 + 32 * dies), (dAddr w 4 + 0x1000, 8 * (bucketsOf w env).length)]

/-- The tables of a computed route are written (12, R642, R643, R648, R653). -/
def routeTables (c : Core) (r : Route) (env : RouteEnv) (o : RouteOut) (n : Nat) : Core :=
  let w := r.descW
  let dies := grpDies c (getGroup c r.group)
  let self := dieId c
  let peers := r.peers.map (fun (p : Peer) =>
    let h := headersOf env o p.die
    { p with rows := headerRows h, headers := h.length, digest := headerDigest h })
  let c := modRoute c r.id (fun x => { x with
    rows := (List.range r.experts).map (fun e => tget o.rows 0 e), peers := peers, plan := some (dAddr w 4)
    kept := o.order.length })
  let heads := dies.flatMap (headersOf env o)
  let rv := recvEntries env o self dies c
  let c := routeWrite rv.2 r (dAddr w 1) (8 * o.order.length) (ditWords env o)
  let c := routeWrite c r (dAddr w 2) (16 * n) (ttWords o (dK w) n)
  let c := routeWrite c r (dAddr w 3) (32 * dE w) (ggtWords w env o)
  let c := routeWrite c r (dAddr w 5) 256 (sumWords r env o n)
  let c := routeWrite c r (dAddr w 6) (4 * (residual o n).length) (residWords (residual o n))
  let c := routeWrite c r (dAddr w 4) 64 (planHeader r env o dies self)
  let c := routeWrite c r (dAddr w 4 + 0x40) (16 * dies.length) rv.1
  let c := routeWrite c r (dAddr w 4 + 0x440) (32 * dies.length) (sendEntries env o 0 dies)
  routeWrite c r (dAddr w 4 + 0x1000) (8 * heads.length) heads

/-- The input of a route is in: it is computed (12, R630-R643). -/
def routeRun (c : Core) (id : Nat) (inp : List Word) : Core :=
  match findRoute c id with
  | none => c
  | some r =>
    let n := tokensOf r
    let env := routeEnv c r
    let p := routeOut c r.descW n inp env r.stable
    let o := p.1
    let dies := (grpDies c (getGroup c r.group)).length
    if (routeSpans r env o n dies).any (fun x => !inCarve c r.ctx x.1 x.2) then routeFault p.2 id 3 0
    else if r.peers.any (fun p => match p.got with | some w => !countAgrees r w | none => false) then routeFault p.2 id 4 0
    else routeTables (routeCounts (popAdd p.2 r o) r o n) r env o n

/-- Bytes of the input that a route reads (12, R630). -/
def inputLen (r : Route) : Nat := if tokensOf r = 0 then 0 else (tokensOf r - 1) * dPitch r.descW + rowSize r.descW

/-- The next read of a COMPUTING route, or its computation: the placement, then the input (12, R629, R630, R667). -/
def routeAdvance (c : Core) (id : Nat) : Core :=
  match findRoute c id with
  | none => c
  | some r =>
    if r.place = [] then mpRead c (routePlace c r) 0 (16 * r.experts) (.routeIn id)
    else if inputLen r = 0 then routeRun c id []
    else mpRead c (dAddr r.descW 0) (routePart c r) (inputLen r) (.routeIn id)

/-- The descriptor of a route is in: it takes its SEQ and placement, and is checked (12, R629, R655, R668; 06, R274). -/
def routeDesc (c : Core) (id : Nat) (data : List Word) : Core :=
  let c := routeBind c id data
  match findRoute c id with
  | none => c
  | some r =>
    if r.dead then routeKick (endRoute c r)
    else
      match descBad r (r.bound && grpEn (getGroup c r.group)) with
      | some k => routeFault c id 1 k
      | none =>
        if (List.range 8).any (fun n => !inCarve c r.ctx (dAddr r.descW n) 256)
            || !inCarve c r.ctx (dAddr r.descW 0) (inputLen r) then routeFault c id 3 0
        else routeAdvance c id

/-- The oldest read of the route that is COMPUTING. -/
def routeInTag (c : Core) : Option Nat :=
  c.io.reqs.findSome? (fun r => match r.tag with | .routeIn n => some n | _ => none)

/-- ROUTE_COMPUTE: a read of the route in computation returns: its descriptor, its placement, then its input, and with the last
one the route is computed and its tables are written (12, R629-R643, R662, Table 12.12). -/
def execRouteCompute (st : QStatus) (data : List Word) (s : State) : Host.Outcome State Fault Refusal :=
  mission (fun c =>
    match routeInTag c with
    | none => routeKick c
    | some id =>
      match takeReq c (.routeIn id) with
      | none => c
      | some (q, c) =>
        let c := notePoison c st (pageTy pgShr) q.addr
        match findRoute c id with
        | none => c
        | some r =>
          if st ≠ .ok then
            (if r.dead then routeKick (endRoute c r) else routeFault c id 2 0)
          else if r.descW = [] then routeDesc c id data
          else if r.place = [] then routeAdvance (modRoute c id (fun r => { r with place := data })) id
          else routeRun c id data) s

/-! ## Landing and agreement (12, R644, R653, R657-R661) -/

/-- A count message goes to a peer whose link is UP (12, R657; 14, R741). -/
def sendCount (c : Core) (r : Route) (p : Peer) : Core :=
  if !linkUpTo c p.die then c
  else
    let words := countPay r false (capE r.cap (r.experts - 1)) p.rows p.headers p.digest (r.landed.getD 0)
    sendRemMsg c (.shears r.id) p.die (countMsg c r words)

/-- Receive entry of a peer written from its message's payload (12, R659). -/
def writeRecv (c : Core) (r : Route) (die : Nat) (pay : List Word) : Core :=
  match r.plan with
  | none => c
  | some a =>
    let dies := grpDies c (getGroup c r.group)
    let pos := (dies.findIdx? (· == die)).getD 0
    let c := modRoute c r.id (fun x => { x with entryWrites := x.entryWrites + 1 })
    mpWrite c (a + 0x40 + 16 * pos) (routePart c r) (recvEntry die (wf (wat pay 1) 32 32) (wat pay 2)) (.routeOut r.id)

/-- Every peer has arrived and every receive entry is written: the plan's STATE becomes 2 (12, R660). -/
def routeAgree (c : Core) (id : Nat) : Core :=
  match findRoute c id with
  | none => c
  | some r =>
    if r.st = .waiting ∧ r.stateOut = false ∧ r.entryWrites = 0 ∧ r.peers.all (fun p => p.got.isSome) = true then
      writePlanState (modRoute c id (fun x => { x with stateOut := true })) r 2
    else c

/-- The route is AGREED: it needs no state any more (12, Table 12.11). -/
def routeDone (c : Core) (id : Nat) : Core :=
  cntAdd { c with shr := { c.shr with routes := c.shr.routes.filter (fun (x : Route) => x.id != id) } } pgShr 0x1A0 1

/-- The route slot, the mask slots of the patch block, counters and trace of a landing (12, R644; 17, Tables 17.1, 17.3). -/
def landSlot (c : Core) (r : Route) : Core :=
  let m := maskWords r.experts (fun e => r.rows.getD e 0)
  let c := ((List.range 8).foldl (fun c k => patchPut c r.inst (24 + 8 * r.slot + k) (wat m k)) (patchUse c r.inst))
  let c := modInst c r.inst (fun x => { x with rslots := tset x.rslots .empty r.slot (.landed r.experts r.rows) })
  let c := pmuEv (cntAdd c pgShr 0x160 1) 0x080 1 (ownQ c r.q)
  trace c 0x0B (ownQ c r.q) r.inst 0 (w64 r.kept) (65536 * r.group + r.seq)

/-- A route with all its tables written lands, unless its patch block or an agreement entry is missing (12, R644, R665,
Table 12.11). -/
def routeLand (c : Core) (id : Nat) : Core :=
  match findRoute c id with
  | none => c
  | some r =>
    if r.st ≠ .computing ∨ r.plan.isNone = true ∨ 0 < r.writes then c
    else if !patchIn c r.inst then patchFetch c r.inst
    else if r.peers = [] then routeKick (routeDone (landSlot c r) id)
    else if 16 ≤ (c.shr.routes.filter (fun (x : Route) => x.st == .waiting)).length then c
    else
      let c := landSlot c r
      let c := modRoute c id (fun x => { x with
        st := .waiting, landed := some (now c), peers := x.peers.map (fun (p : Peer) => { p with sending := some 0 }) })
      let r := { r with landed := some (now c) }
      let c := r.peers.foldl (fun c p => match p.got with | some w => writeRecv c r p.die w | none => c) c
      let c := r.peers.foldl (fun c p => sendCount c r p) c
      routeKick (routeAgree c id)

/-- Routes of an instance land once its patch block is in the cache. -/
def routesResume (c : Core) (i : Nat) : Core :=
  (c.shr.routes.filter (fun (r : Route) => r.inst == i)).foldl (fun c r => routeLand c r.id) c

/-- A write of a route is acknowledged: an output table's, or a receive entry's. -/
def routeWritten (c : Core) (id : Nat) (st : QStatus) : Core :=
  match findRoute c id with
  | none => c
  | some r =>
    if st ≠ .ok then routeFault c id 2 0
    else if r.st = .waiting then
      routeAgree (modRoute c id (fun x => { x with entryWrites := x.entryWrites - 1 })) id
    else routeLand (modRoute c id (fun x => { x with writes := x.writes - 1 })) id

/-- ROUTE_LAND: a table or receive-entry write of a route is acknowledged; after the last table the route lands
(12, R644, R653, R657, R660). -/
def execRouteLand (route : Nat) (st : QStatus) (s : State) : Host.Outcome State Fault Refusal :=
  mission (fun c =>
    match takeReq c (.routeOut route) with
    | none => routeLand c route
    | some (_, c) => routeWritten c route st) s

/-- ROUTE_AGREED: the write of the plan's STATE is acknowledged (12, R660, Table 12.11). -/
def execRouteAgreed (route : Nat) (st : QStatus) (s : State) : Host.Outcome State Fault Refusal :=
  mission (fun c =>
    match takeReq c (.planState route) with
    | none => c
    | some (_, c) =>
      match findRoute c route with
      | none => c
      | some _ => if st ≠ .ok then routeFault c route 2 0 else routeKick (routeDone c route)) s

/-- AGREE_TIMEOUT: AGREE_US of Tally has passed since landing (12, R661, R663, Table 12.11). -/
def execAgreeTimeout (route : Nat) (s : State) : Host.Outcome State Fault Refusal :=
  mission (fun c =>
    match findRoute c route with
    | none => c
    | some r =>
      match r.landed with
      | some t => if r.st = .waiting ∧ r.stateOut = false ∧ c.qsc.req = false ∧ passedUs c t (regShrAgreeUs c) = true then
          routeFault c route 5 0 else c
      | none => c) s

/-- A group peer is lost: the WAITING routes of its groups fault (12, Table 12.11). -/
def routesPeerLost (c : Core) (die : Nat) : Core :=
  (c.shr.routes.filter (fun (r : Route) => r.st == .waiting && r.peers.any (fun p => p.die == die))).foldl
    (fun c r => routeFault c r.id 6 0) c

/-! ## Count messages (12, R657-R659) -/

/-- A NACK cause is retryable (10, Table 10.1). -/
def retryable (code : Nat) : Bool := code == 1 || code == 2 || code == 8

/-- A peer's entry of a route changed. -/
def modRoutePeer (c : Core) (id die : Nat) (f : Peer → Peer) : Core :=
  modRoute c id (fun r => { r with peers := r.peers.map (fun (p : Peer) => if p.die = die then f p else p) })

/-- The answer to a count message (12, R658). -/
def countAnswer (c : Core) (id die code : Nat) : Core :=
  match findRoute c id with
  | none => c
  | some _ =>
    if code = 0 then modRoutePeer c id die (fun p => { p with sending := none, backoff := false })
    else if retryable code then
      modRoutePeer c id die (fun p => { p with sending := some (p.sending.getD 0 + 1), backoff := true })
    else routeFault c id 8 0

/-- COUNT_MESSAGE_RESEND: the backoff after a retryable NACK of a count message ends (12, R658). -/
def execCountMessageResend (route : Nat) (die : Fin 64) (s : State) : Host.Outcome State Fault Refusal :=
  mission (fun c =>
    match findRoute c route with
    | none => c
    | some r =>
      match r.peers.find? (fun p => p.die == die.val && p.backoff) with
      | some p =>
        if mayStart c && linkUpTo c die.val then
          sendCount (modRoutePeer c route die.val (fun p => { p with backoff := false })) r p
        else c
      | none => c) s

/-- What the Shears says of a message (12, Table 12.10). -/
inductive CountVerdict where
  | accept
  | nack (code : Nat)
  deriving DecidableEq, Repr

/-- A stray count message (12, Table 12.10). -/
def countStray (c : Core) : Core := irqSet (cntAdd c pgShr 0x198 1) pgShr 4

/-- The group that a message's receive queue and tag name (12, R659). -/
def countGroup (c : Core) (m : Msg) : Option Nat :=
  if m.srcKind ≠ 1 then none
  else (below 16 (fun k =>
    let g := getGroup c k
    grpEn g && rf g.cfg 0 12 == m.rxq && rf g.cfg 16 8 == m.tag / 256)).head?

/-- A count message that the MF is about to accept (12, R659, Table 12.10). -/
def countTake (c : Core) (m : Msg) : CountVerdict × Core :=
  match countGroup c m with
  | none => (.accept, c)
  | some k =>
    let g := getGroup c k
    let seq := wf (wat m.words 0) 48 16
    if !wbit g.mask m.srcDie || m.tag % 256 != seq % 256 then (.accept, countStray c)
    else if (seq + 2 ^ 16 - g.seq) % 2 ^ 16 < 2 ^ 15 then (.nack 8, c)
    else
      match c.shr.routes.find? (fun (r : Route) => r.bound && r.group == k && r.seq == seq && !r.stateOut) with
      | none => (.accept, cntAdd c pgShr 0x198 1)
      | some r =>
        if wbit (wat m.words 0) 15 then (.accept, routeFault c r.id 7 0)
        else if !countAgrees r m.words then (.accept, routeFault c r.id 4 0)
        else
          match (r.peers.find? (fun p => p.die == m.srcDie)).map (·.got) with
          | some (some old) => if old = m.words then (.accept, c) else (.accept, routeFault c r.id 4 0)
          | _ =>
            let c := modRoutePeer c r.id m.srcDie (fun p => { p with got := some m.words })
            let c := if r.st = .waiting then writeRecv c r m.srcDie m.words else c
            (.accept, routeAgree c r.id)

/-! ## Group registers (12, R676, R677) -/

/-- A route of a group has not ended (12, R676). -/
def groupBusy (c : Core) (k : Nat) : Bool := c.shr.routes.any (fun (r : Route) => r.bound && r.group == k)

/-- The first check of R677 that fails. -/
def grpBad (c : Core) (g : Group) : Option Nat :=
  if g.mask ≠ 0 ∧ role c = 0 then some 1
  else if g.mask ≠ 0 ∧ wbit g.mask (dieId c) = false then some 2
  else if g.placeA.toNat % 4096 ≠ 0 ∨ g.placeB.toNat % 4096 ≠ 0 then some 3
  else none

/-- A write of a group view register: it reaches the group while no route of the group is open (12, R676; 04, R174). -/
def groupWrite (c : Core) (off : Nat) (v : Reg) (f : Group → Group) : Core :=
  let k := regShrGrpSelGroup c
  if groupBusy c k then pageErr c pgShr 0x0A off v.toNat else modGroup c k f

/-- Bits of GRP_CFG that are not reserved. -/
def grpCfgMask : Reg := 0x80FF0FFF

/-- A write of GRP_CFG (12, R676, R677). -/
def writeGrpCfg (c : Core) (v : Reg) : Core :=
  let k := regShrGrpSelGroup c
  let v' := v &&& grpCfgMask
  if groupBusy c k then pageErr c pgShr 0x0A 0x124 v.toNat
  else if rbit v 31 then
    match grpBad c (getGroup c k) with
    | some n => modGroup (pageErr c pgShr 0x10 0 n) k (fun g => { g with cfg := v' &&& 0x7FFFFFFF })
    | none => modGroup c k (fun g => { g with cfg := v' })
  else modGroup c k (fun g => { g with cfg := v' })

/-! ## Placement epochs (12, R669-R674) -/

/-- Experts in descending requests, ties to the lower expert (12, R671). -/
def popOrder (req : Nat → Nat) (e : Nat) : List Nat := sortBy (fun k => 2 ^ 32 - req k) (List.range e)

/-- Load of a die: requests by replica over the replicas placed on it (12, R671). -/
def dieLoad (req : Nat → Nat) (pl : List (List Nat)) (d : Nat) : Nat :=
  ((pl.zip (List.range pl.length)).map (fun p => (p.1.filter (· == d)).length * (req p.2 / p.1.length))).sum

/-- Replicas from the second on, each on the least-loaded die that does not yet hold the expert (12, R671). -/
def addReplicas (dies : List Nat) (req : Nat → Nat) (e r : Nat) : Nat → List (List Nat) → Core → List (List Nat) × Core
  | 0, pl, c => (pl, c)
  | n + 1, pl, c =>
    let mine := pl.getD e []
    let free := dies.filter (fun d => !mine.contains d)
    -- the entry counts as split r ways from the first placement on
    let loadOf (d : Nat) : Nat :=
      dieLoad req (lset pl [] e []) d + (mine.filter (· == d)).length * (req e / r)
    match argmin loadOf free with
    | some d => addReplicas dies req e r n (lset pl [] e (mine ++ [d])) c
    | none =>
      if dies.length ≤ 1 then addReplicas dies req e r n (lset pl [] e (mine ++ [dies.headD 0])) c
      else
        let f := freeNat c
        addReplicas dies req e r n (lset pl [] e (mine ++ [f.1 % 64])) f.2

/-- The revision of R671 over the experts in order. -/
def revise (dies : List Nat) (req : Nat → Nat) (e total hotQ replMax : Nat) :
    List Nat → Nat → List (List Nat) → Core → List (List Nat) × Core
  | [], _, pl, c => (pl, c)
  | k :: t, spare, pl, c =>
    let r := min (min (1 + req k * e * 256 / (total * hotQ)) replMax) (1 + spare)
    let a := addReplicas dies req k r (r - 1) (lset pl [] k [(pl.getD k []).headD 0]) c
    revise dies req e total hotQ replMax t (spare - (r - 1)) a.1 a.2

/-- Proposed entries: only REPLM1 and DIES change (12, R671). -/
def proposal (old : List Word) (pl : List (List Nat)) : List Word :=
  (List.range 512).flatMap (fun e =>
    let w := wat old (2 * e)
    let ds := pl.getD e []
    if ds = [] then [w, wat old (2 * e + 1)]
    else
      let n := (List.range 4).map (fun j => ds.getD j (wf w (32 + 6 * j) 6) * 2 ^ (32 + 6 * j))
      [w64 (wf w 0 32 + n.sum + (ds.length - 1) * 2 ^ 56 + wf w 59 5 * 2 ^ 59), wat old (2 * e + 1)])

/-- The snapshot is written (12, Table 12.14). -/
def snapWrite (c : Core) (s : PopSnap) : Core :=
  let base := regShrPropBase c
  let total := (s.req.map (·.2)).sum
  let valid := !s.prop.isEmpty
  let head : List Word := [s.at_, w64 total, w64 (s.group + b2n valid * 2 ^ 8 + s.gen * 2 ^ 16), 0, 0, 0, 0, 0]
  let cnts := (List.range 512).flatMap (fun e => [w64 (tget s.req 0 e), w64 (tget s.kept 0 e)])
  let c := { c with shr := { c.shr with snap := some { s with left := if valid then 3 else 2 } } }
  let c := mpWrite c base 0 head .popSnap
  let c := if valid then mpWrite c (base + 0x100) 0 s.prop .popSnap else c
  mpWrite c (base + 0x2100) 0 cnts .popSnap

/-- Active placement buffer of a group. -/
def grpBuffer (g : Group) (b : Bool) : Nat := (if b then g.placeB else g.placeA).toNat

/-- A placement epoch ends: the counters are taken and cleared; a proposal needs the current placement (12, R670, R671). -/
def epochEnd (c : Core) : Core :=
  let k := regShrSlowCfgPopGroup c
  let g := getGroup c k
  let s : PopSnap :=
    { at_ := now c, group := k, gen := g.gen, req := c.shr.popReq, kept := c.shr.popKept, experts := c.shr.popE }
  let c := { c with shr := { c.shr with popReq := [], popKept := [] } }
  if regShrCtrlReviseEn c && !s.req.isEmpty then
    mpRead { c with shr := { c.shr with snap := some s } } (grpBuffer g g.sel) 0 8192 .popSnap
  else snapWrite c s

/-- The placement read of an epoch's end returns: the proposal is computed (12, R671). -/
def epochPlace (c : Core) (s : PopSnap) (st : QStatus) (data : List Word) : Core :=
  if st ≠ .ok then snapWrite c s
  else
    let dies := grpDies c (getGroup c s.group)
    let req (e : Nat) : Nat := tget s.req 0 e
    let total := (s.req.map (·.2)).sum
    let pl := (List.range s.experts).map (fun e => (List.range (plRepl data e)).map (fun j => plDie data e j))
    let r := revise dies req s.experts total (regShrRevCfgHotQ c) (regShrRevCfgReplMax c) (popOrder req s.experts)
      (regShrRevCfgBudget c) pl c
    snapWrite r.2 { s with prop := proposal data r.1 }

/-- The snapshot is in memory: a local-only group's proposal goes to the inactive buffer (12, R672, R675). -/
def snapDone (c : Core) (s : PopSnap) : Core :=
  let c := { c with shr := { c.shr with snap := none } }
  if s.failed then c
  else
    let c := irqSet c pgShr 3
    let g := getGroup c s.group
    if regShrCtrlPlaceAuto c && !s.prop.isEmpty && g.mask == 0 then
      let c := { c with shr := { c.shr with applying := some (s.group, !g.sel, (g.gen + 1) % 2 ^ 16) } }
      mpWrite c (grpBuffer g (!g.sel)) 0 s.prop (.proposal s.group)
    else c

/-- An access of an epoch's end is answered. -/
def snapAnswer (c : Core) (q : Req) (st : QStatus) (data : List Word) : Core :=
  match c.shr.snap with
  | none => c
  | some s =>
    if q.op = .read then epochPlace (notePoison c st (pageTy pgShr) q.addr) s st data
    else
      let c := if st = .ok then c else pageErr c pgShr 0x11 0 0
      let s := { s with left := s.left - 1, failed := s.failed || st != .ok }
      if s.left = 0 then snapDone c s else { c with shr := { c.shr with snap := some s } }

/-- PLACEMENT_EPOCH: the alarm of an epoch's end fires, or a read or write of its snapshot is answered (12, R670-R674). -/
def execPlacementEpoch (st : QStatus) (data : List Word) (s : State) : Host.Outcome State Fault Refusal :=
  mission (fun c =>
    match takeReq c .popSnap with
    | some (q, c) => snapAnswer c q st data
    | none =>
      if c.shr.snap.isSome then c
      else
        match alarmFire c 7 0 with
        | none => c
        | some (a, c) => epochEnd (armPeriod c 7 (regShrPlaceEpochUs c) a.at_)) s

/-- PROPOSAL_APPLY: the write of the auto-applied placement is acknowledged (12, R672, R674). -/
def execProposalApply (st : QStatus) (s : State) : Host.Outcome State Fault Refusal :=
  mission (fun c =>
    match c.shr.applying with
    | none => c
    | some (k, sel, gen) =>
      match takeReq c (.proposal k) with
      | none => c
      | some (_, c) =>
        let c := { c with shr := { c.shr with applying := none } }
        if st ≠ .ok then pageErr c pgShr 0x11 0 0
        else modGroup c k (fun g => { g with next := r32 (gen * 2 ^ 16 + 2 + b2n sel), nextSeq := g.seq })) s

end Sys2Proof.Machine
end

