-- ==== Sys2Proof/Machine/Messages.lean ====
section
/-! DEFINITION. Messages: SEND, the acceptance checks and the placement of the MF, ring records, SELECT, and the windows of the MF
page (10, R509-R528, R567; 07, R362-R369). -/

namespace Sys2Proof.Machine

/-! ## SEND (07, R362-R364, Table 7.8) -/

/-- A SEND's message goes to the MF of this die or to the Punty Port (07, R358; 10, R509; 14, R741). -/
def sendOut (c : Core) (sq : Nat) (m : Msg) : Option Nat → Core
  | none => { c with mf := { c.mf with inbox := c.mf.inbox ++ [(.sq sq, m)] } }
  | some die => sendRemMsg c (.sq sq) die m

/-- SEND (07, R362). -/
def opSend (sq : Nat) (c : Core) (q : Nat) (w _w1 : Word) : Core :=
  let first := wf w 31 4
  let n := wf w 53 2 + 1
  let m : Msg :=
    { rxq := wf w 35 12, tag := wf w 11 16, land := sreg c sq (wf w 27 4)
      words := (List.range n).map (fun i => sreg c sq (first + i))
      srcDie := dieId c, srcKind := 0, srcId := q, ctx := (getQ c q).ctx }
  match remoteDie c (wbit w 5) (wf w 47 6) with
  | .error code => cmdFault c sq code
  | .ok die => sendOut (stallAt c sq (.send m die (wf w 6 4) (wbit w 10) 0)) sq m die

/-- SEND. -/
def execSend (sq : Fin 32) (s : State) : Host.Outcome State Fault Refusal :=
  mission (sqBegin sq.val (· == 0x49) (opSend sq.val)) s

/-- SEND_ANSWER: the answer to a sequencer's SEND, from this die's MF or by MSG_ANS, ends the SEND or starts a backoff
(07, R363, R364, R383). -/
def execSendAnswer (sq : Fin 32) (s : State) : Host.Outcome State Fault Refusal :=
  mission (fun c =>
    match (getSq c sq.val).stall with
    | .send m die stat auto tries =>
      if !sqRuns c sq.val then c
      else
        match ltake (fun e => e.1 == sq.val) c.mf.answers with
        | none => c
        | some (e, l) =>
          let c := { c with mf := { c.mf with answers := l } }
          if e.2 = 0 then moveOn (setSreg c sq.val stat 0) sq.val
          else if auto && retryable e.2 then stallAt c sq.val (.sendBackoff m die stat auto (tries + 1))
          else moveOn (setSreg c sq.val stat (w64 (2 ^ 63 + e.2))) sq.val
    | _ => c) s

/-- SEND_RETRY: the backoff of a SEND ends, and its message is sent again (07, R358, R364, Table 7.13 RETRY_CNT). -/
def execSendRetry (sq : Fin 32) (s : State) : Host.Outcome State Fault Refusal :=
  mission (fun c =>
    match (getSq c sq.val).stall with
    | .sendBackoff m die stat auto tries =>
      if !sqRuns c sq.val then c
      else
        let lost := match die with | some d => !linkUpTo c d | none => false
        if lost then cmdFault c sq.val 0x0F
        else
          let c := cntAdd c (pgSq sq.val) 0x148 1
          sendOut (stallAt c sq.val (.send m die stat auto tries)) sq.val m die
    | _ => c) s

/-! ## Acceptance (10, R509-R515, Tables 10.1, 10.2) -/

/-- LEN of a message's record. -/
def msgLen (m : Msg) : Nat := 24 + 8 * m.words.length

/-- The ring has room for a message (10, R515). -/
def ringRoom (x : Rxq) (l : Nat) : Bool :=
  let r := x.bytes - x.p
  let free := x.bytes - x.used
  if l ≤ r then decide (l ≤ free) else decide (r + l ≤ free)

/-- LAND is zero, or is aligned and lies in the landing window (10, R513). -/
def landOk (x : Rxq) (land : Word) : Bool :=
  land == 0 || decide (land.toNat % 8 = 0 ∧ x.landBase ≤ land.toNat ∧ land.toNat < x.landBase + x.landSize * 4096)

/-- The first check of Table 10.1 that a message fails (10, R510; 06, R297). -/
def msgCheck (c : Core) (remote : Bool) (m : Msg) : Nat :=
  let x := getRxq c m.rxq
  if x.st ≠ .live ∧ x.st ≠ .abandoned then 3
  else if x.st = .abandoned then 4
  else if remote && !regMfCfgRemoteEn c then 7
  else if (if remote then x.access != 2 else !accessOk c x.access x.owner m.ctx) then 5
  else if !landOk x m.land then 6
  else if x.pause then 2
  else if !ringRoom x (msgLen m) then 1
  else if 64 ≤ c.mf.slots then 8
  else 0

/-- Word 0 of a record (10, Table 10.2). -/
def recHead (phase pad : Bool) (len seq : Nat) : Word :=
  w64 (b2n phase * 2 ^ 63 + b2n pad * 2 ^ 62 + len * 2 ^ 32 + seq % 2 ^ 32)

/-- Words of a message record (10, Table 10.2). -/
def msgWords (m : Msg) (phase : Bool) (seq : Nat) : List Word :=
  [ recHead phase false (msgLen m) seq,
    w64 (m.tag * 2 ^ 48 + (m.words.length - 1) * 2 ^ 46 + m.srcDie * 2 ^ 40 + m.srcKind * 2 ^ 38 + m.srcId * 2 ^ 24),
    m.land ] ++ m.words

/-- Partition of a receive queue's accesses (06, R274). -/
def rxPart (c : Core) (q : Nat) : Nat := (getCtx c (getRxq c q).owner).part

/-- A place in a ring taken (10, R515): the offset, the phase, and the queue with P, USED and the lap moved. -/
def ringPlace (x : Rxq) (len : Nat) : Rxq :=
  let e := x.p + len
  { x with used := x.used + len, p := if e = x.bytes then 0 else e, phase := if e = x.bytes then !x.phase else x.phase }

/-- A pad to the end of the ring (10, R515, R516). -/
def placePad (c : Core) (q : Nat) : Core :=
  let x := getRxq c q
  let len := x.bytes - x.p
  let w := recHead x.phase true len 0
  let r : RingRec := { n := x.next, off := x.p, len := len, phase := x.phase, pad := true, words := [w], st := .head }
  let part := rxPart c q
  let c := modRxq c q (fun y => { ringPlace y len with recs := y.recs ++ [r], next := y.next + 1 })
  mpWrite c (x.base + x.p) part [w] (.rxRec q r.n)

/-- A message placed at P: its words from word 1 on are written, by one or two writes (10, R515, R516). -/
def placeMsg (c : Core) (q : Nat) (m : Msg) : Core :=
  let x := getRxq c q
  let len := msgLen m
  let ws := msgWords m x.phase (x.msgs.toNat + 1)
  let addr := x.base + x.p + 8
  let first := min (len / 8 - 1) ((256 - addr % 256) / 8)
  let k := if first = len / 8 - 1 then 1 else 2
  let r : RingRec :=
    { n := x.next, off := x.p, len := len, phase := x.phase, slot := true, words := ws, st := .body k }
  let part := rxPart c q
  let c := modRxq c q (fun y =>
    { ringPlace y len with recs := y.recs ++ [r], next := y.next + 1, msgs := y.msgs + 1 })
  let c := { c with mf := { c.mf with slots := c.mf.slots + 1 } }
  let c := mpWrite c addr part ((ws.drop 1).take first) (.rxRec q r.n)
  if k = 1 then c else mpWrite c (addr + 8 * first) part (ws.drop (1 + first)) (.rxRec q r.n)

/-- The answer to a message (10, R510; 14, R741).  A message of a session that has ended has a token past the 16 bits of an
ANS_ID, and its answer is discarded (14, Table 14.7). -/
def answerMsg (c : Core) (src : MsgFrom) (code : Nat) : Core :=
  match src with
  | .sq s => { c with mf := { c.mf with answers := c.mf.answers ++ [(s, code)] } }
  | .die d mid => if mid < 2 ^ 16 && linkUpTo c d then linkOffer c d .unit_ [frMsgAns mid code] else c
  | .shears _ | .nobody => c

/-- Owner of a receive queue's events (17, Table 17.1). -/
def rxOwner (c : Core) (q : Nat) : Owner := ownCtx c (getRxq c q).owner

/-- A message refused: counters, NACK_LAST, the Lehr's record and the answer (10, R510, Table 10.8; 09, R494). -/
def nackMsg (c : Core) (src : MsgFrom) (m : Msg) (code : Nat) : Core :=
  let c := pmuEv (cntAdd c pgMf 0x130 1) 0x061 1 (rxOwner c m.rxq)
  let c := if (getRxq c m.rxq).st = .free then c else modRxq c m.rxq (fun x => { x with nacks := x.nacks + 1 })
  let times :=
    if (getRxq c m.rxq).st = .free then c.lehr.nacks
    else tmod c.lehr.nacks [] m.rxq (fun l => (now c :: l).take (max 1 (regLehrLimNackLimit c)))
  let last := r32 (code * 2 ^ 28 + m.srcDie * 2 ^ 22 + m.rxq)
  let c := { c with mf := { c.mf with nackLast := last }, lehr := { c.lehr with nacks := times } }
  answerMsg c src code

/-- A message accepted (10, R510, R515). -/
def acceptMsg (c : Core) (src : MsgFrom) (m : Msg) : Core :=
  let x := getRxq c m.rxq
  let c := if x.bytes - x.p < msgLen m then placePad c m.rxq else c
  let c := placeMsg c m.rxq m
  let c := pmuEv (cntAdd c pgMf 0x128 1) 0x060 1 (rxOwner c m.rxq)
  answerMsg c src 0

/-- One message taken: checked, then judged by the Shears where it is a count message (10, R510; 12, R659). -/
def takeMsg (c : Core) (src : MsgFrom) (m : Msg) : Core :=
  let remote := match src with | .die _ _ => true | _ => false
  let code := msgCheck c remote m
  if code ≠ 0 then nackMsg c src m code
  else
    let v := countTake c m
    match v.1 with
    | .nack k => nackMsg v.2 src m k
    | .accept => acceptMsg v.2 src m

/-- Place of a sender in the order of one tclk (10, R509). -/
def senderKey : MsgFrom → Nat
  | .die _ _ => 0
  | .shears _ => 1
  | .sq s => 2 + s
  | .nobody => 64

/-- The next message to take: the first of the senders in order (10, R509, R524). -/
def nextMsg (l : List (MsgFrom × Msg)) : Option ((MsgFrom × Msg) × List (MsgFrom × Msg)) :=
  match argmin (fun e => senderKey e.1) l with
  | none => none
  | some x => ltake (fun e => senderKey e.1 == senderKey x.1) l

/-- MESSAGE_TAKE: the MF takes a message; a hold or quiescing stops it (10, R509, R510, R528; 03, Table 3.3; 16, R801). -/
def execMessageTake (s : State) : Host.Outcome State Fault Refusal :=
  mission (fun c =>
    if !mayStart c then c
    else
      match nextMsg c.mf.inbox with
      | none => c
      | some (e, l) => takeMsg { c with mf := { c.mf with inbox := l } } e.1 e.2) s

/-! ## Record writes (10, R516-R518) -/

/-- A change of a record of a ring. -/
def modRec (c : Core) (q n : Nat) (f : RingRec → RingRec) : Core :=
  modRxq c q (fun x => { x with recs := x.recs.map (fun (r : RingRec) => if r.n = n then f r else r) })

/-- The write of word 0 of a record; for one turned into a pad, as a pad (10, R516, R518). -/
def writeHead (c : Core) (q : Nat) (r : RingRec) : Core :=
  let w := if r.pad then recHead r.phase true r.len 0 else wat r.words 0
  let c := modRec c q r.n (fun r => { r with st := .head, words := w :: r.words.drop 1 })
  mpWrite c ((getRxq c q).base + r.off) (rxPart c q) [w] (.rxRec q r.n)

/-- The landing-write slot of a record is free again (10, Table 10.1). -/
def slotBack (c : Core) (r : RingRec) : Core :=
  if r.slot then { c with mf := { c.mf with slots := c.mf.slots - 1 } } else c

/-- A failed record write: the record becomes a pad of the same LEN (10, R518). -/
def recFail (c : Core) (q n : Nat) : Core :=
  modRec (pageErr c pgMf 0x11 q 0) q n (fun r => { r with pad := true })

/-- RECORD_WRITE_ACK: a body write, or the write of word 0, is acknowledged (10, R516-R518). -/
def execRecordWriteAck (rxq : Fin 4096) (rec : Nat) (st : QStatus) (s : State) : Host.Outcome State Fault Refusal :=
  mission (fun c =>
    match takeReq c (.rxRec rxq.val rec) with
    | none => c
    | some (_, c) =>
      let c := if st = .ok then c else recFail c rxq.val rec
      match (getRxq c rxq.val).recs.find? (fun (r : RingRec) => r.n == rec) with
      | none => c
      | some r =>
        match r.st with
        | .body k =>
          if 1 < k then modRec c rxq.val rec (fun r => { r with st := .body (k - 1) }) else writeHead c rxq.val r
        | .head =>
          -- a message whose word 0 failed is tried once more, as a pad; a pad stands on block whatever its write gave
          if st ≠ .ok ∧ wbit (wat r.words 0) 62 = false then
            writeHead c rxq.val r
          else slotBack (modRec c rxq.val rec (fun r => { r with st := .ready })) r
        | _ => c) s

/-! ## SELECT (07, R365-R369; 10, R517-R521) -/

/-- The takeable message at the head of a ring: pads before it are passed over (10, R517, R519). -/
def headRec : List RingRec → Option RingRec
  | [] => none
  | r :: t =>
    match r.st with
    | .taken => headRec t
    | .released => headRec t
    | .ready => if r.pad then headRec t else some r
    | _ => none

/-- The head record taken; pads passed over are released (10, R519, R521). -/
def takeRec (x : Rxq) (n : Nat) : Rxq :=
  let mark (r : RingRec) : RingRec :=
    if r.n = n then { r with st := .taken }
    else if r.n < n ∧ r.st = .ready ∧ r.pad = true then { r with st := .released }
    else r
  let p := popReleased (x.recs.map mark)
  { x with recs := p.1, used := x.used - p.2 }

/-- Queues that a SELECT names. -/
def selQueues (base mask : Nat) : List Nat := (below 8 (fun i => (BitVec.ofNat 8 mask).getLsbD i)).map (base + ·)

/-- The fault of a SELECT on the queues that it names (07, R365, R369). -/
def selFault (c : Core) (x : Nat) : List Nat → Option Nat
  | [] => none
  | q :: t =>
    let r := getRxq c q
    if r.st = .free then some 0x0B
    else if r.owner ≠ x then some 0x0A
    else if r.st = .abandoned then some 0x0C
    else selFault c x t

/-- The queue that a SELECT takes from, as its place i (07, R366). -/
def selPick (c : Core) (base mask : Nat) (rot : Bool) (ptr : Nat) : Option Nat :=
  let has (i : Nat) : Bool := (BitVec.ofNat 8 mask).getLsbD i && (headRec (getRxq c (base + i)).recs).isSome
  if rot then (((List.range 8).map (fun k => (ptr + k) % 8)).filter has).head? else (below 8 has).head?

/-- The record taken is shown in the destination register (07, R367). -/
def selTake (c : Core) (sq base i dst : Nat) (rot : Bool) : Core :=
  let q := base + i
  match headRec (getRxq c q).recs with
  | none => c
  | some r =>
    let c := modRxq c q (fun x => takeRec x r.n)
    let w1 := wat r.words 1
    let v := w64 (q + wf w1 46 2 * 2 ^ 12 + wf w1 48 16 * 2 ^ 16 + r.off * 2 ^ 32)
    let c := modSq c sq (fun s => { s with taken := some (q, r.n), rot := if rot then (i + 1) % 8 else s.rot })
    let c := { c with
      lehr := { c.lehr with nacks := tdel c.lehr.nacks q, rxqTold := c.lehr.rxqTold.filter (· != q) } }
    moveOn (setSreg c sq dst v) sq

/-- SELECT (07, R365-R369; 10, R520). -/
def opSelect (sq : Nat) (c : Core) (q : Nat) (w _w1 : Word) : Core :=
  let rot := wbit w 54
  let base := wf w 29 12
  let mask := wf w 41 8
  let dst := wf w 49 4
  match selFault c (getQ c q).ctx (selQueues base mask) with
  | some code => cmdFault c sq code
  | none =>
    let c := rxGiveBack c sq
    match selPick c base mask rot (getSq c sq).rot with
    | some i => selTake c sq base i dst rot
    | none =>
      if wbit w 53 then moveOn (setSreg c sq dst (w64 (2 ^ 64 - 1))) sq
      else lateSave (stallAt c sq (.select base mask rot dst)) sq

/-- A waiting SELECT takes a message that has come (07, R366, R368, R383). -/
def pollSelect (c : Core) (sq : Nat) : Core :=
  match (getSq c sq).stall with
  | .select base mask rot dst =>
    if !sqRuns c sq then c
    else
      match selPick c base mask rot (getSq c sq).rot with
      | some i => selTake c sq base i dst rot
      | none => c
  | _ => c

/-- SELECT: begun at the head, or continued once a message has come (07, R365-R369). -/
def execSelect (sq : Fin 32) (s : State) : Host.Outcome State Fault Refusal :=
  mission (fun c =>
    match (getSq c sq.val).stall with
    | .select _ _ _ _ => pollSelect c sq.val
    | _ => sqBegin sq.val (· == 0x48) (opSelect sq.val) c) s

/-- SELECTs that wait on a queue fault once it is ABANDONED or FREE (07, R369; 10, Table 10.3). -/
def selectGone (c : Core) (rxq code : Nat) : Core :=
  (List.range 32).foldl (fun c sq =>
    match (getSq c sq).stall with
    | .select base mask _ _ => if (selQueues base mask).contains rxq then cmdFault c sq code else c
    | _ => c) c

/-! ## Closing (06, R299; 10, R526) -/

/-- No record write of a queue awaits its acknowledgement. -/
def rxQuiet (x : Rxq) : Bool :=
  !(x.recs.any (fun r => match r.st with | .body _ => true | .head => true | _ => false))

/-- RXQ_CLOSED: a closing receive queue is FREE, and its entry is answered (06, R299; 07, R369; 10, R526). -/
def execRxqClosed (rxq : Fin 4096) (s : State) : Host.Outcome State Fault Refusal :=
  mission (fun c =>
    let x := getRxq c rxq.val
    if x.st = .closing ∧ rxQuiet x = true then
      let c := { c with mf := { c.mf with rxqs := tdel c.mf.rxqs rxq.val } }
      let c := match x.freeHdr with | some h => answer c h 0 | none => c
      selectGone c rxq.val 0x0B
    else c) s

/-! ## The RXQ view of the MF page (10, R513, R514, R567) -/

/-- A write of RXQ_CTRL (10, R567). -/
def writeRxqCtrl (c : Core) (v : Reg) : Core :=
  let q := regMfRxqSelRxq c
  if (getRxq c q).st = .live then modRxq c q (fun x => { x with pause := rbit v 0 }) else c

/-- R514: a window that leaves the carve-out of the owner's partition has size zero (10). -/
def landCheck (c : Core) (q : Nat) : Core :=
  let x := getRxq c q
  if x.landSize ≠ 0 ∧ inCarve c x.owner x.landBase (x.landSize * 4096) = false then
    pageErr (modRxq c q (fun x => { x with landSize := 0 })) pgMf 0x10 q 0
  else c

/-- A write of LAND_HI, with the LAND_LO held before it, if any (10, R514, R567; 04, R187). -/
def writeLandHi (c : Core) (lo : Option Reg) (v : Reg) : Core :=
  let q := regMfRxqSelRxq c
  if (getRxq c q).st ≠ .live then c
  else
    let low (x : Rxq) : Nat := match lo with | some r => rf r 12 20 * 4096 | none => x.landBase % 2 ^ 32
    landCheck (modRxq c q (fun x => { x with landBase := rf v 0 20 * 2 ^ 32 + low x })) q

/-- A write of LAND_SIZE (10, R514, R567). -/
def writeLandSize (c : Core) (v : Reg) : Core :=
  let q := regMfRxqSelRxq c
  if (getRxq c q).st ≠ .live then c else landCheck (modRxq c q (fun x => { x with landSize := rf v 0 24 })) q

end Sys2Proof.Machine
end

