-- ==== Sys2Proof/Machine/LaneOps.lean ====
section
/-! DEFINITION. What a lane knows of its engines, the key of a ready entry, the choice of an engine, and an issue beat
(02, R63-R81, R847; 08, R433-R441; 11, R571-R573; 13, R680, R681; 15, R769). -/

namespace Sys2Proof.Machine

/-! ## Engines of a lane (02, Table 2.7) -/

/-- Lane whose bus and issue table carry an engine, and the engine's position on it (02, Table 2.7). -/
def engPlace (e : Nat) : Nat × Nat :=
  if e < 0x1000 then (e / 64, e % 64)
  else if e < 0x1080 then ((e - 0x1000) / 2, 64 + e % 2)
  else if e < 0x10C0 then (e - 0x1080, 66)
  else (2 * (e - 0x10C0), 67)

/-- Lane whose bus carries a class of issues of a lane: a pair of lanes shares the link engine (02, Table 2.7). -/
def busOf (k cls : Nat) : Nat := if cls = 4 then k - k % 2 else k

/-- An issue's span holds an engine (08, R441). -/
def issueOn (e : Nat) (x : Issue) : Bool := decide (x.eng ≤ e ∧ e < x.eng + x.span)

/-- An open issue lies on an engine (02, R77). -/
def engHolds (c : Core) (e : Nat) : Bool := (getLane c (engPlace e).1).issues.any (fun x => issueOn e x.2)

/-- Issues that an engine holds: those that it has not completed (08, R436; 06, R310). -/
def engOpens (c : Core) (e : Nat) : Nat :=
  ((getLane c (engPlace e).1).issues.filter (fun x => issueOn e x.2 && !x.2.got.any (fun g => g.1 == e))).length

/-- A pick waits for an engine to wake (02, R847). -/
def engWaits (c : Core) (e : Nat) : Bool :=
  let p := engPlace e
  (if p.2 = 67 then [p.1, p.1 + 1] else [p.1]).any (fun k => (getLane c k).wakes.any (fun w => w.eng == p.2))

/-- A lane's arrays are reserved by the gang coordinator (08, R440). -/
def laneCoord (c : Core) (k : Nat) : Bool := c.de.coordLanes.contains k || c.de.gangs.any (fun (g : Gang) => g.left.contains k)

/-- An array is reserved for a gang (08, R439, R440). -/
def engReserved (c : Core) (e : Nat) : Bool :=
  decide (e < 0x1000) && (laneCoord c (e / 64) || match (getLane c (e / 64)).resv with
    | some r => decide (r.2.1 ≤ e % 64 ∧ e % 64 < r.2.1 + r.2.2.1)
    | none => false)

/-- DEPTH of a lane (08, Table 8.19). -/
def depthOf (c : Core) (k : Nat) : Nat :=
  match regDlCfgDepth c k with
  | 0 => 1
  | 3 => 2
  | n => n

/-- An engine is able to take an issue of a lane (08, R436, R437, R439; 02, R847). -/
def engRoom (c : Core) (k e : Nat) : Bool :=
  engOk c e && decide (engOpens c e < depthOf c k) && !engWaits c e && !engReserved c e

/-- An engine's clock is gated: its cg_ack bit is high (02, R66). -/
def gated (c : Core) (e : Nat) : Bool := (getEng c e).cgAck

/-- cg_req of an engine falls (02, R847). -/
def wakeEng (c : Core) (e : Nat) : Core := modEng c e (fun x => { x with cgLow := true })

/-- cg_req of the engines of a span falls. -/
def wakeSpan (c : Core) (e n : Nat) : Core := (List.range n).foldl (fun c i => wakeEng c (e + i)) c

/-- cg_req of an engine rises once nothing is open on it and no pick has chosen it (02, R77, R847; 16, R804). -/
def restEng (c : Core) (e : Nat) : Core :=
  if engHolds c e || engWaits c e || (engReserved c e && engOk c e) then c else modEng c e (fun x => { x with cgLow := false })

/-- cg_req of the engines of a span rises where it may. -/
def restSpan (c : Core) (e n : Nat) : Core := (List.range n).foldl (fun c i => restEng c (e + i)) c

/-! ## The key of a ready entry (11, R571-R573) -/

/-- An instance is urgent (11, R587). -/
def urgent (c : Core) (x : Inst) : Bool := regSchedCtrlLateAct c && (x.latePred || x.missed)

/-- Rank of a context (11, R578, R580). -/
def rankOf (c : Core) (ctx : Nat) : Nat := if regSchedCtrlShareEn c then (getSched c ctx).rank else 0

/-- dl(e): time to an instance's deadline (11, R571). -/
def deadlineTerm (c : Core) (x : Inst) : Nat :=
  match x.deadline with
  | none => 2 ^ 64 - 1
  | some d => if geW (now c) d then 0 else (d - now c).toNat

/-- phi in effect (11, R601, R603). -/
def phiNow (c : Core) : Nat := if regMarvCtrlAdaptEn c then c.marv.phi else regMarvPhiInit c

/-- mix_want of a lane: chunk work (11, R600). -/
def mixWant (c : Core) (k : Nat) : Bool := decide (64 ≤ tget c.marv.acc 0 k + phiNow c)

/-- The mix accumulator of a lane after an array issue (11, R600). -/
def mixStep (c : Core) (k : Nat) : Core :=
  { c with marv := { c.marv with acc := tset c.marv.acc 0 k ((tget c.marv.acc 0 k + phiNow c) % 64) } }

/-- The key of R571 as one number, its terms from the highest; a lane, where given, adds the mix term (11, R571, R604). -/
def entryKey (c : Core) (lane : Option Nat) (i t order : Nat) : Nat :=
  let x := getInst c i
  let mix := match lane with
    | some k => b2n (rcClass (taskRec c i t) == 1 && chunkBit c i t != mixWant c k)
    | none => 0
  ((((eprio c x.q * 2 + b2n (!urgent c x)) * 256 + rankOf c x.ctx) * 2 + mix) * 2 ^ 64 + deadlineTerm c x) * 2 ^ 64 + order

/-! ## The choice of an engine (08, R436; 13, R680, R681; 15, R769) -/

/-- Key of a lookup task: bits 51:16 of its descriptor address (13). -/
def lookupKey (r : List Word) : Nat := rcDesc r / 2 ^ 10

/-- The engine that R769 fixes for a task on its home lane (15, R769). -/
def fixedEngine (c : Core) (k i t copy : Nat) : Option Nat :=
  let cls := rcClass (taskRec c i t)
  let n := max 1 (placeable c i t).length
  let j := reproS c i t copy / n
  let l := (engsOf k cls).filter (engOk c)
  match cls with
  | 1 => l[j % max 1 l.length]?
  | 2 => l[j % max 1 l.length]?
  | _ => l.head?

/-- A lookup engine's last key equals a key (13, R680). -/
def keyMatches (c : Core) (key e : Nat) : Bool := tget c.lkp none (e - 0x1000) == some key

/-- The engine of a lane for a task other than a gang (08, R436; 13, R681; 15, R769). -/
def chooseEngine (c : Core) (k i t copy : Nat) : Option Nat :=
  let r := taskRec c i t
  let cls := rcClass r
  if regDetCtrlRepro c then (fixedEngine c k i t copy).filter (engRoom c k)
  else
    let l := (engsOf k cls).filter (engRoom c k)
    match cls with
    | 1 => argmin (fun e => (b2n (gated c e) * 1024 + engOpens c e) * 64 + e % 64) l
    | 2 =>
      let m := l.filter (keyMatches c (lookupKey r))
      if regLkpCfgStickyEn c && l.length == 2 && m.length == 1 then m.head?
      else argmin (fun e => engOpens c e * 2 + e % 2) l
    | _ => l.head?

/-! ## Issue beats (08, Table 8.12, R415, R441; 02, R65-R70) -/

/-- What an issue message carries besides its issue table entry (08, Table 8.12). -/
structure IssueArgs where
  /-- PARTITION. -/
  part : Nat := 0
  /-- DESC_ADDR, as bits 51:6 of the address. -/
  desc : Nat := 0
  /-- GANG_RANK. -/
  rank : Nat := 0
  /-- EPOCH_SEL. -/
  sel : Bool := false
  /-- P0. -/
  p0 : Word := 0
  /-- P1. -/
  p1 : Word := 0
  deriving DecidableEq, Repr

/-- Issue message (08, Table 8.12). -/
def issueMsg (x : Issue) (id : Nat) (a : IssueArgs) : BitVec 256 :=
  let word0 := x.eng + b2n x.gang.isSome * 2 ^ 13 + x.gang.getD 0 * 2 ^ 14 + a.rank * 2 ^ 26 + x.cls * 2 ^ 38
    + b2n x.varies * 2 ^ 42 + (x.span - 1) * 2 ^ 43 + id * 2 ^ 49 + a.part * 2 ^ 57
  BitVec.ofNat 256 (word0 + a.desc * 2 ^ 64 + x.repl * 2 ^ 110 + b2n a.sel * 2 ^ 126 + a.p0.toNat * 2 ^ 128
    + a.p1.toNat * 2 ^ 192)

/-- The lowest free ISSUE_ID of a lane's issue table (08, Table 8.12). -/
def freeId (c : Core) (bus : Nat) : Option Nat := (below 256 (fun n => (tfind (getLane c bus).issues n).isNone)).head?

/-- An issue beat driven: its table entry, clock-gate request, counters and trace (08, Table 8.12; 02, R65; 17, Tables 17.1,
17.3).  Without a free ISSUE_ID nothing happens. -/
def driveIssue (c : Core) (bus : Nat) (x : Issue) (a : IssueArgs) : Core :=
  match freeId c bus with
  | none => c
  | some id =>
    let m := issueMsg x id a
    let c := wakeSpan c x.eng x.span
    let c := modLane c bus (fun l => { l with issues := tput l.issues id x })
    let c := emit c (.issue bus m)
    let c := modSched c x.ctx (fun y => { y with active := true })
    let o : Owner := { ctx := some x.ctx, part := some (getCtx c x.ctx).part, q := some x.q, lane := some x.lane }
    let c := pmuEv (cntAdd c (pgDl x.lane) 0x110 1) 0x040 1 o
    let inst := if x.kind = .task then x.inst else 0
    trace c 0x07 o inst (if x.kind = .task then x.copy else 0) (w64 (m.toNat % 2 ^ 64)) x.lane x.varies

/-- Patch slot value of P0 or P1: zero where its enable bit is 0 (08, R415, Table 8.4). -/
def patchArg (c : Core) (i : Nat) (en : Bool) (slot : Nat) : Word := if en then patchSlot c i slot else 0

/-- Arguments of a task's issue (08, Table 8.12, R415; 13, R702). -/
def taskArgs (c : Core) (i t rank : Nat) : IssueArgs :=
  let r := taskRec c i t
  let x := getInst c i
  { part := (getCtx c x.ctx).part, desc := rcDesc r, rank := rank, sel := rbit x.epoch 0
    p0 := patchArg c i (wbit (wat r 2) 20) (wf (wat r 2) 14 6), p1 := patchArg c i (wbit (wat r 2) 27) (wf (wat r 2) 21 6) }

/-- A task with VARIES set counted and traced, unless it is bound to a combining queue of order 1 (15, R772; 17, Table 17.3). -/
def noteVaries (c : Core) (k i t : Nat) : Core :=
  let x := getInst c i
  if !rcVaries (taskRec c i t) then c
  else
    let c := trace c 0x0F { ownQ c x.q with lane := some k } i t 0 t true
    if (cqFind c x.graph t).isSome then c else reproVaries c 2 x.q t

/-- A lookup issue to a lookup engine: its last key and the counters of the LKP page (13, R680, Table 13.7). -/
def lookupIssued (c : Core) (j key : Nat) : Core :=
  let same := tget c.lkp none j == some key
  let c := cntAdd (cntAdd c pgLkp 0x108 1) pgLkp (if same then 0x110 else 0x118) 1
  { c with lkp := tset c.lkp none j (some key) }

/-- One task or copy issued to a span of engines (08, R436, R441; 11, R600, R615, R616; 13, R680; 01, R27). -/
def issueTask (c : Core) (k : Nat) (e : Ready) (eng span : Nat) (gang : Option Nat) (rank : Nat) : Core :=
  let r := taskRec c e.inst e.task
  let x := getInst c e.inst
  let cls := rcClass r
  let y : Issue :=
    { lane := k, inst := e.inst, task := e.task, copy := e.copy, eng := eng, span := span, cls := cls
      repl := if rcCane r then replIndex c e.inst e.task e.copy else 0, point := rcPoint r, liveset := rcLive r
      varies := rcVaries r, gang := gang, ctx := x.ctx, q := x.q, order := e.order }
  let c := driveIssue (patchUse c e.inst) (busOf k cls) y (taskArgs c e.inst e.task rank)
  let c := modInst c e.inst (fun x => { x with openN := x.openN + 1 })
  let c := modQ c x.q (fun q => { q with ptLanes := q.ptLanes ||| (1 <<< k) })
  let c := pointTimer c x.q
  let c := if cls = 1 then mixStep c k else c
  let c := if cls = 2 then lookupIssued c (eng - 0x1000) (lookupKey r) else c
  noteVaries c k e.inst e.task

end Sys2Proof.Machine
end

