-- ==== Sys2Proof/Machine/GsOps.lean ====
section
/-! DEFINITION. Blocks of the Graph Store taken and freed, versions and unloads (08, R389, R390, R404-R410; 16, R797), and the
table epochs that instances bind (13, R702-R704). -/

namespace Sys2Proof.Machine

/-! ## Blocks (08, R389, R390) -/

/-- Kind of a block: 0 free, 1 image, 2 map, 3 task (08, Table 8.1). -/
def blockKind (c : Core) (b : Nat) : Nat := tget c.gs.kinds 0 b

/-- A block takes a kind. -/
def setKind (c : Core) (b k : Nat) : Core := { c with gs := { c.gs with kinds := tset c.gs.kinds 0 b k } }

/-- A block freed: zero data, its poison cleared (16, R797). -/
def freeBlock (c : Core) (b : Nat) : Core :=
  let c := setKind c b 0
  { c with gs := { c.gs with tasks := tdel c.gs.tasks b, poison := c.gs.poison.filter (· != b) } }

/-- Task-slot blocks in use. -/
def blocksUsed (c : Core) : Nat := c.gs.kinds.length

/-- A list of numbers that starts at one number, one by one. -/
def run (base n : Nat) : List Nat := (List.range n).map (base + ·)

/-- An edge run freed; a 2 KiB block, four edge blocks, loses its poison once none of its edge blocks is in use (16, R797). -/
def freeEdges (c : Core) (base n : Nat) : Core :=
  let gs := c.gs
  let use := (run base n).foldl (fun t b => tset t false b false) gs.edgeUse
  let gone (p : Nat) : Bool :=
    decide (4096 ≤ p) && (List.range 4).all (fun j => !tget use false (4 * (p - 4096) + j))
  { c with gs := { gs with
      edgeUse := use
      edges := gs.edges.filter (fun e => !decide (64 * base ≤ e.1 ∧ e.1 < 64 * (base + n)))
      poison := gs.poison.filter (fun p => !gone p) } }

/-! ## Versions and unloads (08, R400, R401, R404, R408-R410) -/

/-- A version no longer maps a task block: SHARE falls, and at zero the block is freed; how many blocks were freed (08, R408). -/
def unshare (p : Core × Nat) (b : Nat) : Core × Nat :=
  let n := (getBlock p.1 b).share - 1
  if n = 0 then (freeBlock p.1 b, p.2 + 1) else (modBlock p.1 b (fun x => { x with share := n }), p.2)

/-- A version freed (08, R408). -/
def freeVersion (c : Core) (g : Nat) (v : Version) : Core :=
  let p := v.blocks.foldl unshare (freeBlock c v.map, 1)
  modImg p.1 g (fun x => { x with versions := x.versions.filter (fun y => y.num != v.num), nFreed := x.nFreed + p.2 })

/-- A version may be freed: no instance is bound to it, and it is not current or the graph is UNLOADING (08, R408, R409). -/
def versionIdle (x : Img) (v : Version) : Bool := v.insts == 0 && (v.num != x.cur || x.st == .unloading)

/-- The records of loads, patches and unloads (08, R400, R401). -/
def gsAnswer (c : Core) (h : Hdr) (status ver blocks : Nat) : Core :=
  answer c { h with queue := 0 } status (w64 (ver + blocks * 2 ^ 16))

/-- An UNLOADING graph without versions returns to FREE, and its record is written (08, R398, R400, R409, R410). -/
def unloadStep (c : Core) (g : Nat) : Core :=
  let x := getImg c g
  if x.st = .unloading ∧ x.versions = [] then
    let c := freeEdges (freeBlock c x.block) x.edgeBase x.edgeBlocks
    let c := modImg c g (fun _ => {})
    let c := otPump { c with fe := { c.fe with rels := c.fe.rels ++ [x.obj] } }
    match x.unload with
    | some h => gsAnswer c h 0 0 (x.nFreed + 1)
    | none => c
  else c

/-- Versions of a graph that may be freed are freed, and an unload that is due ends (08, R408, R409). -/
def sweepGraph (c : Core) (g : Nat) : Core :=
  let x := getImg c g
  unloadStep ((x.versions.filter (versionIdle x)).foldl (fun c v => freeVersion c g v) c) g

/-- A version's INSTANCES moved by one (08, R345, R417). -/
def versionInsts (c : Core) (g ver : Nat) (up : Bool) : Core :=
  modImg c g (fun x => { x with versions := x.versions.map (fun (v : Version) =>
    if v.num = ver then { v with insts := if up then v.insts + 1 else v.insts - 1 } else v) })

/-- A task of an instance lies in a poisoned block (16, R797). -/
def taskPoisoned (c : Core) (i t : Nat) : Bool := c.gs.poison.contains ((instVersion c i).blocks.getD (t / 60) 0)

/-- The edges of a task of an instance begin in a poisoned block (16, R797). -/
def edgesPoisoned (c : Core) (i t : Nat) : Bool := c.gs.poison.contains (4096 + rcEdge (taskRec c i t) / 256)

/-- An instance that would read a poisoned block has its context torn down with cause 4 (16, R797). -/
def poisonTear (c : Core) (i : Nat) : Core := contain c { ctx := (getInst c i).ctx, cause := 4 }

/-! ## Table epochs of instances (13, R702-R704) -/

/-- A BUSY shadow opens once no instance is bound to the previous epoch (13, Table 13.6). -/
def shadowCheck (c : Core) : Core :=
  if c.tbl.shadow = .busy ∧ c.tbl.livePrev = 0 then
    irqSet { c with tbl := { c.tbl with shadow := .opened } } pgTbl 3
  else c

/-- An instance binds EPOCH (13, R702, R703). -/
def bindEpoch (c : Core) (i : Nat) : Core :=
  if (getInst c i).bound then c
  else
    let c := modInst c i (fun x => { x with epoch := c.tbl.epoch, bound := true })
    { c with tbl := { c.tbl with liveCur := c.tbl.liveCur + 1 } }

/-- A retiring instance leaves the count of its epoch (13, R703, R704). -/
def unbindEpoch (c : Core) (i : Nat) : Core :=
  let x := getInst c i
  if !x.bound then c
  else if x.epoch = c.tbl.epoch then { c with tbl := { c.tbl with liveCur := c.tbl.liveCur - 1 } }
  else shadowCheck { c with tbl := { c.tbl with livePrev := c.tbl.livePrev - 1 } }

end Sys2Proof.Machine
end

