-- ==== Sys2Proof/Machine/Instances.lean ====
section
/-! DEFINITION. Launches accepted, instances opened, released and retired, their predictions and deadlines (07, R344-R353;
08, R411-R418, R447; 11, R582-R591; 14, R748, R749). -/

namespace Sys2Proof.Machine

/-! ## Numbers and counters (08, R411-R413) -/

/-- Units of 32 counters that a version takes (08, R412). -/
def ctrUnits (tasks : Nat) : Nat := (tasks + 31) / 32

/-- Counter runs in use: base and length, ascending (08, R412). -/
def ctrRuns (c : Core) : List (Nat × Nat) :=
  sortBy (·.1) ((c.isr.insts.filter (fun e => decide (e.2.st ≠ .free ∧ 0 < e.2.crun))).map (fun e => (e.2.cbase, e.2.crun)))

/-- Free counters (08, Table 8.17 FREE_CNT). -/
def freeCtrs (c : Core) : Nat := 1048576 - ((ctrRuns c).map (·.2)).sum

/-- Free runs between runs in use from a counter on: base and length. -/
def gapsFrom : Nat → List (Nat × Nat) → List (Nat × Nat)
  | at_, [] => if at_ < 1048576 then [(at_, 1048576 - at_)] else []
  | at_, r :: t => if at_ < r.1 then (at_, r.1 - at_) :: gapsFrom (r.1 + r.2) t else gapsFrom (r.1 + r.2) t

/-- Free counter runs (08, Table 8.17 LARGEST_RUN). -/
def freeRuns (c : Core) : List (Nat × Nat) := gapsFrom 0 (ctrRuns c)

/-- The free runs that hold so many counters; which of them a launch takes the manual leaves open (08, R412). -/
def runsFor (c : Core) (n : Nat) : List (Nat × Nat) := (freeRuns c).filter (fun r => decide (n ≤ r.2))

/-- A base for a run: one of the free runs that hold it, and a place of 32 counters in it, both left open by the manual
(08, R412). -/
def takeRun (c : Core) (n : Nat) : Option (Nat × Core) :=
  match runsFor c n with
  | [] => none
  | l =>
    let p := freeNat c
    let p2 := freeNat p.2
    let r := l.getD (p.1 % l.length) (0, 0)
    some (r.1 + 32 * (p2.1 % ((r.2 - n) / 32 + 1)), p2.2)

/-- The next free instance number in rotation (08, R411). -/
def nextInst (c : Core) : Option Nat :=
  ((List.range 16384).map (fun d => (c.isr.next + d) % 16384)).find? (fun i => (getInst c i).st == .free)

/-- Live runs slid toward counter 0 in ascending order: new base of each instance (08, R413). -/
def slide : Nat → List (Nat × Inst) → List (Nat × Nat)
  | _, [] => []
  | at_, e :: t => (e.1, at_) :: slide (at_ + e.2.crun) t

/-- Counters after a compaction, for one instance. -/
def moveRun (old : Tbl Nat) (x : Inst) (base : Nat) (t : Tbl Nat) : Tbl Nat :=
  (old.filter (fun e => decide (x.cbase ≤ e.1 ∧ e.1 < x.cbase + x.crun))).foldl
    (fun t e => tput t (e.1 - x.cbase + base) e.2) t

/-- Compaction of the counter pool (08, R413). -/
def compact (c : Core) : Core :=
  let live := sortBy (fun e => e.2.cbase) (c.isr.insts.filter (fun e => decide (e.2.st ≠ .free ∧ 0 < e.2.crun)))
  let moves := slide 0 live
  let old := c.isr.ctrs
  let ctrs := moves.foldl (fun t m => moveRun old (getInst c m.1) m.2 t) []
  let c := moves.foldl (fun c m => modInst c m.1 (fun x => { x with cbase := m.2 })) c
  { c with isr := { c.isr with ctrs := ctrs, compacting := false } }

/-- COMPACTION_DONE (08, R413). -/
def execCompactionDone (s : State) : Host.Outcome State Fault Refusal :=
  mission (fun c => if c.isr.compacting then compact c else c) s

/-! ## The gate of a synchronised launch (14, R748, Table 14.8) -/

/-- SELF_AGREE: the die's own digest and generation equal the agreed ones (14, R746, Table 14.9). -/
def selfAgree (c : Core) : Bool :=
  c.pp.agreed && c.rs.dieDigest == some c.pp.agreedDig && r32 (regGlbCfgGen c) == c.pp.agreedGen

/-- SYS_OK on the manager: no UP worker is in skew (14, R745). -/
def managerOk (c : Core) : Bool := c.pp.peers.all (fun e => !(e.2.st == .up && e.2.skew))

/-- SYS_OK: the manager's own, or as last received from it (14, R746, Table 14.8). -/
def sysOk (c : Core) : Bool := if role c = 1 then managerOk c else c.pp.sysOk

/-- The first condition of Table 14.8 that fails for a synchronised launch at a count (14, R748). -/
def gateFail (c : Core) (at_ : Word) : Option Nat :=
  let follower := role c == 2 || role c == 3
  if role c = 0 then some 1
  else if follower && !linkUpTo c (regPpCfgMgrDie c) then some 2
  else if c.rs.dieBusy then some 3
  else if follower && !selfAgree c then some 4
  else if !sysOk c then some 5
  else if !c.tu.lock then some 6
  else if !geW at_ (now c + w64 (regPpSyncLeadUs c * 1000)) then some 7
  else none

/-! ## Release of roots (07, R348-R350; 08, R416, Table 8.14) -/

/-- The roots of an instance are due to be handed on (08, R416). -/
def releaseRoots (c : Core) (i : Nat) : Core := (List.range (getInst c i).roots).foldl (fun c t => taskReady c i t) c

/-- A HELD, open instance whose predecessor has retired and whose count AT has been reached releases its roots
(07, R348-R350; 08, Table 8.14). -/
def tryRelease (c : Core) (i : Nat) : Core :=
  let x := getInst c i
  let held := match x.chain with | some r => instLive c r | none => false
  if x.st = .held ∧ x.opening = false ∧ held = false ∧ x.at_ = none then
    let c := bindEpoch c i
    releaseRoots (modInst c i (fun x => { x with st := .running, chain := none })) i
  else c

/-! ## Launches accepted (07, R344-R353; 08, R413, Table 8.14; 15, R777) -/

/-- The instance of an accepted launch (08, Table 8.14). -/
def newInst (c : Core) (o : Offer) (q : Nat) (v : Version) (base : Nat) : Inst :=
  let s := getSq c o.sq
  let x := getQ c q
  let pred := if o.chain then s.inst.filter (instLive c) else none
  let at_ := o.at_.filter (fun a => !geW (now c) a)
  let start := o.at_.getD (now c)
  { st := if pred.isSome || at_.isSome then .held else .running, serial := c.isr.serial, opening := true
    graph := o.graph, ver := v.num, ctx := x.ctx, q := q, sid := x.cur.getD 0, pc := s.pc, left := v.tasks
    tasks := v.tasks, roots := v.roots, cbase := base, crun := 32 * ctrUnits v.tasks, chain := pred, at_ := at_
    deadline := if o.dl = 0 then none else some (start + w64 (o.dl * 1000)), start := start
    slowF := max 256 (getSched c x.ctx).slow, stage := stagingWords s, lnum := x.lnum }

/-- A launch accepted with an instance number and a counter run (07, R345-R352; 08, Table 8.14; 11, R584; 15, R777). -/
def acceptLaunch (c : Core) (o : Offer) (q i base : Nat) (v : Version) : Core :=
  let x := newInst c o q v base
  let g := getImg c o.graph
  let late := o.at_.isSome && x.at_.isNone
  let c := modInst c i (fun _ => x)
  let c := { c with isr := { c.isr with next := (i + 1) % 16384, serial := c.isr.serial + 1 } }
  let c := versionInsts c o.graph v.num true
  let c := modQ c q (fun y => { y with lnum := (y.lnum + 1) % 65536 })
  let c := if o.at_.isNone || x.st == .running then bindEpoch c i else c
  let c := match x.at_ with | some a => alarmAdd c 2 i a | none => c
  let c := match x.deadline with | some d => alarmAdd c 9 i d | none => c
  let c := if late then pageErr c (pgSq o.sq) 0x11 ((o.at_.getD 0).toNat % 2 ^ 32) 0 else c
  let c := trace c 0x05 (ownQ c q) i 0 (x.deadline.getD 0) (o.graph * 65536 + v.num)
  let c := mpRead c (g.pgiAddr + g.costOff) (getCtx c g.owner).part 64 (.cost i x.serial)
  let c := modSq c o.sq (fun s => { s with pred := s.inst, inst := some (i, x.serial), instGraph := o.graph })
  moveOn c o.sq

/-- An offer leaves the list. -/
def dropOffer (c : Core) (o : Offer) : Core :=
  { c with isr := { c.isr with offers := c.isr.offers.filter (fun (x : Offer) => x.sq != o.sq) } }

/-- The first offer, judged: faulted, made to wait, or accepted (07, R344, R353; 08, R413; 14, R748). -/
def judgeOffer (c : Core) (o : Offer) (q : Nat) : Core :=
  if badGraph c o.graph o.ver (getQ c q).ctx then cmdFault (dropOffer c o) o.sq 9
  else
    match versionOf c o.graph o.ver with
    | none => c
    | some v =>
      match nextInst c with
      | none => markOffers c true
      | some i =>
        let n := 32 * ctrUnits v.tasks
        if freeCtrs c < n then markOffers c true
        else
          match takeRun c n with
          | none => { markOffers c false with isr := { (markOffers c false).isr with compacting := true } }
          | some (base, c) =>
            match (if o.sync then gateFail c (o.at_.getD 0) else none) with
            | some r =>
              let c := cntAdd (dropOffer c o) pgPp 0x1E8 1
              cmdFault { c with pp := { c.pp with gateLast := r32 (r * 2 ^ 28 + q) } } o.sq 0x11
            | none => acceptLaunch (dropOffer (markOffers c false) o) o q i base v

/-- An offer stands: its sequencer still waits, and its queue is not held back by a fault (05, R851). -/
def offerStands (c : Core) (o : Offer) : Bool :=
  match (getSq c o.sq).q with
  | some q => (getSq c o.sq).stall == .launch && ((getQ c q).st == .running || (getQ c q).st == .blocked)
  | none => false

/-- LAUNCH_ACCEPT: the DE takes the oldest offer (07, R345, R353; 08, R413). -/
def execLaunchAccept (s : State) : Host.Outcome State Fault Refusal :=
  mission (fun c =>
    if !mayStart c || c.isr.compacting then c
    else
      match c.isr.offers.find? (offerStands c) with
      | none => c
      | some o =>
        match (getSq c o.sq).q with
        | none => c
        | some q => judgeOffer c o q) s

/-! ## Opening (08, R414-R416; 01, R23, R27) -/

/-- Initial counts of a version's tasks (08, Table 8.1). -/
def initCount (c : Core) (v : Version) (t : Nat) : Nat := (getBlock c (v.blocks.getD (t / 60) 0)).counts.getD (t % 60) 0

/-- Counters of an instance initialised (08, R414). -/
def initCtrs (c : Core) (i : Nat) : Core :=
  let v := instVersion c i
  (List.range (getInst c i).tasks).foldl (fun c t => ctrSet c i t (initCount c v t)) c

/-- An instance opens (08, R414, R416; 01, R27). -/
def openInst (c : Core) (i : Nat) : Core :=
  let x := getInst c i
  let c := patchInsert (modInst c i (fun x => { x with opening := false, init := true, stage := [] })) i x.stage
  let c := initCtrs c i
  let c := pmuEv (cntAdd c pgIsr 0x130 1) 0x030 1 (ownQ c x.q)
  if x.st = .running then releaseRoots c i else tryRelease c i

/-- INSTANCE_OPEN (08, R414). -/
def execInstanceOpen (inst : Fin 16384) (s : State) : Host.Outcome State Fault Refusal :=
  mission (fun c =>
    let i := inst.val
    let x := getInst c i
    if x.opening && (x.st == .running || x.st == .held) && !c.qsc.done then
      if c.gs.poison.any (fun b => (instVersion c i).blocks.contains b) then poisonTear c i else openInst c i
    else c) s

/-- COUNTER_INIT_END: held completions are taken (01, R23). -/
def execCounterInitEnd (inst : Fin 16384) (s : State) : Host.Outcome State Fault Refusal :=
  mission (fun c =>
    let i := inst.val
    let x := getInst c i
    if x.init && !c.ras.hold then
      takeHeld x.heldCpl.length i (modInst c i (fun x => { x with init := false }))
    else c) s

/-! ## Releases at AT, and deadlines (07, R349, R350; 11, R587-R589) -/

/-- LAUNCH_AT_RELEASE: the alarm of a LAUNCH_AT fires (07, R349, R350; 11, R592). -/
def execLaunchAtRelease (inst : Fin 16384) (s : State) : Host.Outcome State Fault Refusal :=
  mission (fun c =>
    let i := inst.val
    if c.ras.hold then c
    else
      match alarmFire c 2 i with
      | none => c
      | some (_, c) => tryRelease (modInst c i (fun x => { x with at_ := none })) i) s

/-- DEADLINE_MISS: the deadline alarm of an instance fires (11, R588). -/
def execDeadlineMiss (inst : Fin 16384) (s : State) : Host.Outcome State Fault Refusal :=
  mission (fun c =>
    let i := inst.val
    if c.ras.hold then c
    else
      match alarmFire c 9 i with
      | none => c
      | some (_, c) =>
        let x := getInst c i
        let c := modInst c i (fun x => { x with missed := true })
        let c := irqSet (cntAdd c pgSched 0x160 1) pgSched 3
        if regSchedCtrlMissAct c then queueFault c x.q 6 1 0 x.sid (some i) else c) s

/-! ## Predictions (11, R582-R586) -/

/-- A prediction after the deadline flags the instance (11, R586). -/
def latePredict (c : Core) (i : Nat) : Core :=
  let x := getInst c i
  match x.predict, x.deadline with
  | some p, some d =>
    if regSchedCtrlLateEn c && !x.latePred && geW p d && p != d then
      let c := modInst c i (fun x => { x with latePred := true })
      let c := { c with sched := { c.sched with lateLast := r32 (i * 2 ^ 18 + x.q * 2 ^ 9) } }
      irqSet (cntAdd c pgSched 0x158 1) pgSched 2
    else c
  | _, _ => c

/-- A cost header is good: MAGIC and FORMAT (11, Table 11.1). -/
def costGood (st : QStatus) (data : List Word) : Bool :=
  st == .ok && wf (wat data 0) 0 48 == 0x0001_54534F43

/-- COST_HEADER_READ: the read of a launch's cost header returns (11, R583, R584, R586). -/
def execCostHeaderRead (inst : Fin 16384) (st : QStatus) (data : List Word) (s : State) :
    Host.Outcome State Fault Refusal :=
  mission (fun c =>
    let i := inst.val
    let tag := c.io.reqs.findSome? (fun (r : Req) => match r.tag with
      | .cost n k => if n = i then some k else none
      | _ => none)
    match tag with
    | none => c
    | some k =>
      match takeReq c (.cost i k) with
      | none => c
      | some (r, c) =>
        let c := notePoison c st (pageTy pgSched) r.addr
        let x := getInst c i
        if x.st = .free ∨ x.serial ≠ k then c
        else if costGood st data then
          let crit := wf (wat data 1) 0 32
          let p := x.start + w64 (crit * x.slowF / 256)
          latePredict (modInst c i (fun x => { x with crit := crit, predict := some p })) i
        else pageErr c pgSched 0x10 x.graph 0) s

/-! ## Retirement (08, R417, R418; 07, R348, R373; 05, R228; 11, R590, R591) -/

/-- An instance may retire (08, R417, R418). -/
def retireDue (x : Inst) : Bool :=
  match x.st with
  | .aborting => x.openN == 0
  | .running => !x.opening && x.left == 0 && x.sigOut == 0 && x.openN == 0
  | _ => false

/-- Slowdown sample of an instance that retires now (11, R590). -/
def slowSample (c : Core) (x : Inst) : Nat := min 65535 ((now c - x.start).toNat * 256 / x.crit)

/-- SLOW updated at a retirement (11, R590, R591, Table 11.2). -/
def slowUpdate (c : Core) (i : Nat) : Core :=
  let x := getInst c i
  if x.st = .aborting ∨ x.crit = 0 ∨ now c = x.start ∨ geW (now c) x.start = false then c
  else
    let n := slowSample c x
    let c := modSched c x.ctx (fun y => { y with slow := (7 * y.slow + n + 4) / 8 })
    if n ≤ regSchedSlowThresh c then c
    else
      let rec_ : List Reg :=
        [ r32 (x.ctx * 2 ^ 24 + i * 2 ^ 10 + x.q * 2), r32 (x.graph * 2 ^ 20 + n), r32 ((now c - x.start).toNat / 1000),
          r32 (x.crit / 1000) ]
      irqSet { c with sched := { c.sched with slowFifo := fifoPush c.sched.slowFifo 1024 rec_ } } pgSched 6

/-- Routes of a retiring instance end, and a result that would come too late is an orphan (07, R373). -/
def retireRoutes (c : Core) (i : Nat) : Core :=
  let n := (getInst c i).serial
  let l := c.shr.routes.filter (fun (r : Route) => r.inst == i && r.serial == n && !r.dead && r.landed.isNone)
  let c := dropRoutes c i
  if l = [] then c else pageErr c (pgSq (getQ c (getInst c i).q).sq) 0x12 i 0

/-- What an instance held is freed, and it is FREE (08, R417; 01, R27; 11, R594; 13, R703). -/
def freeInst (c : Core) (i : Nat) : Core :=
  let x := getInst c i
  let c := retireRoutes c i
  let c := unbindEpoch (alarmDrop (alarmDrop c 2 i) 9 i) i
  let isr := c.isr
  let c := { c with isr := { isr with
    ctrs := isr.ctrs.filter (fun e => !decide (x.cbase ≤ e.1 ∧ e.1 < x.cbase + x.crun))
    patch := tdel isr.patch i, lru := isr.lru.filter (· != i), loading := isr.loading.filter (· != i) } }
  let c := modInst c i (fun _ => {})
  sweepGraph (versionInsts c x.graph x.ver false) x.graph

/-- Instances chained to one that has retired (07, R348). -/
def chainedTo (c : Core) (r : Nat × Nat) : List Nat := (c.isr.insts.filter (fun e => e.2.chain == some r)).map (·.1)

/-- Waiting launches still lack a slot or counters (07, R353). -/
def offersShort (c : Core) : Bool :=
  match c.isr.offers with
  | [] => false
  | o :: _ =>
    (nextInst c).isNone || (match versionOf c o.graph o.ver with
      | some v => decide (freeCtrs c < 32 * ctrUnits v.tasks)
      | none => false)

/-- An instance retires (08, R417; 05, R228, R260; 07, R348, R353, R356; 09, R484; 17, Table 17.3). -/
def retireInst (c : Core) (i : Nat) : Core :=
  let x := getInst c i
  let c := trace c 0x06 (ownQ c x.q) i 0 x.start (b2n (x.st == .aborting))
  let c := freeInst (slowUpdate c i) i
  let c := (chainedTo c (i, x.serial)).foldl (fun c j => tryRelease (modInst c j (fun y => { y with chain := none })) j) c
  let c := checkGuilty (balCheck (subDone c x.q x.sid) x.q) x.q
  let c := if c.isr.offers.any (·.room) then markOffers c (offersShort c) else c
  (List.range 32).foldl pollInst c

/-- INSTANCE_RETIRE (08, R417). -/
def execInstanceRetire (inst : Fin 16384) (s : State) : Host.Outcome State Fault Refusal :=
  mission (fun c => if retireDue (getInst c inst.val) then retireInst c inst.val else c) s

/-! ## Patch blocks from and to their homes (01, R27, R28; 08, Table 8.15) -/

/-- A patch block read or write-back that failed (08, Table 8.15). -/
def patchFail (c : Core) (i : Nat) : Core := instFault (pageErr c pgIsr 0x10 i 0) i 4 5 0

/-- PATCH_BLOCK_LOAD: the read of a patch block returns (01, R28). -/
def execPatchBlockLoad (inst : Fin 16384) (st : QStatus) (data : List Word) (s : State) :
    Host.Outcome State Fault Refusal :=
  mission (fun c =>
    let i := inst.val
    match takeReq c (.blkLoad i) with
    | none => c
    | some (r, c) =>
      let c := notePoison c st (pageTy pgIsr) r.addr
      let mine := c.isr.loading.contains i
      let c := { c with isr := { c.isr with loading := c.isr.loading.filter (· != i) } }
      if !mine then (if (getInst c i).st = .free ∨ (getInst c i).opening then c else patchFetch c i)
      else if st ≠ .ok then patchFail c i
      else routesResume (cruResume (resumeWalks (patchInsert c i (data.take 64)) i)
        (fun j => j == i)) i) s

/-- PATCH_WRITE_BACK_ACK: the write-back of a patch block is acknowledged (01, R27; 08, Table 8.15). -/
def execPatchWriteBackAck (inst : Fin 16384) (st : QStatus) (s : State) : Host.Outcome State Fault Refusal :=
  mission (fun c =>
    let i := inst.val
    match takeReq c (.blkWb i) with
    | none => c
    | some (r, c) =>
      let c := notePoison c st (pageTy pgIsr) r.addr
      if st ≠ .ok then patchFail c i else if walkWaits c i then patchFetch c i else c) s

end Sys2Proof.Machine
end

