-- ==== Sys2Proof/Machine/Sched.lean ====
section
/-! DEFINITION. The scheduler: save and restore issues, the end of a save, restores, late points, and the accounting period
(11, R574-R587, R605-R618; 05, R242). -/

namespace Sys2Proof.Machine

/-! ## Arbitration (05, R242; 11, R613, R620) -/

/-- Rotation pointer of a sequencer and priority (05, R242). -/
def rotOf (c : Core) (s p : Nat) : Nat := tget c.fe.rot 511 (8 * s + p)

/-- A queue may be granted its sequencer at a priority: READY at its fixed one, or SAVED without a demand against it at its
effective one (05, R242; 11, R613). -/
def grantable (c : Core) (s p q : Nat) : Bool :=
  let x := getQ c q
  x.sq == s && ((x.st == .ready && x.prio == p)
    || (x.st == .preempted && (getPre c q).phase == .saved && eprio c q == p && !demandOnSaved c q))

/-- The queue that the FE chooses for a free sequencer, with its priority (05, R242). -/
def chooseQueue (c : Core) (s : Nat) : Option (Nat × Nat) :=
  (List.range 8).findSome? (fun p =>
    ((List.range 512).map (fun i => (rotOf c s p + 1 + i) % 512)).findSome? (fun q =>
      if grantable c s p q then some (q, p) else none))

/-- The rotation pointer after a grant (05, R242). -/
def setRot (c : Core) (s p q : Nat) : Core := { c with fe := { c.fe with rot := tset c.fe.rot 511 (8 * s + p) q } }

/-! ## Save and restore issues (11, Table 11.7, R613, R616) -/

/-- The queue, if any, whose save or restore owes an issue on a lane: the lowest one. -/
def saveDue (c : Core) (k : Nat) : Option Nat :=
  (c.sched.pre.find? (fun e =>
    (e.2.phase == .saving || e.2.phase == .restoring) && e.2.toIssue.any (fun x => x.1 == k))).map (·.1)

/-- Place of a lane in the mask of a full save (11, R616). -/
def maskPlace (m : Word) (k : Nat) : Nat := ((bitsOf m).filter (· < k)).length

/-- Arguments of a save or restore issue (11, Table 11.7, R613, R616). -/
def saveArgs (c : Core) (q k n : Nat) (p : Preempt) : IssueArgs :=
  let rest := p.phase == .restoring
  if p.full then
    { part := qPart c q, desc := ((if rest then regSchedFullRest c else regSchedFullSave c) + 64 * k) / 64
      p0 := w64 (saveAt c q + 0x2000 + 2 ^ 25 * maskPlace p.mask k), p1 := w64 (2 ^ 64 - 1) }
  else
    let x := p.sets.getD n {}
    { part := qPart c q, desc := ((if rest then x.restDesc else x.saveDesc) + 64 * k) / 64, p0 := w64 x.data, p1 := w64 x.id }

/-- A save or restore issue that a lane's stream engine can take: it wakes a gated engine first (11, Table 11.7; 02, R847;
13, R693). -/
def issueSaveOn (c : Core) (q k : Nat) : Core :=
  let p := getPre c q
  let e := 0x1080 + k
  match p.toIssue.find? (fun x => x.1 == k) with
  | none => c
  | some x =>
    if !engRoom c k e || (freeId c k).isNone then c
    else if gated c e then wakeEng c e
    else
      let y : Issue :=
        { kind := if p.phase = .restoring then .restore q else .save q, lane := k, eng := e, cls := 3
          ctx := (getQ c q).ctx, q := q }
      let a := saveArgs c q k x.2 p
      driveIssue (modPre c q (fun p => { p with toIssue := p.toIssue.erase x })) k y a

/-! ## Restores (11, R613, R614) -/

/-- Sequencer state as the save area holds it (11, Table 11.6; log entry 20). -/
def seqStateOf (ws : List Word) : Sq :=
  let seq := ws.drop 32
  let regs (off n : Nat) : Tbl Word := (List.range n).foldl (fun t i => tset t 0 i (wat ws (off / 8 + i))) []
  { pc := wf (wat seq 0) 0 16, rot := wf (wat seq 0) 16 8, counted := wbit (wat seq 0) 24, steps := wf (wat seq 0) 32 32
    s := (List.range 16).foldl (fun t i => tset t 0 i (wat seq (1 + i))) [], scratch := regs 0x400 512
    staging := regs 0x200 64, inst := wordOpt (wat seq 17), pred := wordOpt (wat seq 18), taken := wordOpt (wat seq 19)
    instGraph := (wat seq 20).toNat }

/-- The header checks of a restore (11, R613, Table 11.6). -/
def restoreOk (c : Core) (q : Nat) (ws : List Word) : Bool :=
  let h0 := wat ws 0
  let h1 := wat ws 1
  let ctx := (getQ c q).ctx
  wf h0 0 48 == 0x0001_56415345 && wf h1 0 16 == q && wf h1 16 8 == ctx && wf h1 32 32 == (getCtx c ctx).gen.toNat
    && wat ws 31 == saveCrc (ws.take 31) ((ws.drop 32).take 864)

/-- A scheduler fault of a queue in a preemption phase (11, R623, Table 11.9). -/
def preemptFault (c : Core) (q code : Nat) : Core :=
  queueFault c q 6 code (getPre c q).pc ((getQ c q).cur.getD 0) none

/-- The last restore issue has closed: the sequencer state is reloaded and the program resumes (11, R613; 05, R255). -/
def restoreDone (c : Core) (q : Nat) : Core :=
  let p := getPre c q
  let sq := (getQ c q).sq
  let old := getSq c sq
  let words := match (getQ c q).cur with
    | some sid => match findSub c q sid with | some s => s.words | none => []
    | none => []
  let c := modSq c sq (fun _ =>
    { seqStateOf p.rest with
      q := some q, words := words, lastCtx := some (getQ c q).ctx, halted := old.halted, stepping := old.stepping })
  let sw := tget c.sched.switches (0, 0, 0) q
  let c := { c with sched := { c.sched with switches := tset c.sched.switches (0, 0, 0) q (sw.1, spanUs c p.from_, sw.2.2) } }
  let c := inheritKeep (modPre (enterPhase c q .none) q (fun _ => {}))
  let c := progress (modQ c q (fun x => { x with st := .running })) q
  bpCheck (pointTimer c q) sq

/-- A restore whose issues have all closed goes on (11, R613, Table 11.8). -/
def restoreAdvance (c : Core) (q : Nat) : Core :=
  let p := getPre c q
  if p.phase = .restoring ∧ p.rest ≠ [] ∧ p.toIssue = [] ∧ (issuesWhere c (issueSave q)).isEmpty then
    if p.redo then (if c.qsc.req then c else modPre c q (fun p => { p with redo := false, toIssue := saveIssues p }))
    else restoreDone c q
  else c

/-- RESTORE: arbitration grants a sequencer to a SAVED queue, and its header is read (11, R613; 05, R242). -/
def execRestore (sq : Fin 32) (s : State) : Host.Outcome State Fault Refusal :=
  mission (fun c =>
    let n := sq.val
    if !mayStart c || (getSq c n).q.isSome || sqHeld c n then c
    else
      match chooseQueue c n with
      | none => c
      | some (q, p) =>
        if (getQ c q).st ≠ .preempted then c
        else
          let c := setRot c n p q
          let img := (getPre c q).img
          let c := modSq c n (fun s => { s with q := some q, words := [], stall := .point, taken := img.taken, pc := img.pc })
          let c := modPre c q (fun p => { p with from_ := now c, rest := [], redo := false, toIssue := [] })
          mpRead (enterPhase c q .restoring) (saveAt c q) (qPart c q) 0x1C00 (.restHdr q)) s

/-- RESTORE_READ_DONE: the read of a restore returns; the header is checked and the restores are issued (11, R613). -/
def execRestoreReadDone (q : Fin 512) (st : QStatus) (data : List Word) (s : State) : Host.Outcome State Fault Refusal :=
  mission (fun c =>
    let n := q.val
    let stale := decide (1 < (c.io.reqs.filter (fun r => decide (r.tag = .restHdr n))).length)
    match takeReq c (.restHdr n) with
    | none => c
    | some (r, c) =>
      let c := notePoison c st (pageTy pgSched) r.addr
      let p := getPre c n
      if stale || p.phase != .restoring || p.rest != [] then c
      else if st ≠ .ok ∨ restoreOk c n data = false then preemptFault c n 3
      else restoreAdvance (modPre c n (fun p => { p with rest := data.take 896, toIssue := saveIssues p })) n) s

/-! ## Writes of a save (11, Table 11.7, Table 11.8) -/

/-- The sequencer of a saved program is free: its taken record stays taken (11, Table 11.7; 10, R520). -/
def saveFreesSq (c : Core) (q : Nat) : Core :=
  modSq c (getQ c q).sq (fun s => if s.q = some q then
    { s with
      q := none, words := [], pc := 0, stall := .none, counted := false, inst := none, pred := none, taken := none
      stepping := false, bpPass := false }
    else s)

/-- The oldest open write of a queue's save, and how many of its tag are open. -/
def saveTag (c : Core) (q : Nat) : Option (ReqTag × Nat) :=
  (c.io.reqs.find? (fun r => decide (r.tag = .saveSeq q ∨ r.tag = .saveDir q ∨ r.tag = .saveHdr q))).map (fun r =>
    (r.tag, (c.io.reqs.filter (fun x => decide (x.tag = r.tag))).length))

/-- The header is written: the queue is SAVED (11, Table 11.7, Table 11.10). -/
def saveDone (c : Core) (q : Nat) : Core :=
  let p := getPre c q
  let sw := tget c.sched.switches (0, 0, 0) q
  let c := { c with sched := { c.sched with
    switches := tset c.sched.switches (0, 0, 0) q (spanUs c p.from_, sw.2.1, p.sets.length) } }
  enterPhase (modPre c q (fun p => { p with step := 0 })) q .saved

/-- PREEMPTION_SAVE_WRITE_ACK: a write of a save is acknowledged (11, Table 11.7, Table 11.8). -/
def execPreemptionSaveWriteAck (q : Fin 512) (st : QStatus) (s : State) : Host.Outcome State Fault Refusal :=
  mission (fun c =>
    let n := q.val
    match saveTag c n with
    | none => c
    | some (tag, k) =>
      match takeReq c tag with
      | none => c
      | some (r, c) =>
        let c := notePoison c st (pageTy pgSched) r.addr
        let p := getPre c n
        let live := match tag with
          | .saveSeq _ => p.phase == .draining && decide (k ≤ p.seqLeft)
          | .saveDir _ => p.phase == .saving && p.step == 1 && k == 1
          | _ => p.phase == .saving && p.step == 2 && k == 1
        if !live then c
        else if st ≠ .ok then preemptFault c n 2
        else
          match tag with
          | .saveSeq _ =>
            let c := modPre c n (fun p => { p with seqLeft := p.seqLeft - 1 })
            if (getPre c n).seqLeft = 0 then saveAdvance (saveFreesSq c n) n else c
          | .saveDir _ => writeHeader c n
          | _ => saveDone c n) s

/-- POINT_LATE: the point timer of a queue passes POINT_LIMIT_US (11, R615, R616). -/
def execPointLate (q : Fin 512) (s : State) : Host.Outcome State Fault Refusal :=
  mission (fun c =>
    let n := q.val
    let x := getQ c n
    match x.pointFrom with
    | none => c
    | some t =>
      if x.pointLate || !passedUs c t (regSchedPointLimitUs c) then c
      else
        let c := modQ c n (fun x => { x with pointLate := true })
        lateSave (irqSet (cntAdd c pgSched 0x178 1) pgSched 4) x.sq) s

/-! ## The accounting period (11, R574-R587) -/

/-- Weight of a context as the registers give it (11, Table 11.10 WEIGHT_n). -/
def weightReg (c : Core) (x : Nat) : Nat := fld (regSchedWeight c (x / 4)) (8 * (x % 4)) 8

/-- Contexts that have a ready entry, a held task or copy, or an open issue (11, R575). -/
def busyCtxs (c : Core) : List Nat :=
  let ofInst (i : Nat) : Nat := (getInst c i).ctx
  let rd := c.lanes.flatMap (fun e =>
    (e.2.ready.map (fun r => ofInst r.inst)) ++ (e.2.wakes.map (fun w => ofInst w.entry.inst))
      ++ (match e.2.resv with | some r => [ofInst r.1.inst] | none => []) ++ e.2.issues.map (fun x => x.2.ctx))
  let held := (c.de.due ++ c.de.hold ++ c.de.coord).map (fun r => ofInst r.inst)
  let mixes := (c.isr.insts.filter (fun e =>
    e.2.mslots.any (fun m => m.2.task.isSome && decide (m.2.released < m.2.n)))).map (fun e => e.2.ctx)
  (rd ++ held ++ mixes).dedup

/-- Contexts at work marked active (11, R575). -/
def markActive (c : Core) : Core := (busyCtxs c).foldl (fun c x => modSched c x (fun y => { y with active := true })) c

/-- A context shares in the period (11, R576). -/
def shares (c : Core) (x : Nat) : Bool := (getSched c x).active && decide (0 < (getSched c x).weight)

/-- ENG_TIME of a context over the period (11, R576; 06, R311). -/
def usedTime (c : Core) (x : Nat) : Nat := ((getCtx c x).engTime - (getSched c x).snap).toNat

/-- The deficit of a context after a period (11, R576, R577). -/
def newDeficit (c : Core) (total wsum cap : Nat) (x : Nat) : Int :=
  let y := getSched c x
  if !shares c x then 0
  else
    let d := y.def_ + Int.ofNat (total * y.weight / wsum) - Int.ofNat (usedTime c x)
    max (-Int.ofNat cap) (min (Int.ofNat cap) d)

/-- Key of the rank order: deficit descending, then the rotation (11, R578). -/
def rankKey (c : Core) (rot : Nat) (part : Nat → Bool) (x : Nat) : Nat :=
  let turn := (x + 256 - rot) % 256
  if part x then (2 ^ 66 - ((getSched c x).def_ + 2 ^ 65).toNat) * 256 + turn else 2 ^ 80 + turn

/-- Predictions revised at a period's end (11, R585, R586). -/
def revise585 (c : Core) (i : Nat) : Core :=
  let x := getInst c i
  match x.predict with
  | none => c
  | some p =>
    if x.st ≠ .running ∨ x.deadline.isNone ∨ x.crit = 0 then c
    else
      let t := now c + w64 (x.crit * x.slowF * x.left / (256 * x.tasks))
      latePredict (modInst c i (fun x => { x with predict := some (if geW t p then t else p) })) i

/-- The end of an accounting period (11, R576-R581, R585). -/
def periodEnd (c : Core) : Core :=
  let all := List.range 256
  let sh := all.filter (shares c)
  let total := (sh.map (usedTime c)).sum
  let wsum := (sh.map (fun x => (getSched c x).weight)).sum
  let cap := max 1 (regSchedDefCapPeriods c) * total
  let on := regSchedCtrlShareEn c
  let defs := all.map (fun x => if on then newDeficit c total wsum cap x else (getSched c x).def_)
  let part := shares c
  let rot := (c.sched.rot + 1) % 256
  let c := (all.zip defs).foldl (fun c (e : Nat × Int) =>
    modSched c e.1 (fun y => { y with def_ := e.2, snap := (getCtx c e.1).engTime, active := false })) c
  let order := sortBy (rankKey c rot part) all
  let c := (order.zip all).foldl (fun c (e : Nat × Nat) => modSched c e.1 (fun y => { y with rank := e.2 })) c
  let c := all.foldl (fun c x => modSched c x (fun y => { y with weight := weightReg c x })) c
  let c := markActive { c with sched := { c.sched with rot := rot } }
  let c := (c.isr.insts.map (·.1)).foldl revise585 c
  cntAdd c pgSched 0x150 1

/-- ACCOUNTING_PERIOD: the alarm of a period's end fires, and the next one is armed (11, R574, R576, R857). -/
def execAccountingPeriod (s : State) : Host.Outcome State Fault Refusal :=
  mission (fun c =>
    match alarmFire c 4 0 with
    | none => c
    | some (a, c) => armPeriod (periodEnd c) 4 (regSchedPeriodUs c) a.at_) s

end Sys2Proof.Machine
end

