-- ==== Sys2Proof/Machine/Pick.lean ====
section
/-! DEFINITION. A lane's pick: the candidates, the engine or the run of arrays that the choice falls on, and the picks that
wait for a gated engine (08, R436, R439; 11, R571; 02, R847; 15, R769). -/

namespace Sys2Proof.Machine

/-- What a lane's choice falls on: one engine, or a run of arrays from a position (08, R436, R439). -/
inductive Place where
  | engine (e : Nat)
  | run (lo n : Nat)
  deriving DecidableEq, Repr

/-- The runs of so many arrays of a lane that may be reserved, by first position (08, R433, R439). -/
def gangRuns (c : Core) (k n : Nat) : List Nat :=
  below (65 - n) (fun lo => (List.range n).all (fun j => engOk c (64 * k + lo + j) && !engReserved c (64 * k + lo + j)))

/-- Arrays of a run that hold no issue (08, R439). -/
def idleIn (c : Core) (k lo n : Nat) : Nat := ((List.range n).filter (fun j => engOpens c (64 * k + lo + j) == 0)).length

/-- The run that a gang reserves: the one with the most idle arrays, in Reproducible Mode the lowest run of arrays that count
as PRESENT (08, R439; 15, R769). -/
def chooseRun (c : Core) (k n : Nat) : Option Nat :=
  if regDetCtrlRepro c then
    let fits := below (65 - n) (fun lo => (List.range n).all (fun j => engOk c (64 * k + lo + j)))
    match fits.head? with
    | some lo => if (gangRuns c k n).contains lo then some lo else none
    | none => none
  else argmin (fun lo => (64 - idleIn c k lo n) * 64 + lo) (gangRuns c k n)

/-- Where a ready entry may go now on a lane, if anywhere (08, R436, R439, R681; 15, R769). -/
def entryPlace (c : Core) (k : Nat) (e : Ready) : Option Place :=
  let r := taskRec c e.inst e.task
  if (freeId c (busOf k (rcClass r))).isNone then none
  else if rcClass r = 1 ∧ 1 < rcGang r then
    if (getLane c k).resv.isSome then none else (chooseRun c k (rcGang r)).map (fun lo => .run lo (rcGang r))
  else (chooseEngine c k e.inst e.task e.copy).map .engine

/-- A ready entry may be chosen but for its engine and its patch block: its instance runs, and its queue is in no preemption
phase (11, R571). -/
def entryFree (c : Core) (e : Ready) : Bool := (getInst c e.inst).st == .running && !inPhase c (getInst c e.inst).q

/-- Candidates of a lane with their places (11, R571). -/
def candidates (c : Core) (k : Nat) : List (Ready × Place) :=
  (getLane c k).ready.filterMap (fun e =>
    if entryFree c e && patchIn c e.inst then (entryPlace c k e).map (fun p => (e, p)) else none)

/-- The pick of a lane (11, R571). -/
def lanePick (c : Core) (k : Nat) : Option (Ready × Place) :=
  argmin (fun x => entryKey c (some k) x.1.inst x.1.task x.1.order) (candidates c k)

/-- The patch blocks that ready entries of a lane lack are asked for (01, R28). -/
def askPatches (c : Core) (k : Nat) : Core :=
  (getLane c k).ready.foldl (fun c e => if entryFree c e && !patchIn c e.inst then patchFetch c e.inst else c) c

/-- An entry's first copy taken from a lane's ready queue. -/
def takeFirst (c : Core) (k : Nat) (e : Ready) : Core :=
  modLane c k (fun l => { l with ready := l.ready.flatMap (fun x => if x = e then restCopies x else [x]) })

/-- An entry returned to a lane's ready queue, at its place in order (11, R608). -/
def giveBack (c : Core) (k : Nat) (e : Ready) : Core :=
  modLane c k (fun l => { l with ready := insBy (fun x => x.order * 2 ^ 16 + x.copy) e l.ready })

end Sys2Proof.Machine
end

