-- ==== Sys2Proof/Machine/Streams.lean ====
section
/-! DEFINITION. Streams: arming, the check of the Stream Table entry, transfers and the end of an arm (13, R684-R699). -/

namespace Sys2Proof.Machine

/-! ## Arming (13, R684-R689) -/

/-- A fault of a stream on its arming queue (13, R699). -/
def strmFault (c : Core) (a : Arm) (code : Nat) : Core := queueFault c a.q 8 code a.pc a.sid none

/-- Table epoch that an arm binds: that of the program's current instance, else the die's (13, R702). -/
def armEpoch (c : Core) (sq : Nat) : Reg :=
  match curInst c sq with
  | some i => if (getInst c i).bound then (getInst c i).epoch else c.tbl.epoch
  | none => c.tbl.epoch

/-- Stream slots in use (13, Table 13.8 STRM_STAT.SLOTS). -/
def slotsUsed (c : Core) : Nat := (c.strm.slots.filter (fun e => e.2.st != .idle)).length

/-- An arm becomes pending, in place of one that is pending (13, R688). -/
def armPending (c : Core) (n : Nat) (a : Arm) : Core :=
  let held := (getStream c n).pend.isSome
  let c := modStream c n (fun x => { x with pend := some a })
  if held then
    let c := irqSet (cntAdd c pgStrm 0x160 1) pgStrm 2
    { c with strm := { c.strm with overrunLast := r32 n } }
  else c

/-- An arm takes a slot and reads its entry (13, R685). -/
def armLoads (c : Core) (n : Nat) (a : Arm) : Core :=
  let c := modStream c n (fun _ => { st := .loading, cur := a })
  mpRead c (regStrmBase c + 64 * n) 0 64 (.strmEntry n a.gen.toNat)

/-- STREAM_ARM (07, R375, R376; 13, R684, R685, R688, R689). -/
def opStreamArm (sq : Nat) (c : Core) (q : Nat) (w _w1 : Word) : Core :=
  let n := wf w 32 16
  let a : Arm :=
    { gen := c.strm.armSeq, q := q, pc := (getSq c sq).pc, sid := (getQ c q).cur.getD 0, ctx := (getQ c q).ctx
      epoch := armEpoch c sq }
  let x := getStream c n
  if x.st ≠ .idle ∧ x.cur.ctx ≠ a.ctx then strmFault c a 7
  else if x.st = .idle ∧ 512 ≤ slotsUsed c then strmFault c a 6
  else
    let c := cntAdd { c with strm := { c.strm with armSeq := c.strm.armSeq + 1 } } pgStrm 0x150 1
    let c := if x.st = .idle then armLoads c n a else armPending c n a
    moveOn (if wbit w 54 then setSreg c sq (wf w 50 4) a.gen else c) sq

/-- STREAM_ARM. -/
def execStreamArm (sq : Fin 32) (s : State) : Host.Outcome State Fault Refusal :=
  mission (sqBegin sq.val (· == 0x42) (opStreamArm sq.val)) s

/-! ## The check of the entry (13, R686, R687, R695) -/

/-- An object is a LIVE COUNTER that a context may use (13, R686). -/
def counterOk (c : Core) (x h : Nat) : Bool :=
  let o := getObj c h
  o.st == .live && o.ty == .counter && accessOk c o.access o.owner x

/-- The first failed check of an entry (13, R686, Table 13.4). -/
def entryFault (c : Core) (a : Arm) (st : QStatus) (w : List Word) : Option Nat :=
  let objs := steDone w :: (if steReadyEn w then [steReady w] else []) ++ (List.range (steRcv w)).map (steCredit w + ·)
  if st ≠ .ok then some 3
  else if !steFieldsOk w then some 1
  else if !inCarve c a.ctx (steSrc w) (steLen w) then some 4
  else if (getEng c (0x1080 + steLane w)).status ≠ .present ∨ lanesOn c ≤ steLane w then some 5
  else if !objs.all (counterOk c a.ctx) then some 2
  else none

/-- An arm whose entry has passed becomes active (13, R687, R695). -/
def armActive (c : Core) (n : Nat) (w : List Word) : Core :=
  let a := { (getStream c n).cur with
    entry := w.take 8
    bases := (List.range (steRcv w)).map (fun r => (getObj c (steCredit w + r)).value)
    readyBase := if steReadyEn w then (getObj c (steReady w)).value else 0 }
  modStream c n (fun x => { x with
    st := .active, cur := a, sent := 0, pcount := 0, ccount := 0, attached := BitVec.ofNat 8 (2 ^ steRcv w - 1)
    detached := [], redo := [] })

/-- Generation of the oldest entry read of a stream that is open. -/
def strmReadGen (c : Core) (n : Nat) : Option Nat :=
  c.io.reqs.findSome? (fun (r : Req) => match r.tag with
    | .strmEntry m g => if m = n then some g else none
    | _ => none)

/-- STREAM_ENTRY_CHECK: the read of an entry returns and is checked (13, R686, R687, R699). -/
def execStreamEntryCheck (stream : BitVec 16) (st : QStatus) (data : List Word) (s : State) :
    Host.Outcome State Fault Refusal :=
  mission (fun c =>
    let n := stream.toNat
    match strmReadGen c n with
    | none => c
    | some g =>
      match takeReq c (.strmEntry n g) with
      | none => c
      | some (r, c) =>
        let c := notePoison c st (pageTy pgStrm) r.addr
        let x := getStream c n
        if x.st ≠ .loading ∨ x.cur.gen.toNat ≠ g then c
        else
          match entryFault c x.cur st data with
          | some code => strmFault (strmNext c n) x.cur code
          | none => armActive c n data) s

/-! ## Transfers (13, R691-R697) -/

/-- Open transfers of a stream on a path: 0 is the multicast path, 1 + r that of a detached receiver. -/
def pathOpens (c : Core) (n path : Nat) : Nat := (issuesWhere c (fun x => issueOfStream n x && x.copy == path)).length

/-- Receivers of a path. -/
def pathRcv (x : Stream) (path : Nat) : List Nat := if path = 0 then onCast x else [path - 1]

/-- Offset at which a path goes on. -/
def pathAt (x : Stream) (path : Nat) : Nat := if path = 0 then x.sent else tget x.detached 0 (path - 1)

/-- The conditions of R691 on a transfer of a path at an offset (13, R691, R697; 09, R486). -/
def xferMay (c : Core) (n path off : Nat) : Bool :=
  let x := getStream c n
  let a := x.cur
  let w := a.entry
  let top := off + steXfer w
  x.st == .active && mayStart c && !inPhase c a.q
    && decide (pathOpens c n path < (if path = 0 then steMax w else 2))
    && decide ((issuesWhere c (issueStream a.q)).length < regStrmQXferLimit c)
    && (!steReadyEn w || geW ((getObj c (steReady w)).value - a.readyBase) (w64 top))
    && (pathRcv x path).all (fun r => decide (top ≤ steWindow w + released c a r))
    && (!steUpdate w || c.tbl.shadow == .opened)

/-- The transfer that a stream may issue next: one to be issued again, then the multicast path, then the detached ones
(13, R691, R694, R697). -/
def xferNext (c : Core) (n : Nat) : Option (Nat × Nat × Bool) :=
  let x := getStream c n
  match x.redo.find? (fun p => xferMay c n p.1 p.2) with
  | some p => some (p.1, p.2, true)
  | none =>
    let paths := 0 :: x.detached.map (fun e => e.1 + 1)
    (paths.find? (fun p => decide (pathAt x p < steLen x.cur.entry) && xferMay c n p (pathAt x p))).map
      (fun p => (p, pathAt x p, false))

/-- A stream's lane has an opportunity for its transfer: the stream engine can take an issue, and no save or restore issue
comes first (13, R693). -/
def xferRoom (c : Core) (n : Nat) : Bool :=
  let k := steLane (getStream c n).cur.entry
  c.lanesUp && engRoom c k (0x1080 + k) && (freeId c k).isSome && (saveDue c k).isNone

/-- The arming queue's priority is at or above that of the lane's pick (13, R693). -/
def xferFirst (c : Core) (n : Nat) : Bool :=
  let a := (getStream c n).cur
  match lanePick c (steLane a.entry) with
  | some p => decide (eprio c a.q ≤ eprio c (getInst c p.1.inst).q)
  | none => true

/-- A transfer waits on this lane that goes before the lane's pick, and its engine does not still wake (13, R693; 02, R847). -/
def laneYields (c : Core) (k : Nat) : Bool :=
  let g := getEng c (0x1080 + k)
  !(g.cgAck && g.cgLow) && c.strm.slots.any (fun e =>
    decide (steLane e.2.cur.entry = k) && (xferNext c e.1).isSome && xferRoom c e.1 && xferFirst c e.1)

/-- A path's cursor rises by XFER (13, R691, R697). -/
def pathStep (x : Stream) (path off : Nat) (again : Bool) : Stream :=
  let n := steXfer x.cur.entry
  let x := { x with pcount := x.pcount + n }
  if again then { x with redo := x.redo.erase (path, off) }
  else if path = 0 then { x with sent := x.sent + n }
  else { x with detached := tput x.detached (path - 1) (off + n) }

/-- One transfer issued (13, R691, Table 13.2). -/
def xferIssue (c : Core) (n path off : Nat) (again : Bool) : Core :=
  let x := getStream c n
  let a := x.cur
  let k := steLane a.entry
  let y : Issue :=
    { kind := .stream n, lane := k, copy := path, repl := (ofBits (pathRcv x path)).toNat, eng := 0x1080 + k, cls := 3
      ctx := a.ctx, q := a.q, order := off }
  let g : IssueArgs :=
    { part := (getCtx c a.ctx).part, desc := (regStrmBase c + 64 * n) / 64, sel := rbit a.epoch 0, p0 := w64 off
      p1 := w64 (steXfer a.entry + wf a.gen 0 32 * 2 ^ 32) }
  let c := driveIssue c k y g
  cntAdd (modStream c n (fun x => pathStep x path off again)) pgStrm 0x158 1

/-- STREAM_TRANSFER: the next transfer of a stream goes to its engine, which is woken first if it is gated (13, R691, R693;
02, R847). -/
def execStreamTransfer (stream : BitVec 16) (s : State) : Host.Outcome State Fault Refusal :=
  mission (fun c =>
    let n := stream.toNat
    match xferNext c n with
    | none => c
    | some p =>
      let e := 0x1080 + steLane (getStream c n).cur.entry
      if !xferRoom c n || !xferFirst c n then c
      else if gated c e then wakeEng c e
      else xferIssue c n p.1 p.2.1 p.2.2) s

/-! ## The end of transfers and arms (13, R690, R694, R698, R704) -/

/-- A transfer of an UPDATE stream is open. -/
def updateOpen (c : Core) : Bool :=
  !(issuesWhere c (fun x => match x.kind with
    | .stream n => steUpdate (getStream c n).cur.entry
    | _ => false)).isEmpty

/-- A SEALING shadow is SEALED once no UPDATE transfer is open (13, Table 13.6). -/
def sealCheck (c : Core) : Core :=
  if c.tbl.shadow = .sealing ∧ updateOpen c = false then { c with tbl := { c.tbl with shadow := .sealed } } else c

/-- A transfer has closed (13, R690, R694, R695, R698). -/
def xferClosed (c : Core) (n : Nat) (x : Issue) (aborted : Bool) : Core :=
  let c := modStream c n (fun y => { y with
    ccount := y.ccount + steXfer y.cur.entry
    redo := if aborted && x.abort == some 4 && y.st == .active then y.redo ++ [(x.copy, x.order)] else y.redo })
  sealCheck (strmStopped c n)

/-- Every path of an arm has issued up to LENGTH, and every transfer of it has closed (13, R690, R697). -/
def armOver (c : Core) (n : Nat) : Bool :=
  let x := getStream c n
  let len := steLen x.cur.entry
  x.st == .active && decide (len ≤ x.sent) && x.detached.all (fun e => decide (len ≤ e.2)) && x.redo.isEmpty
    && (issuesWhere c (issueOfStream n)).isEmpty

/-- STREAM_ARM_END: DONE is signalled with the arm's generation, and the pending arm loads or the slot is free (13, R690). -/
def execStreamArmEnd (stream : BitVec 16) (s : State) : Host.Outcome State Fault Refusal :=
  mission (fun c =>
    let n := stream.toNat
    if armOver c n && mayStart c then
      let a := (getStream c n).cur
      let (id, c) := freeNat c
      strmNext (stOffer c (.signal (.crucible (id % 2 ^ 14)) (steDone a.entry) a.gen)) n
    else c) s

end Sys2Proof.Machine
end

