-- ==== Sys2Proof/Machine/Lanes.lean ====
section
/-! DEFINITION. Lanes at work: issues, gangs, steals, engines that wake and gate, completions and engine faults (02, R65-R81,
R847; 08, R434-R448; 16, R804, R805). -/

namespace Sys2Proof.Machine

/-! ## Gangs (02, R68-R70; 08, R439-R441) -/

/-- A gang tag that an engine could still hold unstarted, or that a reservation holds (02, R70). -/
def tagInUse (c : Core) (t : Nat) : Bool :=
  c.de.gangs.any (fun (g : Gang) => g.tag == t) || (!c.de.coordLanes.isEmpty && c.de.coordTag == t)
    || c.lanes.any (fun e => e.2.issues.any (fun x => x.2.gang == some t)
      || match e.2.resv with | some r => r.2.2.2 == t | none => false)

/-- The next gang tag, in rotation (02, R70). -/
def takeTag (c : Core) : Nat × Core :=
  let t := match (List.range 4096).find? (fun d => !tagInUse c ((c.de.tag + d) % 4096)) with
    | some d => (c.de.tag + d) % 4096
    | none => c.de.tag
  (t, { c with de := { c.de with tag := (t + 1) % 4096 } })

/-- A lane's pick, a gang of at most 64 arrays, reserves its run; gated arrays of it are woken (08, R439; 02, R847). -/
def reserveRun (c : Core) (k : Nat) (e : Ready) (lo n : Nat) : Core :=
  let p := takeTag (takeFirst c k e)
  wakeSpan (modLane p.2 k (fun l => { l with resv := some (firstCopy e, lo, n, p.1) })) (64 * k + lo) n

/-- The engines of a span hold no issue, run, and no pick waits for one of them. -/
def spanIdle (c : Core) (e n : Nat) : Bool :=
  (List.range n).all (fun j => !engHolds c (e + j) && !gated c (e + j) && !engWaits c (e + j))

/-- A task is issued, or its context is torn down where its record lies in a poisoned block (08, R441; 16, R797). -/
def issueOrTear (c : Core) (k : Nat) (e : Ready) (eng span : Nat) (gang : Option Nat) (rank : Nat) : Core :=
  if taskPoisoned c e.inst e.task then poisonTear c e.inst else issueTask c k e eng span gang rank

/-- The reserved run's gang is issued once all its arrays hold no issue (08, R439, R441). -/
def runIssue (c : Core) (k : Nat) : Option Core :=
  match (getLane c k).resv with
  | none => none
  | some (e, lo, n, t) =>
    if !spanIdle c (64 * k + lo) n || !entryFree c e || (freeId c k).isNone then none
    else if !patchIn c e.inst then some (patchFetch c e.inst)
    else
      let c := modLane c k (fun l => { l with resv := none })
      let g : Gang := { tag := t, inst := e.inst, task := e.task, copy := e.copy, lanes := [k], order := e.order }
      some (issueOrTear { c with de := { c.de with gangs := c.de.gangs ++ [g] } } k e (64 * k + lo) n (some t) 0)

/-- The whole lanes that the coordinator reserves for a gang: those with the fewest open issues, in Reproducible Mode the
lowest (08, R440; 15, R769). -/
def coordChoice (c : Core) (e : Ready) : List Nat :=
  let key (k : Nat) : Nat := if regDetCtrlRepro c then k else (getLane c k).issues.length * 64 + k
  (sortBy key (placeable c e.inst e.task)).take (rcGang (taskRec c e.inst e.task) / 64)

/-- The coordinator reserves lanes for its first gang; a gang that no lanes can place any more faults (08, R433, R440). -/
def coordReserve (c : Core) (e : Ready) : Core :=
  let l := coordChoice c e
  if l.length < rcGang (taskRec c e.inst e.task) / 64 then instFault c e.inst 4 2 e.task
  else
    let p := takeTag c
    let c := { p.2 with de := { p.2.de with coordLanes := l, coordTag := p.1 } }
    l.foldl (fun c k => wakeSpan c (64 * k) 64) c

/-- The coordinator's first gang may be issued (08, R440). -/
def coordIdle (c : Core) (e : Ready) : Bool :=
  entryFree c e && c.de.coordLanes.all (fun k => spanIdle c (64 * k) 64 && (getLane c k).resv.isNone)

/-- The coordinator's first gang goes to its lanes, which issue one beat each (08, R440, R441). -/
def coordStart (c : Core) (e : Ready) : Core :=
  let l := sortBy id c.de.coordLanes
  let g : Gang :=
    { tag := c.de.coordTag, inst := e.inst, task := e.task, copy := e.copy, lanes := l, left := l, order := e.order }
  { c with de := { c.de with gangs := c.de.gangs ++ [g], coord := c.de.coord.drop 1, coordLanes := [] } }

/-- The gang coordinator's next action, if it has one (08, R440; 01, R28). -/
def coordStep (c : Core) : Option Core :=
  match c.de.coord with
  | [] => none
  | e :: _ =>
    if c.de.coordLanes.isEmpty then some (coordReserve c e)
    else if !coordIdle c e then none
    else if !patchIn c e.inst then (if c.isr.loading.contains e.inst then none else some (patchFetch c e.inst))
    else some (coordStart c e)

/-- A lane's beat of a gang of whole lanes (08, R441; 02, R67). -/
def gangBeat (c : Core) (k : Nat) : Option Core :=
  match c.de.gangs.find? (fun (g : Gang) => g.left.contains k) with
  | none => none
  | some g =>
    if (freeId c k).isNone then none
    else if !patchIn c g.inst then some (patchFetch c g.inst)
    else
      let c := { c with de := { c.de with gangs := c.de.gangs.map (fun (x : Gang) =>
        if x.tag = g.tag then { x with left := x.left.erase k } else x) } }
      let e : Ready := { inst := g.inst, task := g.task, copy := g.copy, order := g.order }
      some (issueOrTear c k e (64 * k) 64 (some g.tag) (64 * g.lanes.idxOf k))

/-- GANG_GO: go_valid is pulsed on all lanes of a gang whose beats have transferred (02, R68). -/
def execGangGo (s : State) : Host.Outcome State Fault Refusal :=
  mission (fun c =>
    match c.de.gangs.find? (fun (g : Gang) => g.left.isEmpty && !g.gone) with
    | none => c
    | some g =>
      emit { c with de := { c.de with gangs := c.de.gangs.map (fun (x : Gang) =>
        if x.tag = g.tag then { x with gone := true } else x) } } (.go g.lanes g.tag)) s

/-! ## Waking and gating (02, R77-R81, R847) -/

/-- Engine ID of a position of a lane's own picks: an odd lane's link issues go to the engine of its pair (02, Table 2.7). -/
def posEngine (k pos : Nat) : Nat :=
  if pos < 64 then 64 * k + pos else if pos < 66 then 0x1000 + 2 * k + (pos - 64)
  else if pos = 66 then 0x1080 + k else 0x10C0 + k / 2

/-- A pick that waited for its engine is issued once the engine runs (02, R847). -/
def wakeIssue (c : Core) (k : Nat) : Option Core :=
  let bus (w : Wake) : Nat := if w.eng = 67 then k - k % 2 else k
  match (getLane c k).wakes.find? (fun w =>
    !gated c (posEngine k w.eng) && entryFree c w.entry && (freeId c (bus w)).isSome) with
  | none => none
  | some w =>
    if !patchIn c w.entry.inst then (if c.isr.loading.contains w.entry.inst then none else some (patchFetch c w.entry.inst))
    else
      let c := modLane c k (fun l => { l with wakes := l.wakes.erase w })
      some (issueOrTear c k w.entry (posEngine k w.eng) 1 none 0)

/-- The picks of a lane, or of a pair of lanes, that waited for a position are issued. -/
def wakeDrive (c : Core) (k pos : Nat) : Core :=
  (if pos = 67 then [k, k + 1] else [k]).foldl (fun c k => (wakeIssue c k).getD c) c

/-- ENGINE_WAKE: cg_ack falls after cg_req has, and the waiting issue is driven (02, R79, R847). -/
def execEngineWake (lane : Fin 64) (pos : Fin 68) (s : State) : Host.Outcome State Fault Refusal :=
  mission (fun c =>
    match engAt lane.val pos.val with
    | none => c
    | some e =>
      if (getEng c e).cgAck && (getEng c e).cgLow then
        let c := modEng c e (fun x => { x with cgAck := false })
        if mayStart c then wakeDrive c lane.val pos.val else c
      else c) s

/-- cg_req of a position is high: the fuse bank's value until stage 4 releases the lane, the lane's own from then on
(02, Table 2.8; 03, Tables 3.5, 3.6). -/
def reqHigh (c : Core) (e pos : Nat) : Bool :=
  if c.lanesUp then !(getEng c e).cgLow
  else c.bring.bank.getLsbD (if pos < 64 then 0 else if pos < 66 then 1 else if pos = 66 then 2 else 3)

/-- CG_ACK_RISE: an engine whose cg_req is high and that holds nothing stops its clock (02, R78). -/
def execCgAckRise (lane : Fin 64) (pos : Fin 68) (s : State) : Host.Outcome State Fault Refusal :=
  mission (fun c =>
    match engAt lane.val pos.val with
    | none => c
    | some e =>
      if reqHigh c e pos.val && !engHolds c e then modEng c e (fun x => { x with cgAck := true }) else c) s

/-! ## Demands of waiting array entries (11, R605) -/

/-- An array entry of a lane waits with no allowed lane able to issue it (11, R605). -/
def entryStarved (c : Core) (e : Ready) : Bool :=
  rcClass (taskRec c e.inst e.task) == 1
    && (allowed c e.inst e.task).all (fun k => !(engsOf k 1).any (engRoom c k))

/-- An open array issue of a queue lies on a lane that an entry allows, and the entry's queue has the higher priority
(11, R605). -/
def entryPresses (c : Core) (e : Ready) (v : Nat) : Bool :=
  decide (eprio c (getInst c e.inst).q < eprio c v)
    && (allowed c e.inst e.task).any (fun k => (getLane c k).issues.any (fun x =>
      x.2.kind == .task && x.2.cls == 1 && x.2.q == v))

/-- A starved entry still presses on a queue (11, R605). -/
def demandStands (c : Core) (v : Nat) : Bool :=
  c.lanes.any (fun l => l.2.ready.any (fun e => entryPresses c e v && entryStarved c e))

/-- Demands of waiting entries that no longer stand end (11, R605). -/
def demandSweep (c : Core) : Core :=
  (c.queues.filter (fun e => e.2.demand)).foldl (fun c e =>
    if demandStands c e.1 then c else modQ c e.1 (fun x => { x with demand := false })) c

/-- PREEMPT_WAIT_PASSED: starved array entries of a lane have waited PREEMPT_WAIT_US (11, R605, R616). -/
def execPreemptWaitPassed (lane : Fin 64) (s : State) : Host.Outcome State Fault Refusal :=
  mission (fun c =>
    let l := (getLane c lane.val).ready.filter (entryStarved c)
    let v := (c.queues.filter (fun e =>
      (e.2.st == .running || e.2.st == .blocked) && l.any (fun r => entryPresses c r e.1))).map (·.1)
    v.foldl (fun c q => lateSave (modQ c q (fun x => { x with demand := true })) (getQ c q).sq) c) s

/-! ## The issue opportunity of a lane (08, R436, R439; 11, R571) -/

/-- The pick is issued, waits for its gated engine, or reserves its run (08, R436, R439; 02, R847). -/
def pickIssue (c : Core) (k : Nat) (e : Ready) : Place → Core
  | .run lo n => reserveRun c k e lo n
  | .engine g =>
    let c := takeFirst c k e
    if gated c g then
      let w : Wake := { eng := (engPlace g).2, entry := firstCopy e }
      wakeEng (modLane c k (fun l => { l with wakes := l.wakes ++ [w] })) g
    else issueOrTear c k (firstCopy e) g 1 none 0

/-- A save or restore issue that has its turn on a lane, unless its engine still wakes (11, Table 11.7; 13, R693). -/
def saveTurn (c : Core) (k : Nat) : Option Core :=
  let g := getEng c (0x1080 + k)
  match saveDue c k with
  | some q => if engRoom c k (0x1080 + k) && (freeId c k).isSome && !(g.cgAck && g.cgLow) then some (issueSaveOn c q k) else none
  | none => none

/-- A lane's issue opportunity: a save or restore issue first, then what has been chosen before and waits, then the pick
(08, R436-R441; 11, R571; 13, R693).  A stream transfer that goes first is STREAM_TRANSFER's. -/
def laneIssue (c : Core) (k : Nat) : Core :=
  match saveTurn c k with
  | some d => d
  | none =>
    if laneYields c k then c
    else
      let c := askPatches c k
      let pick := match lanePick c k with
        | some p => pickIssue c k p.1 p.2
        | none => c
      ((wakeIssue c k).orElse (fun _ => (gangBeat c k).orElse (fun _ => (runIssue c k).orElse (fun _ => coordStep c)))).getD pick

/-- LANE_ISSUE (08, R436-R441; 11, R571). -/
def execLaneIssue (lane : Fin 64) (s : State) : Host.Outcome State Fault Refusal :=
  mission (fun c =>
    if mayStart c && c.lanesUp && decide (lane.val < lanesOn c) then demandSweep (laneIssue c lane.val) else c) s

/-! ## Steals (08, R437, R438) -/

/-- The lanes that a thief tries, in order (08, R437). -/
def stealOrder (k nl : Nat) : List Nat :=
  let far := (List.range (nl / 2 + 1 - 3)).flatMap (fun j =>
    let d := j + 3
    if d ≠ nl - d then [d, nl - d] else [d])
  ([1, nl - 1, 2, nl - 2] ++ far).map (fun d => (k + d) % nl)

/-- offer() of R437 (08, R437; 11, R573). -/
def stealOffer (c : Core) (v k : Nat) : Option Ready :=
  argmin (fun e => entryKey c (some v) e.inst e.task e.order) ((getLane c v).ready.filter (fun e =>
    entryFree c e && (placeable c e.inst e.task).contains k
      && (engsOf k (rcClass (taskRec c e.inst e.task))).any (engRoom c k)))

/-- The victim and the entry of a lane's steal (08, R437). -/
def stealFind (c : Core) (k : Nat) : Option (Nat × Ready) :=
  if regDetCtrlRepro c || !regDlCfgStealEn c k || !(candidates c k).isEmpty || decide (256 ≤ readyLen (getLane c k)) then none
  else (stealOrder k (lanesOn c)).findSome? (fun v =>
    if regDlCfgStealEn c v && v != k then (stealOffer c v k).map (fun e => (v, e)) else none)

/-- The part of an entry that moves, and what stays: of a run of copies the upper half moves (08, R437). -/
def stealSplit (e : Ready) : Ready × List Ready :=
  if e.runm1 = 0 then (e, [])
  else
    let n := (e.runm1 + 2) / 2
    let stay := e.runm1 + 1 - n
    ({ e with copy := e.copy + stay, runm1 := n - 1 }, [{ e with runm1 := stay - 1 }])

/-- STEAL: an idle lane takes an entry of another one (08, R437, R438; 11, R573; 17, Tables 17.1, 17.3). -/
def execSteal (lane : Fin 64) (s : State) : Host.Outcome State Fault Refusal :=
  mission (fun c =>
    let k := lane.val
    if !(mayStart c && c.lanesUp && decide (k < lanesOn c)) then c
    else
      match stealFind c k with
      | none => c
      | some (v, e) =>
        let p := stealSplit e
        let c := modLane c v (fun l => { l with ready := l.ready.flatMap (fun x => if x = e then p.2 else [x]) })
        let c := modLane c k (fun l => { l with ready := l.ready ++ [p.1] })
        let c := cntAdd (cntAdd c (pgDl k) 0x118 1) (pgDl v) 0x120 1
        let o : Owner := { ownQ c (getInst c e.inst).q with lane := some k }
        demandSweep (trace (pmuEv c 0x041 1 o) 0x09 o e.inst e.task 0 (0x100 * v + k))) s

/-! ## Engine faults (16, R804, R805) -/

/-- The reservations that hold an engine are dropped, and picks that wait for it return to the ready queue (16, R805). -/
def dropPlaces (c : Core) (e : Nat) : Core :=
  let p := engPlace e
  let c := match (getLane c p.1).resv with
    | some (r, lo, n, _) =>
      if e < 0x1000 ∧ lo ≤ p.2 ∧ p.2 < lo + n then giveBack (modLane c p.1 (fun l => { l with resv := none })) p.1 r else c
    | none => c
  let c := if e < 0x1000 ∧ c.de.coordLanes.contains p.1 then { c with de := { c.de with coordLanes := [] } } else c
  (if p.2 = 67 then [p.1, p.1 + 1] else [p.1]).foldl (fun c k =>
    ((getLane c k).wakes.filter (fun w => w.eng == p.2)).foldl (fun c w =>
      giveBack (modLane c k (fun l => { l with wakes := l.wakes.erase w })) k w.entry) c) c

/-- A ready entry that is left with no lane faults its queue (16, R805; 08, R432, R433). -/
def recheckEntry (c : Core) (e : Ready) : Core :=
  if (getInst c e.inst).st ≠ .running then c
  else if (allowed c e.inst e.task).isEmpty then instFault c e.inst 4 1 e.task
  else if (placeable c e.inst e.task).isEmpty then instFault c e.inst 4 2 e.task
  else c

/-- An engine is masked, and every lane checks its entries (16, R804, R805). -/
def maskEngine (c : Core) (e : Nat) : Core :=
  let c := modEng c e (fun x => { x with masked := true })
  let c := restEng (dropPlaces (logErr c { kind := 9, eng := e }) e) e
  (c.lanes.flatMap (fun l => l.2.ready)).foldl recheckEntry c

/-- An issue that closes with FAULT or an unexpected ABORTED: the engine named, the code of Table 16.6 (16, R804, R807; 08,
R445). -/
def engFault (c : Core) (x : Issue) (e code : Nat) : Core :=
  let task := x.kind == .task
  let c := irqSet (cntAdd c pgRas 0x128 1) pgRas 3
  let n := sat ((getEng c e).faults + 1) 0xFFFF
  let c := modEng c e (fun y => { y with faults := n })
  let log : ErrRec :=
    { kind := 4 + code, contained := true, owner := some (x.ctx, if task then x.inst else 0), queue := some x.q, eng := e
      task := if task then x.task else 0, info := x.info.toNat }
  let qf := match x.kind with
    | .task => some (x.q, (getInst c x.inst).sid, code, x.task)
    | .stream _ => none
    | _ => some (x.q, (getQ c x.q).cur.getD 0, code, 0)
  let c := if (getCtx c x.ctx).st = .live then modCtx c x.ctx (fun k => { k with faultEng := e }) else c
  let c := if task then (instAbort c x.inst none).1 else c
  let c := contain c { ctx := x.ctx, cause := 3, log := some (errWordsAt c log), qf := qf }
  let lim := regRasCfgEngLimit c
  if lim ≠ 0 ∧ lim ≤ n ∧ (getEng c e).masked = false then maskEngine c e else c

/-! ## Completions (08, R442-R446) -/

/-- Status of a closed issue or of a gang from the statuses of its parts: OK 0, NULL 1, ABORTED 2, FAULT 3 (08, R443). -/
def joinStatus (l : List Nat) : Nat :=
  if l.any (fun n => decide (3 ≤ n)) then 3
  else if l.contains 2 then 2
  else if l.all (· == 1) then 1 else 0

/-- A copy that was aborted for preemption or quiescing returns to its lane, or to the coordinator (11, R608; 03, R848). -/
def returnCopy (c : Core) (x : Issue) : Core :=
  let e : Ready := { inst := x.inst, task := x.task, copy := x.copy, order := x.order }
  if rcClass (taskRec c x.inst x.task) = 1 ∧ 64 < rcGang (taskRec c x.inst x.task) then
    let key (r : Ready) : Nat := r.order * 2 ^ 16 + r.copy
    let l := if c.de.coordLanes.isEmpty then insBy key e c.de.coord
      else match c.de.coord with | h :: t => h :: insBy key e t | [] => [e]
    { c with de := { c.de with coord := l } }
  else giveBack c x.lane e

/-- A closed issue of a gang joins the others: the status and sum of the gang once all are closed (08, R443; 15, R778). -/
def gangClosed (c : Core) (x : Issue) (t st : Nat) : Option (Nat × Word) × Core :=
  match c.de.gangs.find? (fun (g : Gang) => g.tag == t) with
  | none => (some (st, x.sum), c)
  | some g =>
    let g := { g with closed := g.closed ++ [st], sum := g.sum + x.sum }
    let g := if st = 2 then { g with left := [], gone := true } else g
    let left := !(issuesWhere c (fun y => y.gang == some t)).isEmpty
    if g.left.isEmpty && !left then
      (some (joinStatus g.closed, g.sum), { c with de := { c.de with gangs := c.de.gangs.filter (fun (y : Gang) => y.tag != t) } })
    else (none, { c with de := { c.de with gangs := c.de.gangs.map (fun (y : Gang) => if y.tag = t then g else y) } })

/-- A task or copy has ended on all its engines (08, R419, R446; 11, R608; 16, Table 16.5). -/
def taskEnded (c : Core) (x : Issue) (st : Nat) (sum : Word) : Core :=
  if (getInst c x.inst).st = .aborting then c
  else if st = 2 then returnCopy c x
  else cruTake c { lane := some x.lane, inst := x.inst, task := x.task, copy := x.copy, null := st == 1, sum := sum }

/-- A closed issue of a task (08, R443-R446, R608; 16, R804, Table 16.5). -/
def taskClosed (c : Core) (x : Issue) (st eng code : Nat) : Core :=
  let c := modInst c x.inst (fun y => { y with openN := y.openN - 1 })
  let c := if (getCtx c x.ctx).st ≠ .live then cntAdd c pgRas 0x140 1 else c
  let p := match x.gang with
    | some t => gangClosed c x t st
    | none => (some (st, x.sum), c)
  let c := p.2
  if st = 3 then (if (getInst c x.inst).st = .aborting then c else engFault c x eng code)
  else match p.1 with
    | none => c
    | some r => taskEnded c x r.1 r.2

/-- A closed save or restore issue (11, Table 11.8, R613; 16, R804). -/
def saveClosed (c : Core) (x : Issue) (q st eng code : Nat) : Core :=
  if st = 3 then engFault c x eng code
  else
    let c := if st = 2 ∧ x.abort = some 4 ∧ (getPre c q).phase ≠ .none then modPre c q (fun p => { p with redo := true }) else c
    restoreAdvance (saveAdvance c q) q

/-- The first engine of a closed issue that failed, and the code of Table 16.6 (08, R443, R444; 16, Table 16.6). -/
def failedEngine (x : Issue) : Option (Nat × Nat) :=
  match x.got.find? (fun g => decide (3 ≤ g.2)) with
  | some g => some (g.1, 1)
  | none =>
    match x.got.find? (fun g => g.2 == 2) with
    | some g => if x.abort.isNone then some (g.1, 2) else none
    | none => none

/-- An issue closes: it leaves the issue table, and its end takes effect (08, R443-R446; 02, R847; 17, Tables 17.1, 17.3). -/
def issueClosed (c : Core) (bus id : Nat) (x : Issue) : Core :=
  let bad := failedEngine x
  let st := if bad.isSome then 3 else joinStatus (x.got.map (·.2))
  let c := modLane c bus (fun l => { l with issues := tdel l.issues id })
  let o : Owner := { ctx := some x.ctx, part := some (getCtx c x.ctx).part, q := some x.q, lane := some x.lane }
  let task := x.kind == .task
  let c := trace c 0x08 o (if task then x.inst else 0) (if task then x.copy else 0) x.sum (0x1000000 * st + x.eng) x.varies
  let c := restSpan c x.eng x.span
  let eng := match bad with | some b => b.1 | none => x.eng
  let code := match bad with | some b => b.2 | none => 0
  let c := match x.kind with
    | .task => saveAdvance (taskClosed c x st eng code) x.q
    | .stream n => if st = 3 then engFault (xferClosed c n x false) x eng code else xferClosed c n x (st == 2)
    | .save q => saveClosed c x q st eng code
    | .restore q => saveClosed c x q st eng code
  demandSweep (checkGuilty (pointTimer c x.q) x.q)

/-- ENGINE_ID of a completion (08, Table 8.13). -/
def cplEng (b : BitVec 128) : Nat := fld b.toNat 0 13

/-- ISSUE_ID of a completion. -/
def cplId (b : BitVec 128) : Nat := fld b.toNat 16 8

/-- STATUS of a completion. -/
def cplSt (b : BitVec 128) : Nat := fld b.toNat 24 4

/-- The open issue that a completion matches (08, R442). -/
def cplMatch (c : Core) (k : Nat) (b : BitVec 128) : Option Issue :=
  (tfind (getLane c k).issues (cplId b)).filter (fun x => issueOn (cplEng b) x && !x.got.any (fun g => g.1 == cplEng b))

/-- An issue with a completion added (08, R443, R444; 15, R778). -/
def cplJoin (x : Issue) (b : BitVec 128) : Issue :=
  let st := cplSt b
  let fails := decide (3 ≤ st) || (st == 2 && x.abort.isNone)
  let x := if fails && (failedEngine x).isNone then { x with info := r32 (fld b.toNat 32 32) } else x
  { x with got := x.got ++ [(cplEng b, st)], sum := x.sum + w64 (fld b.toNat 64 64) }

/-- The lane accepts a completion: the DE does, and the Crucible's input has room (02, R72; 08, R435; 10, R554; 16, R801). -/
def cplReady (c : Core) (k : Nat) (b : BitVec 128) : Bool :=
  c.lanesUp && deAccepts c && match cplMatch c k b with
    | some x => x.kind != .task || cruRoom c x.inst x.task
    | none => true

/-- A completion beat on a lane (08, R442-R446). -/
def laneCpl (c : Core) (k : Nat) (b : BitVec 128) : Core :=
  if !cplReady c k b then c
  else
    match cplMatch c k b with
    | none => pageErr (cntAdd c (pgDl k) 0x128 1) (pgDl k) 0x10 (cplEng b + cplId b * 2 ^ 16) 0
    | some x =>
      let y := cplJoin x b
      if y.got.length < y.span then
        modLane c k (fun l => { l with issues := tput l.issues (cplId b) y })
      else issueClosed c k (cplId b) y

/-- ENGINE_COMPLETION (02, R71, R72; 08, R419, R442-R446). -/
def execEngineCompletion (lane : Fin 64) (beat : BitVec 128) (s : State) : Host.Outcome State Fault Refusal :=
  mission (fun c => laneCpl c lane.val beat) s

/-- A completion closes its issue with FAULT or an unexpected ABORTED (08, R443, R444). -/
def cplFaults (c : Core) (k : Nat) (b : BitVec 128) : Bool :=
  match cplMatch c k b with
  | some x => let y := cplJoin x b; decide (y.span ≤ y.got.length) && (failedEngine y).isSome
  | none => false

/-- ENGINE_FAULT: a completion that closes its issue with FAULT or an unexpected ABORTED (08, R443-R445; 16, R804). -/
def execEngineFault (lane : Fin 64) (beat : BitVec 128) (s : State) : Host.Outcome State Fault Refusal :=
  mission (fun c => if cplFaults c lane.val beat then laneCpl c lane.val beat else c) s

/-! ## Hand-off and Canes (08, R424-R435) -/

/-- TASK_HANDOFF (08, R429, R432-R435; 16, R797). -/
def execTaskHandoff (s : State) : Host.Outcome State Fault Refusal :=
  mission (fun c =>
    let next := match c.de.hold with
      | e :: _ => some e
      | [] => c.de.due.head?
    match next with
    | some e => if taskPoisoned c e.inst e.task && !c.ras.hold then poisonTear c e.inst else demandSweep (handNext c)
    | none => c) s

/-- CANE_COUNT: a Cane's count is taken from its source (08, R424-R428). -/
def execCaneCount (inst : Fin 16384) (task : BitVec 16) (s : State) : Host.Outcome State Fault Refusal :=
  mission (fun c =>
    let i := inst.val
    let t := task.toNat
    if (getInst c i).st == .running && (getInst c i).waitCanes.contains t && !c.ras.hold then
      if taskPoisoned c i t then poisonTear c i else takeCane c i t
    else c) s

end Sys2Proof.Machine
end

