-- ==== Sys2Proof/Machine/Marver.lean ====
section
/-! DEFINITION. The Marver: histories cut into chunks, the release of chunk copies, bubbles, and the adaptation of phi (07, R374;
11, R595-R604). -/

namespace Sys2Proof.Machine

/-! ## MIX (07, R374, R376; 11, R595-R598) -/

/-- MIX (07, R374, R376, Table 7.2).  The manual gives no size of an event, so R376 is applied to the base address. -/
def opMix (sq : Nat) (c : Core) (q : Nat) (w _w1 : Word) : Core :=
  let n := (sreg c sq (wf w 49 4)).toNat
  let base := wf w 0 44 * 256
  match curInst c sq with
  | none => cmdFault c sq 8
  | some i =>
    if n = 0 ∨ 16777216 < n then cmdFault c sq 3
    else if !inCarve c (getQ c q).ctx base 1 then cmdFault c sq 0x0D
    else if 16 ≤ c.marv.reqs.length then stallAt c sq .enter
    else
      let r : MixReq :=
        { inst := i, serial := (getInst c i).serial, slot := wf w 53 2, len := n, chunk := wf w 45 4, base := base }
      moveOn { c with marv := { c.marv with reqs := c.marv.reqs ++ [r] } } sq

/-- MIX: begun at the head, or tried again once the Marver has room (07, R374, Table 7.2). -/
def execMix (sq : Fin 32) (s : State) : Host.Outcome State Fault Refusal :=
  mission (fun c =>
    if (getSq c sq.val).stall = .enter then admitAgain c sq.val 0x41 (opMix sq.val)
    else sqBegin sq.val (· == 0x41) (opMix sq.val) c) s

/-- The smallest power of two from 256 to 65,536 that is at least a number, as its exponent (11, R595). -/
def chunkLog (n : Nat) : Nat := ((List.range 9).find? (fun j => decide (n ≤ 2 ^ (8 + j)))).getD 8 + 8

/-- log2 of the events of a chunk (11, R595). -/
def mixLog (c : Core) (chunk len : Nat) : Nat :=
  if chunk ≠ 0 then chunk + 7
  else
    let t := max 1 (regMarvTargetChunks c)
    chunkLog ((len + t - 1) / t)

/-- A history placed in its mix slot and patch slots (11, R595, R596, Table 11.4). -/
def mixPlace (c : Core) (r : MixReq) : Core :=
  let lg := mixLog c r.chunk r.len
  let n := (r.len + 2 ^ lg - 1) / 2 ^ lg
  let c := patchPut (patchPut c r.inst (56 + 2 * r.slot) (w64 r.base)) r.inst (57 + 2 * r.slot)
    (w64 (n * 2 ^ 36 + (lg - 7) * 2 ^ 32 + r.len))
  let m : MSlot := { used := true, n := n, size := 2 ^ lg, events := r.len, base := r.base }
  cntAdd (modInst c r.inst (fun x => { x with mslots := tset x.mslots {} r.slot m })) pgMarv 0x130 1

/-- MIX_ACCEPT: the Marver takes its oldest MIX (11, R595, R596, R598; 01, R28). -/
def execMixAccept (s : State) : Host.Outcome State Fault Refusal :=
  mission (fun c =>
    match c.marv.reqs with
    | [] => c
    | r :: t =>
      let x := getInst c r.inst
      let rest := { c with marv := { c.marv with reqs := t } }
      if !mayStart c then c
      else if x.st = .free ∨ x.st = .aborting ∨ x.serial ≠ r.serial then rest
      else if (tget x.mslots {} r.slot).used then pageErr rest pgMarv 0x10 r.inst 0
      else if !patchIn c r.inst then patchFetch c r.inst
      else mixPlace rest r) s

/-! ## Release of chunk copies (11, R599, R604) -/

/-- A chunk copy of a mix is counted as released (11, R599; 17, event 0x090). -/
def chunkCount (c : Core) (i slot : Nat) : Core :=
  let c := modInst c i (fun x => { x with
    mslots := tmod x.mslots {} slot (fun (m : MSlot) => { m with released := m.released + 1, inflight := m.inflight + 1 }) })
  pmuEv (cntAdd c pgMarv 0x138 1) 0x090 1 (ownQ c (getInst c i).q)

/-- CHUNK_RELEASE: the next chunk copy of a mix is released (11, R599). -/
def execChunkRelease (inst : Fin 16384) (slot : Fin 4) (s : State) : Host.Outcome State Fault Refusal :=
  mission (fun c =>
    let i := inst.val
    let m := tget (getInst c i).mslots {} slot.val
    match m.task with
    | none => c
    | some t =>
      if !mayStart c || (getInst c i).st != .running || decide (m.n ≤ m.released)
        || decide (max 1 (regMarvInflight c) ≤ m.inflight) then c
      else
        let c := chunkCount c i slot.val
        { c with de := { c.de with due := c.de.due ++ [{ inst := i, task := t, copy := m.released }] } }) s

/-- Held chunk copies that a lane may take: instance, slot, task and copy (11, R604; 15, R769). -/
def bubbles (c : Core) (k : Nat) : List (Nat × Nat × Nat × Nat) :=
  c.isr.insts.flatMap (fun e =>
    if e.2.st != .running || inPhase c e.2.q then []
    else e.2.mslots.filterMap (fun m =>
      match m.2.task with
      | none => none
      | some t =>
        let lanes := placeable c e.1 t
        let fits := if regDetCtrlRepro c then reproHome c e.1 t m.2.released lanes == some k else lanes.contains k
        if m.2.released < m.2.n ∧ fits = true then some (e.1, m.1, t, m.2.released) else none))

/-- A lane has an array able to take an issue, no candidate, and nothing to steal (11, R604). -/
def laneIdle (c : Core) (k : Nat) : Bool :=
  (engsOf k 1).any (engRoom c k) && (candidates c k).isEmpty && (stealFind c k).isNone
    && decide (readyLen (getLane c k) < 256)

/-- BUBBLE_FILL: an idle lane is given one held chunk copy (11, R604). -/
def execBubbleFill (lane : Fin 64) (s : State) : Host.Outcome State Fault Refusal :=
  mission (fun c =>
    let k := lane.val
    if !(regMarvCtrlBubbleEn c && mayStart c && c.lanesUp && decide (k < lanesOn c) && c.de.hold.isEmpty && laneIdle c k) then c
    else
      match argmin (fun b => entryKey c none b.1 b.2.2.1 0) (bubbles c k) with
      | none => c
      | some (i, slot, t, n) =>
        cntAdd (putReady (chunkCount c i slot) k { inst := i, task := t, copy := n }) pgMarv 0x140 1) s

/-! ## Adaptation (11, R601-R603) -/

/-- Arrays that are PRESENT. -/
def arraysPresent (c : Core) : Nat := 4096 - (c.engs.filter (fun e => decide (e.1 < 0x1000) && e.2.status != .present)).length

/-- ua of the interval just ended; the counts start again (11, R601).  The manual gives no value where no array is PRESENT or
no tclk was counted. -/
def measureArrays (c : Core) : Core :=
  let d := arraysPresent c * c.marv.span
  let p := if d = 0 then freeNat c else (c.marv.busy * 100 / d, c)
  { p.2 with marv := { p.2.marv with ua := p.1, busy := 0, span := 0 } }

/-- uh from a utilisation record (11, R602). -/
def measureHbm (c : Core) (st : QStatus) (busy total : Word) : Core :=
  if st ≠ .ok then pageErr { c with marv := { c.marv with uh := 0 } } pgMarv 0x11 0 0
  else
    let a := regMarvHbmUtil c
    let uh := match c.marv.prev with
      | some (b, t) =>
        if c.marv.utilAddr = a ∧ t ≠ total ∧ geW total t = true then (busy - b).toNat * 100 / (total - t).toNat else 0
      | none => 0
    { c with marv := { c.marv with uh := uh, prev := some (busy, total), utilAddr := a } }

/-- phi set from ua and uh (11, R601, R603). -/
def adaptPhi (c : Core) : Core :=
  let m := c.marv
  let high := decide (regMarvUtilHighArray c ≤ m.ua)
  let hot := decide (regMarvUtilHighHbm c ≤ m.uh)
  let phi := if !regMarvCtrlAdaptEn c then regMarvPhiInit c
    else if high && !hot then min (m.phi + regMarvPhiStep c) (regMarvPhiLimMax c)
    else if hot && !high then max (m.phi - regMarvPhiStep c) (regMarvPhiLimMin c)
    else m.phi
  cntAdd { c with marv := { m with phi := phi, adapting := false } } pgMarv 0x148 1

/-- The adaptation alarm fires: the arrays are measured, and the utilisation record is read where there is one (11, R601,
R602, R857). -/
def adaptStart (c : Core) : Core :=
  if c.ras.hold then c
  else
    match alarmFire c 6 0 with
    | none => c
    | some (a, c) =>
      let c := measureArrays (armPeriod c 6 (regMarvAdaptUs c) a.at_)
      if regMarvHbmUtil c = 0 then adaptPhi { c with marv := { c.marv with uh := 0 } }
      else mpRead { c with marv := { c.marv with adapting := true } } (regMarvHbmUtil c) 0 256 .marvUtil

/-- MARVER_ADAPTATION: an interval ends, or the utilisation record that it waits for returns (11, R601-R603). -/
def execMarverAdaptation (st : QStatus) (busy total : Word) (s : State) : Host.Outcome State Fault Refusal :=
  mission (fun c =>
    match takeReq c .marvUtil with
    | some (r, c) => adaptPhi (measureHbm (notePoison c st (pageTy pgMarv) r.addr) st busy total)
    | none => adaptStart c) s

end Sys2Proof.Machine
end

