-- ==== Sys2Proof/Machine/Fe.lean ====
section
/-! DEFINITION. The Front End: the fetch and decoding of ring entries, the Object Table's reads and writes, and the queue
entries NOP, SUBMIT, QUEUE_CREATE, QUEUE_DESTROY and QUEUE_RESET (05; 06, R285-R296, R853). -/

namespace Sys2Proof.Machine

/-! ## Entry fields (05, Tables 5.1 to 5.3, 5.9 to 5.11; 06, Table 6.7; 08, Table 8.8) -/

/-- Header of an entry as its record echoes it: QUEUE is zero in the records of chapters 06 and 08, and CONTEXT in that of a
PART_TEARDOWN (05, Tables 5.1, 5.6; 06, Table 6.10; 08, R401). -/
def hdrOf (e : Entry) : Hdr :=
  let op := byteAt e.w 0
  { op := op, tag := bytesAt e.w 2 2, ctx := if op = 0x17 then 0 else byteAt e.w 4
    queue := if 0x10 ≤ op ∧ op ≤ 0x1A then 0 else wf (wat e.w 0) 48 9, index := e.index }

/-- The bits of word 0 that are not reserved, from those of FLAGS, byte 4, byte 5 and bytes 6-7 (05, Table 5.1). -/
def hdrMask (flags ctx b5 queue : Nat) : Nat := 0xFFFF00FF + flags * 2 ^ 8 + ctx * 2 ^ 32 + b5 * 2 ^ 40 + queue * 2 ^ 48

/-- Every bit of a word. -/
def allBits : Nat := 2 ^ 64 - 1

/-- The bits of an entry that are not reserved, by word; none for an opcode that Table 5.2 does not list (05, R224, R849, Tables
5.3, 5.9 to 5.11; 06, R302, Table 6.7; 08, Table 8.8). -/
def entryMask : Nat → Option (List Nat)
  | 0x00 => some [hdrMask 0 0xFF 0 0x1FF]
  | 0x01 => some [hdrMask 1 0xFF 7 0x1FF, allBits, allBits, allBits, allBits, allBits, allBits]
  | 0x02 => some [hdrMask 3 0xFF 7 0x1FF, allBits, 0xFFFFFFFF0000FF1F, allBits]
  | 0x03 => some [hdrMask 1 0xFF 0 0x1FF]
  | 0x04 => some [hdrMask 1 0xFF 0 0x1FF]
  | 0x10 => some [hdrMask 0 0xFF 0x0F 0, allBits, allBits]
  | 0x11 => some [hdrMask 0 0xFF 0 0]
  | 0x12 => some [hdrMask 0 0xFF 0 0, 0xFFFF, allBits, allBits]
  | 0x13 => some [hdrMask 0 0xFF 0 0, 0xFFFF]
  | 0x14 => some [hdrMask 0 0xFF 0xFF 0, 0xFFFFFF, allBits]
  | 0x15 => some [hdrMask 0 0xFF 0xFF 0, 0xFFF, allBits, 0xFFFFFFFF]
  | 0x16 => some [hdrMask 0 0xFF 0xFF 0, 0xFFFF]
  | 0x17 => some [hdrMask 0 0 0x0F 0]
  | 0x18 => some [hdrMask 0 0xFF 0xFF 0, 0xFFFF0FFF, allBits]
  | 0x19 => some [hdrMask 0 0xFF 0 0, 0xFFF, allBits, 0xFFFF]
  | 0x1A => some [hdrMask 0 0xFF 0 0, 0xFFF]
  | _ => none

/-- The opcode is listed and no reserved bit is set (05, R224). -/
def entryOk (w : List Word) : Bool :=
  match entryMask (byteAt w 0) with
  | none => false
  | some m => (List.range 8).all (fun i => (wat w i) &&& ~~~(w64 (m.getD i 0)) == 0)

/-- Handles that a SUBMIT lists: those below OBJ_COUNT (05, Table 5.3). -/
def submitObjs (w : List Word) : List Nat := (List.range (min 8 (byteAt w 19))).map (fun i => bytesAt w (40 + 2 * i) 2)

/-- Memory-object handles that an entry names (06, R288). -/
def entryHandles (e : Entry) : List Nat :=
  match byteAt e.w 0 with
  | 0x01 => submitObjs e.w
  | 0x12 => [bytesAt e.w 8 2]
  | 0x13 => [bytesAt e.w 8 2]
  | 0x18 => [bytesAt e.w 10 2]
  | _ => []

/-! ## The batch and its Object Table blocks (05, R218, R222; 06, R288, R853) -/

/-- Object Table blocks that the fetched entries name. -/
def batchBlocks (c : Core) : List Nat := ((c.fe.batch.flatMap entryHandles).map (· / 8)).dedup

/-- Decoding of a fetched batch may begin once every block it names is in hand (06, R288). -/
def batchCheck (c : Core) : Core :=
  if c.fe.batch ≠ [] ∧ (batchBlocks c).all (fun b => (otWords c b).isSome) = true then
    { c with fe := { c.fe with batchReady := true } }
  else c

/-- The Object Table reads of a new batch begin: images that it does not need are let go (06, R288, R853). -/
def batchReads (c : Core) : Core :=
  let l := batchBlocks c
  let c := { c with fe := { c.fe with
    batchReady := false, ot := c.fe.ot.map (fun e => (e.1, { e.2 with batch := l.contains e.1 })) } }
  batchCheck (otPump (l.foldl (fun c b => otNeed c b true) c))

/-- Decoding stops with RING_STOP (05, R222; 06, R294). -/
def ringStopped (c : Core) : Core :=
  irqSet { c with fe := { c.fe with ringStop := true, decoding := false, batch := [], batchReady := false } } pgFe 2

/-- RING_FETCH_DONE: a ring fetch returns; one begun before EN was cleared is dropped (05, R218, R222, R223; 06, R288; 16,
R806). -/
def execRingFetchDone (st : QStatus) (data : List Word) (s : State) : Host.Outcome State Fault Refusal :=
  mission (fun c =>
    match takeReq c .ringFetch with
    | none => c
    | some (r, c) =>
      let c := notePoison c st (pageTy pgFe) r.addr
      match c.fe.fetch with
      | none => feKick c
      | some (i, n) =>
        let c := { c with fe := { c.fe with fetch := none } }
        if st ≠ .ok then ringStopped (pageErr c pgFe 0x13 i 0)
        else
          let entry (k : Nat) : Entry :=
            { index := (i + k) % 2 ^ 32, w := (List.range 8).map (fun j => wat data (8 * k + j)) }
          batchReads { c with fe := { c.fe with batch := (List.range n).map entry } }) s

/-! ## Rewrites at the wrap of a generation (06, R280) -/

/-- Entries of a block rewritten as FREE where they are a context's (06, R280). -/
def wrapBlock (x : Nat) (w : List Word) : List Word :=
  (List.range 8).flatMap (fun k =>
    let e := (w.drop (4 * k)).take 4
    if otOwner e = x then otWith e 0 (otRefs e) else e)

/-- A context made LIVE by a CTX_CREATE: its next generation, zero counters, and its save area (06, Table 6.2, R279, R310; 11,
R576, R590). -/
def makeCtx (c : Core) (h : Hdr) (w : List Word) : Core :=
  let x := h.ctx
  let p := wf (wat w 0) 40 4
  let base := regPartCarveBase c p + regPartSaveOff c p
  let c := modCtx c x (fun (y : Ctx) =>
    { st := .live, part := p, gen := y.gen + 1, saveAddr := w64 (base + (wat w 1).toNat), saveSize := wat w 2 })
  let c := modSched c x (fun (y : SchedCtx) => { y with snap := 0, slow := 256 })
  feDone (answer c h 0)

/-- The rewrites before a create at the wrap of CTX_GEN: one block after another, and the create once every write of them is
acknowledged (06, R280). -/
def wrapSteps (c : Core) : Nat → Core
  | 0 => c
  | k + 1 =>
    match c.fe.wrap with
    | none => c
    | some (h, w, n) =>
      if 8192 ≤ n then
        if c.fe.ot.any (fun e => e.2.dirty || e.2.writing) then c
        else makeCtx { c with fe := { c.fe with wrap := none } } h w
      else
        match otWords c n with
        | none => otNeed c n false
        | some old =>
          let new := wrapBlock h.ctx old
          let c := { c with fe := { c.fe with wrap := some (h, w, n + 1) } }
          let c := if new = old then c
            else otFlush { c with fe := { c.fe with
              ot := c.fe.ot.map (fun e => if e.1 = n then (e.1, { e.2 with w := some new, dirty := true }) else e) } } n
          wrapSteps (otPump c) k

/-- The rewrites go on (06, R280). -/
def wrapStep (c : Core) : Core := wrapSteps c 8194

/-! ## Object Table accesses answered (06, R288-R296) -/

/-- A failed read of a block: what waits for it is given up, and a batch that needs it stops decoding (06, R294). -/
def otReadFail (c : Core) (b : Nat) : Core :=
  let mine := match tfind c.fe.ot b with | some x => x.batch | none => false
  let c := pageErr c pgObj 0x11 (8 * b) 0
  let fe := c.fe
  let c := { c with fe := { fe with
    ot := tdel fe.ot b
    rels := fe.rels.filter (fun h => h / 8 != b)
    querying := match fe.querying with | some h => if h / 8 = b then none else some h | none => none
    wrap := match fe.wrap with | some (h, w, n) => if n = b then some (h, w, n + 1) else some (h, w, n) | none => none } }
  if mine && !c.fe.batch.isEmpty && !c.fe.batchReady then ringStopped c else c

/-- OT_READ_DONE: the read of an Object Table block returns (06, R288, R290, R294, R313; 16, R806). -/
def execOtReadDone (block : Fin 8192) (st : QStatus) (data : List Word) (s : State) : Host.Outcome State Fault Refusal :=
  mission (fun c =>
    let b := block.val
    match takeReq c (.otRead b) with
    | none => c
    | some (r, c) =>
      let c := notePoison c st (pageTy pgObj) r.addr
      match tfind c.fe.ot b with
      | none => c
      | some x =>
        if st ≠ .ok then wrapStep (otReadFail c b)
        else
          let w := (List.range 32).map (wat data)
          let c := { c with fe := { c.fe with ot := tput c.fe.ot b { x with w := some w } } }
          batchCheck (wrapStep (otPump c))) s

/-- An effect that was owed until the write of its change was acknowledged: byte counts, and the OBJ_GONE record of a freed DYING
object (06, R292, R306, Tables 6.10, 6.12). -/
def otEffect (ok : Bool) (c : Core) : OtEff → Core
  | .created x n => modCtx c x (fun (y : Ctx) => { y with memBytes := y.memBytes + w64 n })
  | .dying x n => modCtx c x (fun (y : Ctx) => { y with dyingBytes := y.dyingBytes + w64 n })
  | .freed x n => modCtx c x (fun (y : Ctx) => { y with memBytes := y.memBytes - w64 n })
  | .gone x n h i =>
    let c := modCtx c x (fun (y : Ctx) => { y with memBytes := y.memBytes - w64 n, dyingBytes := y.dyingBytes - w64 n })
    if ok then pushRec (cntAdd c pgObj 0x138 1) { kind := 0x82, index := i, ctx := x, detail := w64 h } else c

/-- OT_WRITE_ACK: the write of an Object Table block is acknowledged (06, R289, R292, R295). -/
def execOtWriteAck (block : Fin 8192) (st : QStatus) (s : State) : Host.Outcome State Fault Refusal :=
  mission (fun c =>
    let b := block.val
    match takeReq c (.otWrite b) with
    | none => c
    | some (r, c) =>
      let c := notePoison c st (pageTy pgObj) r.addr
      let owed := match tfind c.fe.ot b with | some x => x.owed | none => []
      let c := match tfind c.fe.ot b with
        | some x => { c with fe := { c.fe with ot := tput c.fe.ot b { x with writing := false, owed := [] } } }
        | none => c
      let c := if st = .ok then c
        else
          let c := pageErr c pgObj 0x10 (8 * b) 0
          { c with fe := { c.fe with suspect := true } }
      let c := owed.foldl (otEffect (st == .ok)) c
      wrapStep (otPump (otFlush c b))) s

/-! ## Decoding (05, R219, R220, R224, R225, R235; 08, R399) -/

/-- The FE may decode the entry at the head of its batch (05, R225, R236; 06, R288; 08, R399; 03, Table 3.3; 16, R801). -/
def feReady (c : Core) : Bool :=
  c.fe.decoding && regFeCtrlEn c && !c.fe.ringStop && !c.fe.busy && c.fe.batchReady && c.fe.waiting.isEmpty && mayStart c
    && decide (c.gs.ops.length < 16)

/-- The head writeback: after a batch, and when RING_HEAD reaches RING_TAIL (05, R220). -/
def headWb (c : Core) : Core :=
  if c.fe.batch = [] ∨ regFeRingHead c = regFeRingTail c then
    hipWrite c (regFeHeadWb c) 0 [w64 (regFeRingHead c)] .headWb
  else c

/-- An entry is consumed: RING_HEAD passes it, and a record slot is reserved for it (05, R219, R235). -/
def consume (c : Core) (e : Entry) (t : List Entry) : Core :=
  let c := { c with fe := { c.fe with batch := t, reserved := c.fe.reserved + 1, respStall := false } }
  let c := regSet c pgFe 0x134 (r32 (e.index + 1))
  pmuEv c 0x010 1 (ownCtx c (hdrOf e).ctx)

/-- BAD_ENTRY: the record of a SUBMIT echoes its SEQ and COOKIE (05, R224, Table 5.6). -/
def badEntry (c : Core) (h : Hdr) (w : List Word) : Core :=
  if h.op = 1 then answer c h 1 0 (wat w 3) (bytesAt w 20 4) else answer c h 1

/-- The FE decodes the entry at its head, if it may and the entry has the opcode asked for; without room on the response ring it
waits (05, R224, R225, R235). -/
def feDecode (is : Nat → Bool) (f : Core → Hdr → List Word → Core) (c : Core) : Core :=
  match c.fe.batch with
  | [] => c
  | e :: t =>
    if !feReady c || !is (byteAt e.w 0) then c
    else if respFree c = 0 then irqSet { c with fe := { c.fe with respStall := true } } pgFe 3
    else
      let c := consume c e t
      let h := hdrOf e
      feKick (headWb (if entryOk e.w then f c h e.w else badEntry c h e.w))

/-- RING_NOP: a NOP is answered OK, and an opcode that Table 5.2 does not list BAD_ENTRY (05, R224, R849). -/
def execRingNop (s : State) : Host.Outcome State Fault Refusal :=
  mission (feDecode (fun op => op == 0x00 || (entryMask op).isNone) (fun c h _ => answer c h 0)) s

/-! ## Prefetch (05, R244-R247) -/

/-- Words of a sequencer's cache in use: its program, and what has been fetched or is being fetched for its queues (05, R244,
R246). -/
def cacheUsed (c : Core) (sq : Nat) : Nat :=
  (getSq c sq).words.length + ((c.queues.filter (fun e => e.2.sq == sq)).map (fun e =>
    ((e.2.wait.filter (fun (s : Sub) => s.fetch != .none)).map (·.progWords)).sum)).sum

/-- A change of a waiting submission. -/
def modWait (c : Core) (q sid : Nat) (f : Sub → Sub) : Core :=
  modQ c q (fun x => { x with wait := x.wait.map (fun (s : Sub) => if s.sid = sid then f s else s) })

/-- The fetch of a program and its patch list begins (05, R230, R244). -/
def fetchSub (c : Core) (q : Nat) (s : Sub) : Core :=
  let n := c.fe.nextFetch
  let c := modWait c q s.sid (fun (x : Sub) => { x with fetch := .fetching, fetchNo := n, words := [], patch := none })
  let c := { c with fe := { c.fe with nextFetch := n + 1 } }
  let c := hipRead c s.progAddr (qPart c q) (8 * s.progWords) (.prog s.sid)
  if s.patchCount = 0 then c else hipRead c s.patchAddr (qPart c q) (16 * s.patchCount) (.patchList s.sid)

/-- The oldest submissions not yet fetched of a sequencer's queues, two a queue, highest priority first (05, R244). -/
def toFetch (c : Core) (sq : Nat) : List (Nat × Sub) :=
  (sortBy (fun e => e.2.prio) (c.queues.filter (fun e => e.2.sq == sq))).flatMap (fun e =>
    ((e.2.wait.take 2).filter (fun (s : Sub) => s.fetch == .none)).map (fun s => (e.1, s)))

/-- Fetches in order while the cache has room (05, R244). -/
def fetchList (c : Core) (sq : Nat) : List (Nat × Sub) → Core
  | [] => c
  | e :: t => if cacheUsed c sq + e.2.progWords ≤ 8192 then fetchList (fetchSub c e.1 e.2) sq t else c

/-- Prefetch for a sequencer's queues (05, R244). -/
def prefetch (c : Core) (sq : Nat) : Core := fetchList c sq (toFetch c sq)

/-- Prefetched programs evicted until a program that is to start has room: the lowest priority first, then the most recently
fetched (05, R246). -/
def evictFor (sq need sid : Nat) : Nat → Core → Core
  | 0, c => c
  | k + 1, c =>
    if cacheUsed c sq + need ≤ 8192 then c
    else
      let l := (c.queues.filter (fun e => e.2.sq == sq)).flatMap (fun e =>
        (e.2.wait.filter (fun (s : Sub) => s.fetch != .none && s.sid != sid)).map (fun s => (e.1, e.2.prio, s)))
      match argmin (fun e => (7 - e.2.1) * 2 ^ 64 + (2 ^ 64 - 1 - e.2.2.fetchNo)) l with
      | none => c
      | some e =>
        evictFor sq need sid k
          (modWait c e.1 e.2.2.sid (fun (x : Sub) => { x with fetch := .none, words := [], patch := none }))

/-! ## SUBMIT (05, R226, R227, Table 5.4) -/

/-- Fields of a SUBMIT in range (05, Table 5.4). -/
def submitFields (w : List Word) : Bool :=
  let n := bytesAt w 16 2
  let pc := byteAt w 18
  let pa := (wat w 4).toNat
  let k := byteAt w 19
  decide (1 ≤ n ∧ n ≤ 2048 ∧ (wat w 1).toNat % 64 = 0 ∧ pc ≤ 64 ∧ pa % 16 = 0 ∧ (pc = 0 → pa = 0) ∧ k ≤ 8)
    && (List.range 8).all (fun i => decide (i < k) || bytesAt w (40 + 2 * i) 2 == 0)

/-- State of a handle as an entry of a context sees it: 0 not live or not the context's, 1 LIVE, 2 DYING (06, R286, R287). -/
def objSeen (c : Core) (x h : Nat) : Nat :=
  match otEntry c h with
  | none => 0
  | some e => if otOwner e = x then otState c e else 0

/-- The first check of Table 5.4 that fails, by its status (05, R226). -/
def submitCheck (c : Core) (h : Hdr) (w : List Word) : Option Nat :=
  let q := getQ c h.queue
  let l := submitObjs w
  if !submitFields w then some 0x0B
  else if q.st = .free then some 2
  else if q.st = .destroying then some 7
  else if q.ctx ≠ h.ctx then some 8
  else if wf (wat w 0) 40 3 ≠ q.prio then some 4
  else if l.any (fun n => objSeen c h.ctx n == 0) then some 9
  else if l.any (fun n => objSeen c h.ctx n == 2) then some 0x0A
  else if 4 ≤ q.wait.length then some 6
  else none

/-- One reference taken on a handle in hand (05, R227; 06, Table 6.6). -/
def takeRef (c : Core) (h : Nat) : Core :=
  match otEntry c h with
  | some e => otChange c h (otWith e (wf (wat e 2) 0 8) (otRefs e + 1)) []
  | none => c

/-- A SUBMIT accepted (05, R227, Table 5.12; 17, Tables 17.1, 17.3). -/
def acceptSubmit (c : Core) (h : Hdr) (w : List Word) : Core :=
  let q := h.queue
  let s : Sub :=
    { sid := c.fe.nextSid, int := wbit (wat w 0) 8, progAddr := (wat w 1).toNat, progWords := bytesAt w 16 2
      patchCount := byteAt w 18, patchAddr := (wat w 4).toNat, objs := submitObjs w, cookie := bytesAt w 20 4, seq := wat w 3 }
  let c := (submitObjs w).foldl takeRef c
  let c := { c with fe := { c.fe with nextSid := s.sid + 1 } }
  let c := modQ c q (fun x => { x with wait := x.wait ++ [s], st := if x.st = .idle then .ready else x.st })
  let c := trace (pmuEv (cntAdd c pgFe 0x140 1) 0x011 1 (ownQ c q)) 0x01 (ownQ c q) 0 0 s.seq h.index
  let c := prefetch c (getQ c q).sq
  let c := answer c h 0 0 s.seq s.cookie
  lateSave c (getQ c q).sq

/-- SUBMIT (05, R226, R227). -/
def execSubmit (s : State) : Host.Outcome State Fault Refusal :=
  mission (feDecode (· == 0x01) (fun c h w =>
    match submitCheck c h w with
    | some st => answer c h st 0 (wat w 3) (bytesAt w 20 4)
    | none => acceptSubmit c h w)) s

/-! ## QUEUE_CREATE (05, R238-R241) -/

/-- The first check of a QUEUE_CREATE that fails, by its status (05, R239). -/
def createCheck (c : Core) (h : Hdr) (w : List Word) : Option Nat :=
  let x := (getCtx c h.ctx).st
  if (getQ c h.queue).st ≠ .free then some 2
  else if x = .free then some 3
  else if x ≠ .live then some 0x11
  else if (wat w 1).toNat % 8 ≠ 0 ∨ 60000000 < bytesAt w 20 4 then some 0x0C
  else none

/-- A valid QUEUE_CREATE sets every field of the slot and writes INIT_SEQ (05, R240, R241, Table 5.14). -/
def createQueue (c : Core) (h : Hdr) (w : List Word) : Core :=
  let q := h.queue
  let us := clampUs (bytesAt w 20 4)
  let flags := byteAt w 1
  let off := 0x100 + 0x40 * (q % 32)
  let c := modQ c q (fun _ =>
    { ctx := h.ctx, sq := wf (wat w 2) 0 5, prio := wf (wat w 0) 40 3, cplAddr := (wat w 1).toNat, timeout := us
      creating := some h })
  let c := regSet c (pgFeq q) off (r32 (byteAt w 17 * 2 ^ 8 + flags % 2 * 2 ^ 7 + flags / 2 % 2 * 2 ^ 6))
  let c := regSet c (pgFeq q) (off + 4) (r32 us)
  let c := { c with fe := { c.fe with busy := true } }
  hipWrite c (wat w 1).toNat (getCtx c h.ctx).part [wat w 3] (.initSeq q)

/-- QUEUE_CREATE (05, R239, R241). -/
def execQueueCreate (s : State) : Host.Outcome State Fault Refusal :=
  mission (feDecode (· == 0x02) (fun c h w =>
    match createCheck c h w with
    | some st => answer c h st
    | none => createQueue c h w)) s

/-- INIT_SEQ_WRITE_ACK: the queue moves to IDLE and its entry is answered; a queue whose context has meanwhile left LIVE stays
FREE (05, R238, R241). -/
def execInitSeqWriteAck (q : Fin 512) (st : QStatus) (s : State) : Host.Outcome State Fault Refusal :=
  mission (fun c =>
    let n := q.val
    match takeReq c (.initSeq n) with
    | none => c
    | some (r, c) =>
      let c := notePoison c st (pageTy pgFe) r.addr
      let c := if st = .ok then c else pageErr c pgFe 0x11 n 0
      match (getQ c n).creating with
      | none => c
      | some h =>
        if (getCtx c h.ctx).st = .live then
          let c := modQ c n (fun x => { x with st := .idle, lastSeq := wat r.data 0, creating := none })
          feDone (answer c h 0)
        else feDone (answer (modQ c n (fun _ => {})) h 0x11)) s

/-! ## QUEUE_DESTROY and QUEUE_RESET (05, R261-R266, R850) -/

/-- A queue's program stops without an end of its own: it neither ends nor faults (05, R262; 07, R318, Table 7.10). -/
def quietStop (c : Core) (q : Nat) : Core :=
  let x := getQ c q
  let c := if (getSq c x.sq).q = some q then freeSq (stopCommand c x.sq) x.sq else c
  programOver c q

/-- Every accepted submission of a queue that has not started is discarded (05, R228, R262). -/
def dropWaiting (c : Core) (q : Nat) : Core := ((getQ c q).wait.map (·.sid)).foldl (fun c sid => dropSub c q sid) c

/-- A queue moves to DESTROYING: aborts are sent for a reason, or its issues drain where there is none; the entry to answer is
none for a teardown (05, R262, R263, R265, R266). -/
def destroyQueue (c : Core) (q : Nat) (reason : Option Nat) (h : Option Hdr) : Core :=
  let n := (getQ c q).wait.length
  let p := endPreempt (dropWaiting (quietStop c q) q) q reason
  let r := instsAbort p.1 (queueInsts p.1 q) reason
  let t := stopStreams r.1 q reason
  let c := modQ t.1 q (fun x => { x with
    st := .destroying, destroyHdr := h, nDiscard := n, nAbort := p.2 + r.2 + t.2
    held := false, fSource := 0, fCode := 0, fWord := 0, parked := false
    pointFrom := none, pointLate := false, demand := false })
  balCheck c q

/-- Every outstanding issue of a queue aborted for its context's teardown; how many aborts were sent (05, R266). -/
def abortQueue (c : Core) (q : Nat) : Core × Nat :=
  let l := queueInsts c q
  abortWhere c 3 (fun x => (x.kind == .task && l.contains x.inst) || issueSave q x || issueStream q x)

/-- The destroy of a queue by the teardown of its context, which counts the aborts sent (05, R266; 06, Table 6.10). -/
def tearQueue (c : Core) (q : Nat) : Core :=
  let x := getQ c q
  let p : Core × Nat :=
    match x.st with
    | .free => (c, 0)
    | .destroying =>
      let p := abortQueue c q
      (modQ p.1 q (fun x => { x with nAbort := x.nAbort + p.2 }), p.2)
    | _ =>
      let c := destroyQueue c q (some 3) none
      (c, (getQ c q).nAbort)
  modCtx p.1 x.ctx (fun (y : Ctx) => { y with nAborts := y.nAborts + p.2 })

/-- QUEUE_DESTROY (05, R262, R850). -/
def execQueueDestroy (s : State) : Host.Outcome State Fault Refusal :=
  mission (feDecode (· == 0x03) (fun c h w =>
    let q := getQ c h.queue
    if q.st = .free then answer c h 2
    else if q.ctx ≠ h.ctx then answer c h 8
    else if q.st = .destroying then answer c h 5
    else destroyQueue c h.queue (if wbit (wat w 0) 8 then some 2 else none) (some h))) s

/-- Nothing of a DESTROYING queue is left to complete (05, R251, R264). -/
def destroyDue (c : Core) (q : Nat) : Bool :=
  let x := getQ c q
  x.st == .destroying && x.cpls.isEmpty && (queueInsts c q).all (fun i => (getInst c i).openN == 0)
    && (issuesWhere c (issueSave q)).isEmpty && (issuesWhere c (issueStream q)).isEmpty

/-- QUEUE_DESTROY_DONE: the instances retire, the references are released, the slot is FREE and the record is written (05, R264,
R266, Table 5.8). -/
def execQueueDestroyDone (q : Fin 512) (s : State) : Host.Outcome State Fault Refusal :=
  mission (fun c =>
    let n := q.val
    if !destroyDue c n then c
    else
      let c := (queueInsts c n).foldl retireInst c
      let c := balCheck c n
      let c := (((getQ c n).wait ++ (getQ c n).subs).map (·.sid)).foldl (fun c sid => dropSub c n sid) c
      let x := getQ c n
      let d := detail2 x.nDiscard x.nAbort
      let c := modQ c n (fun _ => {})
      match x.destroyHdr with
      | some h => answer c h 0 d
      | none => pushRec c { kind := 0x81, index := 0xFFFFFFFF, queue := n, ctx := x.ctx, detail := d }) s

/-- QUEUE_RESET (05, R260, R261, R850). -/
def execQueueReset (s : State) : Host.Outcome State Fault Refusal :=
  mission (feDecode (· == 0x04) (fun c h w =>
    let q := getQ c h.queue
    if q.st = .free then answer c h 2
    else if q.ctx ≠ h.ctx then answer c h 8
    else if q.st = .destroying then answer c h 5
    else if !(q.st == .guilty && q.held) then answer c h 0x0D
    else
      let c := if wbit (wat w 0) 8 then dropWaiting c h.queue else c
      answer (leaveGuilty c h.queue) h 0)) s

end Sys2Proof.Machine
end

