-- ==== Sys2Proof/Machine/Start.lean ====
section
/-! DEFINITION. Programs fetched, granted and started; progress timeouts; acknowledgements of the FE's writes and messages; and
what writes of its control registers do (05, R217, R222, R223, R230-R232, R242-R256, R268; 07, R314, R316). -/

namespace Sys2Proof.Machine

/-! ## Fetches returned (05, R230, R232, R245, R247) -/

/-- A patch entry keeps the rules of Table 5.5 for a program of so many words (05, R232). -/
def patchEntryOk (n : Nat) (e : Word) : Bool :=
  let k := wf e 0 8
  let i := wf e 16 16
  wf e 8 8 == 0 && wf e 32 32 == 0 && (k == 1 && decide (i < 16) || k == 2 && decide (i < n))

/-- Entries of a patch list, two words each, in list order (05, Table 5.5). -/
def patchEntries (s : Sub) : List (Word × Word) :=
  (List.range s.patchCount).map (fun i => (wat (s.patch.getD []) (2 * i), wat (s.patch.getD []) (2 * i + 1)))

/-- The program-word entries of a patch list applied in list order (05, R230). -/
def patchWords (s : Sub) : List Word :=
  (patchEntries s).foldl (fun ws e => if wf e.1 0 8 = 2 then ws.set (wf e.1 16 16) e.2 else ws) s.words

/-- A submission whose program and patch list are in: READY in the cache with its patches applied, or bad (05, R230, R232,
R245). -/
def fetchSettled (s : Sub) : Sub :=
  if s.fetch != .fetching || s.words.isEmpty || (decide (0 < s.patchCount) && s.patch.isNone) then s
  else if (patchEntries s).all (fun e => patchEntryOk s.progWords e.1) then { s with fetch := .ready, words := patchWords s }
  else { s with fetch := .patchBad }

/-- A submission after a fetch of it returns (05, R247). -/
def fetchReturned (list : Bool) (st : QStatus) (data : List Word) (s : Sub) : Sub :=
  if s.fetch != .fetching && s.fetch != .patchFail then s
  else if st ≠ .ok then { s with fetch := if list then .patchFail else .progFail }
  else if list then fetchSettled { s with patch := some ((List.range (2 * s.patchCount)).map (wat data)) }
  else fetchSettled { s with words := (List.range s.progWords).map (wat data) }

/-- Queue in which a submission waits. -/
def waitQueue (c : Core) (sid : Nat) : Option Nat :=
  (c.queues.find? (fun e => e.2.wait.any (fun (s : Sub) => s.sid == sid))).map (·.1)

/-- PROGRAM_FETCH_DONE: a fetch of a program or of its patch list returns; one of a submission that is gone or evicted is
dropped (05, R230, R245-R247; 16, R806). -/
def execProgramFetchDone (sub : Nat) (list : Bool) (st : QStatus) (data : List Word) (s : State) :
    Host.Outcome State Fault Refusal :=
  mission (fun c =>
    match takeReq c (if list then .patchList sub else .prog sub) with
    | none => c
    | some (r, c) =>
      let c := notePoison c st (pageTy pgFe) r.addr
      match waitQueue c sub with
      | none => c
      | some q => prefetch (modWait c q sub (fetchReturned list st data)) (getQ c q).sq) s

/-! ## Arbitration and starts (05, R231, R242-R247; 07, R314, R316) -/

/-- ARBITRATE: a free sequencer is granted to the READY queue that R242 chooses; a SAVED one takes the RESTORE row (05, R242; 17,
R831). -/
def execArbitrate (sq : Fin 32) (s : State) : Host.Outcome State Fault Refusal :=
  mission (fun c =>
    let n := sq.val
    let c := prefetch c n
    if !mayStart c || (getSq c n).q.isSome || sqHeld c n then c
    else
      match chooseQueue c n with
      | none => c
      | some (q, p) =>
        if (getQ c q).st = .ready then modSq (setRot c n p q) n (fun x => { x with q := some q }) else c) s

/-- Shape registers at a program's start: zero, then the shape entries in list order (05, R231). -/
def startShapes (s : Sub) : Tbl Word :=
  (patchEntries s).foldl (fun t e => if wf e.1 0 8 = 1 then tset t 0 (wf e.1 16 16) e.2 else t) []

/-- A program starts: every item of Table 7.1 is set (07, R314, R316; 05, Table 5.12; 17, Table 17.3). -/
def startProgram (c : Core) (n q : Nat) (s : Sub) : Core :=
  let x := (getQ c q).ctx
  let c := modSq c n (fun (y : Sq) =>
    { q := some q, s := startShapes s, scratch := if y.lastCtx = some x then y.scratch else [], lastCtx := some x
      words := s.words, halted := y.halted, stepping := y.stepping })
  let c := modQ c q (fun y => { y with
    st := .running, wait := y.wait.filter (fun (t : Sub) => t.sid != s.sid), subs := y.subs ++ [s], cur := some s.sid })
  let c := trace (cntAdd c (pgSq n) 0x128 1) 0x02 (ownQ c q) 0 0 (w64 s.progAddr) n
  prefetch (bpCheck (pointTimer (progress c q) q) n) n

/-- A fault found at the start of a program, by its fetch state (05, R232, R247). -/
def startFault : FetchState → Option Nat
  | .progFail => some 2
  | .patchFail => some 3
  | .patchBad => some 4
  | _ => none

/-- PROGRAM_START: the granted queue's oldest submission starts once it is cached, is fetched if it was not, or faults (05, R232,
R245-R247; 07, R314). -/
def execProgramStart (sq : Fin 32) (s : State) : Host.Outcome State Fault Refusal :=
  mission (fun c =>
    let n := sq.val
    match (getSq c n).q with
    | none => c
    | some q =>
      let x := getQ c q
      match x.wait with
      | [] => c
      | sub :: _ =>
        if !mayStart c || sqHeld c n || x.st != .ready then c
        else if sub.fetch = .none then fetchSub (evictFor n sub.progWords sub.sid 2048 c) q sub
        else
          match startFault sub.fetch with
          | some code => queueFault c q 1 code 0 sub.sid none
          | none => if sub.fetch = .ready then startProgram c n q sub else c) s

/-! ## Progress timers and faults (05, R254-R257) -/

/-- PROGRESS_TIMEOUT: a running timer passes its queue's timeout (05, R256). -/
def execProgressTimeout (q : Fin 512) (s : State) : Host.Outcome State Fault Refusal :=
  mission (fun c =>
    let n := q.val
    let x := getQ c n
    match x.cur with
    | none => c
    | some sid =>
      if (x.st = .running ∨ x.st = .blocked) ∧ passedUs c x.progAt x.timeout = true then
        queueFault c n 1 1 (getSq c x.sq).pc sid none
      else c) s

/-- QUEUE_FAULT: a fault of a queue's running program, or of its oldest submission, reported by a unit (05, R257, R851, R852). -/
def execQueueFault (q : Fin 512) (source : BitVec 4) (code : BitVec 8) (word : BitVec 16) (s : State) :
    Host.Outcome State Fault Refusal :=
  mission (fun c =>
    let x := getQ c q.val
    match (match x.cur with | some sid => some sid | none => (x.subs ++ x.wait).head?.map (·.sid)) with
    | none => c
    | some sid => queueFault c q.val source.toNat code.toNat word.toNat sid none) s

/-! ## Acknowledgements (05, R220, R234, R249-R252; 02, R57; 09, R481) -/

/-- COMPLETION_WRITE_ACK: the interrupt follows an acknowledged completion, and the queue's next completion is issued (05, R249,
R251, R252). -/
def execCompletionWriteAck (q : Fin 512) (st : QStatus) (s : State) : Host.Outcome State Fault Refusal :=
  mission (fun c =>
    let n := q.val
    match takeReq c (.cpl n) with
    | none => c
    | some (r, c) =>
      let c := notePoison c st (pageTy pgFe) r.addr
      match (getQ c n).cpls with
      | [] => c
      | x :: t =>
        let c := modQ c n (fun y => { y with cpls := t })
        let c :=
          if st ≠ .ok then pageErr c pgFe 0x11 n 0
          else
            let c := pmuEv (cntAdd c pgFe 0x150 1) 0x012 1 (ownQ c n)
            let c := modQ c n (fun y => { y with lastSeq := x.seq })
            if x.int && regFeqQCfgIntEn c (n / 32) (n % 32) then
              intMsg c (regFeqQCfgVector c (n / 32) (n % 32)) (qPart c n) x.cookie (.cplMsg n)
            else c
        issueCpl c n) s

/-- INTMSG_ACK: the n-th open INTMSG is answered; a failure is logged and not retried (02, R57; 16, R806, Table 16.7). -/
def execIntmsgAck (n : Nat) (st : QStatus) (s : State) : Host.Outcome State Fault Refusal :=
  mission (fun c =>
    match (c.io.reqs.filter (fun (r : Req) => r.op == .intmsg))[n]? with
    | none => c
    | some r =>
      let c := { c with io := { c.io with reqs := c.io.reqs.erase r } }
      if st = .ok then c
      else logErr c { kind := 7, source := pageTy pgFe, vec := r.addr, info := (wat r.data 0).toNat }) s

/-- RESPONSE_WRITE_ACK: a response record is written; a COOKIE record is followed by its interrupt (05, FE page; 09, R481). -/
def execResponseWriteAck (idx : Nat) (st : QStatus) (s : State) : Host.Outcome State Fault Refusal :=
  mission (fun c =>
    let j := idx
    match takeReq c (.resp j) with
    | none => c
    | some (r, c) =>
      let c := notePoison c st (pageTy pgFe) r.addr
      let k := tfind c.fe.last j
      let c := { c with fe := { c.fe with last := tdel c.fe.last j } }
      if st ≠ .ok then pageErr c pgFe 0x11 j 0
      else
        match k with
        | some cookie => if regStCtrlCookieIrq c then intMsg c (regStCtrlCookieVec c) 0 cookie (.cookieMsg cookie) else c
        | none => c) s

/-- HEAD_WB_ACK: a head writeback is acknowledged (05, FE page). -/
def execHeadWbAck (st : QStatus) (s : State) : Host.Outcome State Fault Refusal :=
  mission (fun c =>
    match takeReq c .headWb with
    | none => c
    | some (r, c) =>
      let c := notePoison c st (pageTy pgFe) r.addr
      if st = .ok then c else pageErr c pgFe 0x12 0 0) s

/-! ## Writes of the FE's control registers (05, R216, R217, R222, R223, R268) -/

/-- RING_TAIL written: the doorbell, or RING_OVERRUN (05, R216, R217). -/
def ringTailSet (c : Core) (v : Reg) : Core :=
  if 2 ^ regFeRingSizeLog2 c < (v - r32 (regFeRingHead c)).toNat then pageErr c pgFe 0x10 v.toNat 0
  else feKick (regSet c pgFe 0x130 v)

/-- A ring size in range (05, Table 5.13). -/
def ringLogOk (n : Nat) : Bool := decide (6 ≤ n ∧ n ≤ 16)

/-- FE_CTRL.EN written (05, R223, R268). -/
def feEnSet (c : Core) (en : Bool) : Core :=
  if en then
    if regFeCtrlEn c then c
    else if ringLogOk (regFeRingSizeLog2 c) && ringLogOk (regFeRespSizeLog2 c) then
      feKick { regSet c pgFe 0x100 1 with fe := { c.fe with ringStop := false, decoding := true } }
    else pageErr c pgFe 0x14 0 0
  else
    { regSet c pgFe 0x100 0 with fe := { c.fe with fetch := none, batch := [], batchReady := false, decoding := c.fe.busy } }

/-- RESP_HEAD written: slots are free again (05, R235, R236). -/
def respHeadSet (c : Core) (v : Reg) : Core :=
  let c := respPump (regSet c pgFe 0x138 v)
  { c with fe := { c.fe with respStall := c.fe.respStall && decide (respFree c = 0) } }

end Sys2Proof.Machine
end

