-- ==== Sys2Proof/Machine/Ctx.lean ====
section
/-! DEFINITION. Contexts, memory objects, slots and partitions: the ring entries of chapter 06, teardowns and the enabling of a
partition (06; 09, R454; 08, R410). -/

namespace Sys2Proof.Machine

/-! ## Partitions (06, R272, Table 6.3) -/

/-- The carve-outs of two partitions overlap. -/
def carvesMeet (c : Core) (p r : Nat) : Bool :=
  decide (regPartCarveBase c p < regPartCarveBase c r + regPartCarveSize c r
    ∧ regPartCarveBase c r < regPartCarveBase c p + regPartCarveSize c p)

/-- The first check of Table 6.3 that a partition fails, by its reason code (06, R272). -/
def partBad (c : Core) (p : Nat) : Option Nat :=
  if regPartCarveSize c p = 0 then some 1
  else if 2 ^ 52 < regPartCarveBase c p + regPartCarveSize c p then some 2
  else if regPartCarveSize c p < regPartSaveOff c p + regPartSaveSize c p then some 3
  else if (List.range 16).any (fun r => r != p && regPartCtrlEn c r && carvesMeet c p r) then some 4
  else none

/-- PART_CTRL written (06, R272). -/
def partEnSet (c : Core) (p : Nat) (v : Reg) : Core :=
  if !rbit v 0 || regPartCtrlEn c p then regSet c (pgPart p) 0x100 v
  else
    match partBad c p with
    | some reason => pageErr c (pgPart p) 0x10 0 reason
    | none => regSet c (pgPart p) 0x100 v

/-! ## Slots and contexts freed (06, Tables 6.2, 6.4) -/

/-- ABANDONED sync objects of a context. -/
def deadSyncs (c : Core) (x : Nat) : List Nat :=
  (c.st.objs.filter (fun e => e.2.st == .abandoned && e.2.owner == x)).map (·.1)

/-- ABANDONED receive queues of a context. -/
def deadRxqs (c : Core) (x : Nat) : List Nat :=
  (c.mf.rxqs.filter (fun e => e.2.st == .abandoned && e.2.owner == x)).map (·.1)

/-- The ABANDONED slots of a context become FREE; how many they were (06, Table 6.4, step 4). -/
def freeSlots (c : Core) (x : Nat) : Core × Nat :=
  let s := deadSyncs c x
  let r := deadRxqs c x
  ({ c with
      st := { c.st with objs := c.st.objs.filter (fun e => !s.contains e.1) }
      mf := { c.mf with rxqs := c.mf.rxqs.filter (fun e => !r.contains e.1) } }, s.length + r.length)

/-- A context slot becomes FREE: it keeps its generation and, until the next CTX_CREATE clears them, its counters (06, Table 6.2,
R279, R310). -/
def freeCtx (c : Core) (x : Nat) : Core :=
  modCtx c x (fun (y : Ctx) => { y with st := .free, cause := 0, hdrs := [], nQueues := 0, nSlots := 0, nAborts := 0 })

/-! ## PART_TEARDOWN records (06, R305, Table 6.10) -/

/-- A PART_TEARDOWN whose contexts are all FREE is answered; one that still waits stays. -/
def partStep (p : Core × List (Hdr × List Nat × Nat × List Nat × Nat × Nat))
    (e : Hdr × List Nat × Nat × List Nat × Nat × Nat) : Core × List (Hdr × List Nat × Nat × List Nat × Nat × Nat) :=
  match e with
  | (h, left, n, _, qs, ab) =>
    if left = [] then (answer p.1 h 0 (detail2 (n % 2 ^ 16 + qs % 2 ^ 16 * 2 ^ 16) ab), p.2) else (p.1, p.2 ++ [e])

/-- PART_TEARDOWN records that are due are written. -/
def partAnswers (c : Core) : Core :=
  let p := c.fe.partTd.foldl partStep (c, [])
  { p.1 with fe := { p.1.fe with partTd := p.2 } }

/-- A context has become FREE: every PART_TEARDOWN that waits for it goes on (06, R305). -/
def partFreed (c : Core) (x queues aborts : Nat) : Core :=
  let f (e : Hdr × List Nat × Nat × List Nat × Nat × Nat) : Hdr × List Nat × Nat × List Nat × Nat × Nat :=
    match e with
    | (h, left, n, started, qs, ab) =>
      if left.contains x then
        if started.contains x then (h, left.filter (· != x), n, started, qs + queues, ab + aborts)
        else (h, left.filter (· != x), n, started, qs, ab)
      else e
  partAnswers { c with fe := { c.fe with partTd := c.fe.partTd.map f } }

/-! ## Teardown (06, Table 6.4, R281; 16, R800) -/

/-- Objects and receive queues of a context become ABANDONED, and their waiters are released with ABANDONED (06, Table 6.4; 07,
R369). -/
def abandonSlots (c : Core) (x : Nat) : Core :=
  let s := (c.st.objs.filter (fun e => e.2.st == .live && e.2.owner == x)).map (·.1)
  let r := (c.mf.rxqs.filter (fun e => e.2.st == .live && e.2.owner == x)).map (·.1)
  let c := s.foldl (fun c h => modObj (abandonWaits c h) h (fun o => { o with st := .abandoned })) c
  let c := r.foldl (fun c n => modRxq c n (fun o => { o with st := .abandoned })) c
  let c := modCtx c x (fun (y : Ctx) => { y with nSlots := s.length + r.length })
  faultAbandoned (r.foldl (fun c n => selectGone c n 0x0C) c)

/-- The cause of a teardown once a further call joins it (06, Table 6.2). -/
def joinCause (old new : Nat) : Nat := if old = 1 ∨ new = 1 then 1 else if new = 2 then 2 else old

/-- Calls for the teardown of a context that wait behind its hold join it (06, Table 6.2, R281). -/
def joinCalls (c : Core) (x : Nat) : Core :=
  let mine (k : Contain) : Bool := k.ctx == x && decide (k.cause ≤ 2)
  match c.ras.queue with
  | [] => c
  | k :: t =>
    let l := t.filter mine
    let c := { c with ras := { c.ras with queue := k :: t.filter (fun y => !mine y) } }
    modCtx c x (fun (y : Ctx) =>
      { y with cause := l.foldl (fun a k => joinCause a k.cause) y.cause, hdrs := y.hdrs ++ l.filterMap (·.hdr) })

/-- Step 1 of a teardown, in one tclk, one operation of the ST (06, Table 6.4, R281, R282; 09, R467). -/
def tearStep (c : Core) (k : Contain) : Core :=
  let x := k.ctx
  let c := stDrain c
  let c := pmuEv (cntAdd c pgSt 0x118 1) 0x050 1 {}
  let called := (getCtx c x).called
  let c := modCtx c x (fun (y : Ctx) =>
    { y with
      st := .teardown, cause := k.cause, called := false, hdrs := k.hdr.toList, nQueues := 0, nSlots := 0, nAborts := 0 })
  let qs := (c.queues.filter (fun e => e.2.st != .free && e.2.ctx == x)).map (·.1)
  let c := modCtx c x (fun (y : Ctx) => { y with nQueues := qs.length })
  let c := joinCalls (abandonSlots (qs.foldl tearQueue c) x) x
  if called && !c.ctxs.any (fun e => e.2.called) then feDone c else c

/-- TEARDOWN_START: step 1 of the teardown that the hold in effect is for (06, R281; 16, Table 16.4). -/
def execTeardownStart (s : State) : Host.Outcome State Fault Refusal :=
  mission (fun c =>
    match c.ras.queue with
    | [] => c
    | k :: _ =>
      if c.ras.hold && !c.ras.stepped && (getCtx c k.ctx).st == .live then
        let c := { c with ras := { c.ras with stepped := true } }
        tearStep c k
      else c) s

/-- Graphs of a context that leaves TEARDOWN are unloaded without a record; its loads still under way are once they end (08,
R410). -/
def unloadOwned (c : Core) (x : Nat) : Core :=
  let l := (c.gs.imgs.filter (fun e => e.2.st == .loaded && e.2.owner == x)).map (·.1)
  let mark (o : GsOp) : GsOp := if o.hdr.ctx = x then { o with gone := true } else o
  let c := { c with gs := { c.gs with ops := c.gs.ops.map mark } }
  l.foldl (fun c g => sweepGraph (modImg c g (fun y => { y with st := .unloading, unload := none, nFreed := 0 })) g) c

/-- Context that an effect belongs to. -/
def effCtx : OtEff → Nat
  | .created x _ | .dying x _ | .freed x _ => x
  | .gone x _ _ _ => x

/-- Every memory object of a context counts as FREE: counts and byte counts are zero, and nothing more is owed (06, Table 6.4,
step 3). -/
def clearObjs (c : Core) (x : Nat) : Core :=
  let keep (l : List OtEff) : List OtEff := l.filter (fun e => effCtx e != x)
  let c := { c with fe := { c.fe with ot := c.fe.ot.map (fun e => (e.1, { e.2 with effs := keep e.2.effs, owed := keep e.2.owed })) } }
  modCtx c x (fun (y : Ctx) => { y with objLive := 0, objDying := 0, memBytes := 0, dyingBytes := 0 })

/-- DETAIL of a teardown's records (06, Table 6.10). -/
def tearDetail (y : Ctx) : Word := detail2 (y.nQueues % 2 ^ 16 + y.nSlots % 2 ^ 16 * 2 ^ 16) y.nAborts

/-- Steps 3 to 5 of a teardown (06, Tables 6.2, 6.4, R305, R306, R309). -/
def tearEnd (c : Core) (x : Nat) : Core :=
  let y := getCtx c x
  let c := clearObjs c x
  if y.cause = 1 ∨ y.cause = 2 then
    let c := freeCtx (freeSlots c x).1 x
    let c := y.hdrs.foldl (fun c h => answer c h 0 (tearDetail y)) c
    partFreed (unloadOwned c x) x y.nQueues y.nAborts
  else
    let c := modCtx c x (fun (z : Ctx) => { z with st := .dead })
    let c := pushRec c { kind := 0x83, index := 0xFFFFFFFF, ctx := x, detail := tearDetail y }
    unloadOwned (irqSet (regOr c (pgCtx x) 0x900 (r32 (2 ^ (x % 16)))) (pgCtx x) 2) x

/-- TEARDOWN_END: every queue of a tearing-down context is FREE (06, R281, Table 6.4). -/
def execTeardownEnd (ctx : Fin 256) (s : State) : Host.Outcome State Fault Refusal :=
  mission (fun c =>
    let x := ctx.val
    if (getCtx c x).st = .teardown ∧ c.ras.hold = false ∧ c.queues.any (fun e => e.2.st != .free && e.2.ctx == x) = false then
      tearEnd c x
    else c) s

/-! ## CTX_CREATE, CTX_DESTROY and PART_TEARDOWN (06, Tables 6.7 to 6.10, R303-R305) -/

/-- The first check of a CTX_CREATE that fails, by its status (06, Table 6.8). -/
def ctxCheck (c : Core) (h : Hdr) (w : List Word) : Option Nat :=
  let p := wf (wat w 0) 40 4
  let off := (wat w 1).toNat
  let n := (wat w 2).toNat
  let st := (getCtx c h.ctx).st
  if !regPartCtrlEn c p then some 0x0E
  else if st = .live then some 0x12
  else if st ≠ .free then some 0x11
  else if off % 4096 ≠ 0 ∨ n % 4096 ≠ 0 ∨ n = 0 then some 0x0C
  else if regPartSaveSize c p < off + n then some 0x10
  else none

/-- CTX_CREATE (06, R279, R280, R303). -/
def execCtxCreate (s : State) : Host.Outcome State Fault Refusal :=
  mission (feDecode (· == 0x10) (fun c h w =>
    match ctxCheck c h w with
    | some st => answer c h st
    | none =>
      if (getCtx c h.ctx).gen = 0xFFFFFFFF then
        wrapStep { c with fe := { c.fe with busy := true, wrap := some (h, w, 0) } }
      else makeCtx c h w)) s

/-- A DEAD context is freed with its ABANDONED slots; how many they were (06, Table 6.2). -/
def freeDead (c : Core) (x : Nat) : Core × Nat :=
  let p := freeSlots c x
  (freeCtx p.1 x, p.2)

/-- A ring entry calls for a teardown: the FE waits for its step 1 (06, R281, R282). -/
def callTeardown (c : Core) (x cause : Nat) (h : Option Hdr) : Core :=
  let c := modCtx c x (fun (y : Ctx) => { y with called := true })
  contain { c with fe := { c.fe with busy := true } } { ctx := x, cause := cause, hdr := h }

/-- CTX_DESTROY (06, Table 6.2, R305, Table 6.10). -/
def execCtxDestroy (s : State) : Host.Outcome State Fault Refusal :=
  mission (feDecode (· == 0x11) (fun c h _ =>
    match (getCtx c h.ctx).st with
    | .free => answer c h 3
    | .live => callTeardown c h.ctx 1 (some h)
    | .teardown => modCtx c h.ctx (fun (y : Ctx) => { y with cause := 1, hdrs := y.hdrs ++ [h] })
    | .dead =>
      let p := freeDead c h.ctx
      answer p.1 h 0 (w64 (p.2 % 2 ^ 16 * 2 ^ 16)))) s

/-- A PART_TEARDOWN acts on one context (06, R305). -/
def partCall (c : Core) (x : Nat) : Core :=
  match (getCtx c x).st with
  | .free => c
  | .live => callTeardown c x 2 none
  | .teardown => modCtx c x (fun (y : Ctx) => { y with cause := joinCause y.cause 2 })
  | .dead => (freeDead c x).1

/-- PART_TEARDOWN (06, R303, R305). -/
def execPartTeardown (s : State) : Host.Outcome State Fault Refusal :=
  mission (feDecode (· == 0x17) (fun c h w =>
    let p := wf (wat w 0) 40 4
    if !regPartCtrlEn c p then answer c h 0x0E
    else
      let all := below 256 (fun x => (getCtx c x).st != .free && (getCtx c x).part == p)
      let live := all.filter (fun x => (getCtx c x).st == .live)
      let left := all.filter (fun x => (getCtx c x).st != .dead)
      let c := { c with fe := { c.fe with partTd := c.fe.partTd ++ [(h, left, all.length, live, 0, 0)] } }
      partAnswers (all.foldl partCall c))) s

/-! ## Objects and slots (06, Tables 6.6 to 6.10, R291, R298-R300) -/

/-- Context checks of the entries that need a LIVE context (06, Table 6.8). -/
def liveCheck (c : Core) (x : Nat) : Option Nat :=
  match (getCtx c x).st with
  | .free => some 3
  | .live => none
  | _ => some 0x11

/-- The first check of an OBJ_CREATE that fails, by its status (06, Table 6.8). -/
def objCheck (c : Core) (h : Hdr) (w : List Word) : Option Nat :=
  match liveCheck c h.ctx with
  | some st => some st
  | none =>
    let base := (wat w 2).toNat
    let n := (wat w 3).toNat
    if base % 256 ≠ 0 ∨ n % 256 ≠ 0 ∨ n = 0 then some 0x0C
    else if !inCarve c h.ctx base n then some 0x10
    else
      match otEntry c (bytesAt w 8 2) with
      | some e => if otState c e = 0 then none else some 0x0F
      | none => some 0x0F

/-- OBJ_CREATE (06, R303, Table 6.6). -/
def execObjCreate (s : State) : Host.Outcome State Fault Refusal :=
  mission (feDecode (· == 0x12) (fun c h w =>
    match objCheck c h w with
    | some st => answer c h st
    | none =>
      let x := getCtx c h.ctx
      let n := (wat w 3).toNat
      answer (otChange c (bytesAt w 8 2) (otMake (wat w 2).toNat n 1 h.ctx x.part 0 x.gen.toNat 0) [.created h.ctx n]) h 0)) s

/-- An object freed at decode, or DYING while references are held (06, R291). -/
def freeObj (c : Core) (h : Hdr) (n : Nat) (e : List Word) : Core :=
  let refs := otRefs e
  let c :=
    if refs = 0 then otChange c n (otWith e 0 0) [.freed h.ctx (otSize e)]
    else
      let e := otWith e 2 refs
      otChange c n [wat e 0, wat e 1, wat e 2, w64 (otGen e + h.index * 2 ^ 32)] [.dying h.ctx (otSize e)]
  answer c h 0 (w64 refs)

/-- OBJ_FREE (06, R291, R303, Table 6.10). -/
def execObjFree (s : State) : Host.Outcome State Fault Refusal :=
  mission (feDecode (· == 0x13) (fun c h w =>
    let n := bytesAt w 8 2
    match liveCheck c h.ctx with
    | some st => answer c h st
    | none =>
      if objSeen c h.ctx n = 0 then answer c h 9
      else if objSeen c h.ctx n = 2 then answer c h 0x0A
      else match otEntry c n with
        | some e => freeObj c h n e
        | none => answer c h 9)) s

/-- The object that a SYNC_CREATE makes; none where TYPE, ACCESS or INIT is out of range (06, Table 6.8; 09, R454, Table 9.1). -/
def newSync (h : Hdr) (w : List Word) : Option SyncObj :=
  let init := wat w 2
  let acc := byteAt w 5
  let o : SyncObj := { st := .live, access := acc, owner := h.ctx, value := init }
  if 2 < acc then none
  else
    match byteAt w 10 with
    | 0 => some { o with ty := .counter }
    | 1 => some { o with ty := .semaphore }
    | 2 => if 1 ≤ init.toNat ∧ init.toNat ≤ 65535 then some { o with ty := .barrier, value := 0, parties := init.toNat } else none
    | 3 => some { o with ty := .cookie, value := w64 (wf init 0 32), cookie := wf init 32 32 }
    | _ => none

/-- SYNC_CREATE: the ST makes the object, and the entry is answered then (06, R303; 09, R454, R467). -/
def execSyncCreate (s : State) : Host.Outcome State Fault Refusal :=
  mission (feDecode (· == 0x14) (fun c h w =>
    let n := bytesAt w 8 2
    match liveCheck c h.ctx with
    | some st => answer c h st
    | none =>
      match newSync h w with
      | none => answer c h 0x0C
      | some o =>
        if (getObj c n).st ≠ .free then answer c h 0x0F
        else stOffer { c with fe := { c.fe with busy := true } } (.create h n o))) s

/-- RXQ_CREATE (06, R303, Table 6.7; 10, R513). -/
def execRxqCreate (s : State) : Host.Outcome State Fault Refusal :=
  mission (feDecode (· == 0x15) (fun c h w =>
    let n := wf (wat w 1) 0 12
    let base := (wat w 2).toNat
    let len := bytesAt w 24 4
    match liveCheck c h.ctx with
    | some st => answer c h st
    | none =>
      if 2 < byteAt w 5 ∨ base % 256 ≠ 0 ∨ len % 256 ≠ 0 ∨ len < 4096 ∨ 2 ^ 26 < len then answer c h 0x0C
      else if !inCarve c h.ctx base len then answer c h 0x10
      else if (getRxq c n).st ≠ .free then answer c h 0x0F
      else answer (modRxq c n (fun _ => { st := .live, access := byteAt w 5, owner := h.ctx, base := base, bytes := len })) h 0)) s

/-- SLOT_FREE: a sync object is freed by the ST, and a receive queue closes (06, R298-R300, Table 6.8; 09, R467). -/
def execSlotFree (s : State) : Host.Outcome State Fault Refusal :=
  mission (feDecode (· == 0x16) (fun c h w =>
    let n := bytesAt w 8 2
    match liveCheck c h.ctx with
    | some st => answer c h st
    | none =>
      match byteAt w 5 with
      | 1 =>
        let o := getObj c n
        if o.st = .live ∧ o.owner = h.ctx then stOffer { c with fe := { c.fe with busy := true } } (.freeSlot h n)
        else answer c h 9
      | 2 =>
        let x := getRxq c n
        if x.st = .live ∧ x.owner = h.ctx then modRxq c n (fun o => { o with st := .closing, freeHdr := some h })
        else answer c h 9
      | _ => answer c h 0x0C)) s

end Sys2Proof.Machine
end

