-- ==== Sys2Proof/Machine/Graph.lean ====
section
/-! DEFINITION. Graph images loaded, patched and unloaded: the ring entries of Table 8.8, the checks of Table 8.7, and versions
made copy-on-write (08, R389-R410; 11, R582, R583). -/

namespace Sys2Proof.Machine

/-! ## The queue of operations (08, R399, R400) -/

/-- Partition of the accesses of an operation: its context's. -/
def gsPart (c : Core) (o : GsOp) : Nat := (getCtx c o.hdr.ctx).part

/-- The graph is LOADED and the context's (08, R396). -/
def graphMine (c : Core) (g x : Nat) : Bool := (getImg c g).st == .loaded && (getImg c g).owner == x

/-- The operation in progress ends with its record (08, R400, R401). -/
def gsEnd (c : Core) (o : GsOp) (status ver blocks : Nat) : Core :=
  gsAnswer { c with gs := { c.gs with ops := c.gs.ops.drop 1 } } o.hdr status ver blocks

/-- A load that fails: the graph is FREE again and its reference is released (08, R402). -/
def loadFail (c : Core) (o : GsOp) (status reason : Nat) : Core :=
  let c := gsEnd (modImg c o.graph (fun _ => {})) o status reason 0
  otPump { c with fe := { c.fe with rels := c.fe.rels ++ [o.obj] } }

/-- The header of a PGI is aligned and lies inside the object (08, R394, R395). -/
def headPlaced (o : GsOp) : Bool := decide (o.addr % 256 = 0 ∧ o.objBase ≤ o.addr ∧ o.addr + 256 ≤ o.objBase + o.objSize)

/-- The operation at the head begins, unless it is under way; one that fails at once makes way for the next (08, R395, R399,
R409). -/
def gsKickN : Nat → Core → Core
  | 0, c => c
  | k + 1, c =>
    match c.gs.ops with
    | [] => c
    | o :: _ =>
      if hasReq c (.pgi o.graph) then c
      else if o.load then
        if headPlaced o then mpRead c o.addr (gsPart c o) 256 (.pgi o.graph) else gsKickN k (loadFail c o 0x14 4)
      else if graphMine c o.graph o.hdr.ctx then mpRead c o.addr (gsPart c o) (64 * o.count) (.pgi o.graph)
      else gsKickN k (gsEnd c o 0x18 0 0)

/-- The operation at the head begins (08, R399). -/
def gsKick (c : Core) : Core := gsKickN 17 c

/-- An operation queued (08, R399). -/
def gsPush (c : Core) (o : GsOp) : Core := gsKick { c with gs := { c.gs with ops := c.gs.ops ++ [o] } }

/-! ## Ring entries (08, Table 8.8, R396, R398, R409) -/

/-- GRAPH_LOAD (08, R396, R398). -/
def execGraphLoad (s : State) : Host.Outcome State Fault Refusal :=
  mission (feDecode (· == 0x18) (fun c h w =>
    let g := wf (wat w 1) 0 12
    let n := bytesAt w 10 2
    match liveCheck c h.ctx with
    | some st => answer c h st
    | none =>
      if (getImg c g).st ≠ .free then answer c h 0x15
      else if objSeen c h.ctx n ≠ 1 then answer c h 9
      else if 1 < byteAt w 5 then answer c h 0x0C
      else
        let e := (otEntry c n).getD []
        let c := takeRef c n
        let c := modImg c g (fun _ => { st := .loading, owner := h.ctx, access := byteAt w 5, obj := n })
        gsPush c
          { hdr := h, graph := g, access := byteAt w 5, obj := n, objBase := otBase e, objSize := otSize e
            addr := (wat w 2).toNat })) s

/-- GRAPH_PATCH (08, R396). -/
def execGraphPatch (s : State) : Host.Outcome State Fault Refusal :=
  mission (feDecode (· == 0x19) (fun c h w =>
    let g := wf (wat w 1) 0 12
    let a := (wat w 2).toNat
    let n := bytesAt w 24 2
    match liveCheck c h.ctx with
    | some st => answer c h st
    | none =>
      if !graphMine c g h.ctx then answer c h 0x18
      else if a % 256 ≠ 0 ∨ n = 0 ∨ 1024 < n then answer c h 0x0C
      else if !inCarve c h.ctx a (64 * n) then answer c h 0x10
      else gsPush c { hdr := h, load := false, graph := g, addr := a, count := n })) s

/-- GRAPH_UNLOAD (08, R396, R409). -/
def execGraphUnload (s : State) : Host.Outcome State Fault Refusal :=
  mission (feDecode (· == 0x1A) (fun c h w =>
    let g := wf (wat w 1) 0 12
    match liveCheck c h.ctx with
    | some st => answer c h st
    | none =>
      if !graphMine c g h.ctx then answer c h 0x18
      else sweepGraph (modImg c g (fun y => { y with st := .unloading, unload := some h, nFreed := 0 })) g)) s

/-! ## The PGI header (08, Tables 8.6, 8.7) -/

/-- TASKS. -/
def pgTasks (hd : List Word) : Nat := bytesAt hd 8 2
/-- ROOTS. -/
def pgRoots (hd : List Word) : Nat := bytesAt hd 10 2
/-- EDGES. -/
def pgEdges (hd : List Word) : Nat := bytesAt hd 12 4
/-- AFFINITIES. -/
def pgAffs (hd : List Word) : Nat := bytesAt hd 16 2
/-- COSTS. -/
def pgCosts (hd : List Word) : Nat := bytesAt hd 20 4
/-- LIVESETS. -/
def pgLives (hd : List Word) : Nat := bytesAt hd 24 4

/-- Words of the five tables, in the order listed: tasks, edges, masks, costs with their header, live sets (08, Table 8.6; 11,
Tables 11.1, 11.5). -/
def pgWords (hd : List Word) : List Nat := [4 * pgTasks hd, pgEdges hd, pgAffs hd, 8 + pgCosts hd, 8 * pgLives hd]

/-- Offset of a table (08, Table 8.6). -/
def pgOff (hd : List Word) (k : Nat) : Nat := (wat hd (4 + k)).toNat

/-- The first check of the header that fails, by its reason (08, R395, Table 8.7). -/
def headBad (o : GsOp) (hd : List Word) : Option Nat :=
  let t := pgTasks hd
  let r := pgRoots hd
  let place (k : Nat) : Bool :=
    pgOff hd k % 256 == 0 && decide (o.addr + pgOff hd k + 8 * (pgWords hd).getD k 0 ≤ o.objBase + o.objSize)
  if wf (wat hd 0) 0 48 ≠ 0x0001_31494750 then some 1
  else if !decide (1 ≤ t ∧ t ≤ 60480 ∧ 1 ≤ r ∧ r ≤ t ∧ pgEdges hd % 64 = 0 ∧ pgAffs hd ≤ 252) then some 3
  else if !(List.range 5).all place then some 4
  else none

/-- Words of a table in the data of the tables. -/
def pgTable (hd data : List Word) (k : Nat) : List Word :=
  (List.range ((pgWords hd).getD k 0)).map (fun i => wat data (((pgWords hd).take k).sum + i))

/-! ## Record checks (08, Tables 8.4, 8.5, 8.7, R403) -/

/-- Reserved bits of a task record are zero (check 0x05). -/
def taskResOk (r : List Word) : Bool :=
  wf (wat r 1) 46 10 == 0 && wf (wat r 2) 0 14 == 0 && (if rcCane r then wf (wat r 3) 0 38 == 0 else wat r 3 == 0)

/-- Reserved bits of an edge record are zero (check 0x05). -/
def edgeResOk (e : Word) : Bool :=
  match wf e 62 2 with
  | 0 => wf e 0 46 == 0
  | 2 => wf e 20 42 == 0
  | _ => true

/-- CLASS and GANGM1 (check 0x06). -/
def taskClassOk (r : List Word) : Bool :=
  let n := rcGang r
  decide (1 ≤ rcClass r ∧ rcClass r ≤ 4) && (n == 1 || rcClass r == 1) && decide (n ≤ 64 ∨ n % 64 = 0)

/-- AFFINITY, COST_INDEX and LIVESET (check 0x09). -/
def taskIndexOk (r : List Word) (affs costs lives : Nat) : Bool := decide (rcAff r < affs ∧ rcCost r < costs ∧ rcLive r < lives)

/-- Cane fields (check 0x0B). -/
def taskCaneOk (r : List Word) : Bool := !rcCane r || ((rcCsrc r == 0 || rcCpslot r == 0) && rcMaxRepl r != 0)

/-- KIND and OP of an edge record (check 0x0C). -/
def edgeKindOk (e : Word) : Bool := wf e 62 2 != 3 && !(wf e 62 2 == 1 && wf e 60 2 == 3)

/-- The counted edges of a list from a slot of the PGI's edge table, and whether the list reaches them all inside blocks of 64
until a CHAIN (08, R393; check 0x08). -/
def edgeList (edges : List Word) : Nat → Nat → Nat → List Word × Bool
  | _, _, 0 => ([], true)
  | 0, _, _ => ([], false)
  | k + 1, at_, n + 1 =>
    match edges[at_]? with
    | none => ([], false)
    | some e =>
      if wf e 62 2 = 2 then edgeList edges k (wf e 0 20) (n + 1)
      else if n ≠ 0 ∧ (at_ + 1) % 64 = 0 then ([e], false)
      else
        let p := edgeList edges k (at_ + 1) n
        (e :: p.1, p.2)

/-- The edge list of a task record of a PGI. -/
def taskEdges (edges : List Word) (r : List Word) : List Word × Bool :=
  edgeList edges ((rcEdges r + 1) * (edges.length + 1)) (rcEdge r) (rcEdges r)

/-- The first check of the tables that fails, by its reason (08, R395, Table 8.7). -/
def tablesBad (c : Core) (o : GsOp) (hd data : List Word) : Option Nat :=
  let tasks : List (List Word) := (List.range (pgTasks hd)).map (fun t => ((pgTable hd data 0).drop (4 * t)).take 4)
  let edges := pgTable hd data 1
  let lists := tasks.map (taskEdges edges)
  let reached : List Word := lists.flatMap (·.1)
  let preds (t : Nat) : Nat := (reached.filter (fun e => wf e 62 2 == 0 && wf e 46 16 == t)).length
  let n := pgTasks hd
  if crc64 (wordsBytes (hd.take 31 ++ data.take (pgWords hd).sum)) ≠ wat hd 31 then some 2
  else if !(tasks.all taskResOk && edges.all edgeResOk) then some 5
  else if !tasks.all taskClassOk then some 6
  else if !(List.range n).all (fun t =>
      let i := rcInit (tasks.getD t [])
      i == preds t && (i == 0) == decide (t < pgRoots hd)) then some 7
  else if !(edges.all (fun e => wf e 62 2 != 0 || decide (wf e 46 16 < n)) && lists.all (·.2)) then some 8
  else if !tasks.all (fun r => taskIndexOk r (pgAffs hd) (pgCosts hd) (pgLives hd)) then some 9
  else if !tasks.all (fun r => inCarve c o.hdr.ctx (64 * rcDesc r) 64) then some 0x0A
  else if !tasks.all taskCaneOk then some 0x0B
  else if !edges.all edgeKindOk then some 0x0C
  else none

/-! ## Blocks taken (08, R389, R390) -/

/-- Free task-slot blocks. -/
def freeBlocks (c : Core) : List Nat := ((List.range 4080).map (· + 16)).filter (fun b => blockKind c b == 0)

/-- Free blocks taken; which of them the manual leaves open. -/
def takeBlocks : Nat → List Nat → Core → List Nat × Core
  | 0, _, c => ([], c)
  | k + 1, l, c =>
    let p := freeNat c
    let b := l.getD (p.1 % l.length) 0
    let r := takeBlocks k (l.filter (· != b)) p.2
    (b :: r.1, r.2)

/-- Starts of the free edge runs of a length (08, R390). -/
def edgeStarts (c : Core) (n : Nat) : List Nat :=
  below (16384 + 1 - n) (fun s => (run s n).all (fun b => !tget c.gs.edgeUse false b))

/-- Free task-slot blocks and, for a load, an edge run are had: the blocks and the base of the run (08, R402, R406). -/
def takeRoom (c : Core) (blocks edges : Nat) : Option (List Nat × Nat × Core) :=
  let l := freeBlocks c
  let starts := edgeStarts c edges
  if l.length < blocks ∨ starts = [] then none
  else
    let p := takeBlocks blocks l c
    let r := freeNat p.2
    some (p.1, starts.getD (r.1 % starts.length) 0, r.2)

/-- EDGE_INDEX of a record moved by a number of slots (08, R394). -/
def moveEdges (r : List Word) (n : Nat) : List Word :=
  [wat r 0, wat r 1, w64 (wf (wat r 2) 0 44 + (rcEdge r + n) % 2 ^ 20 * 2 ^ 44), wat r 3]

/-- An edge record at its slot: NEXT of a CHAIN is moved (08, R394). -/
def moveNext (e : Word) (n : Nat) : Word := if wf e 62 2 = 2 then w64 (2 ^ 63 + (wf e 0 20 + n) % 2 ^ 20) else e

/-- Chunk bit of a task slot written (11, R583). -/
def setChunk (c : Core) (slot : Nat) (b : Bool) : Core :=
  { c with marv := { c.marv with chunkMap := tset c.marv.chunkMap false slot b } }

/-- MIX_CLASS of a cost entry is 1 (11, Table 11.1). -/
def mixChunk (e : Word) : Bool := wf e 32 8 == 1

/-! ## Loads (08, R394, R395, R402; 11, R583) -/

/-- A PGI that passed every check goes into the GS (08, R391, R394, R402, Tables 8.1 to 8.3; 11, R583). -/
def loadImage (c : Core) (o : GsOp) (hd data : List Word) (blocks : List Nat) (base : Nat) : Core :=
  let g := o.graph
  let n := pgTasks hd
  let tasks : List (List Word) := (List.range n).map (fun t =>
    moveEdges (((pgTable hd data 0).drop (4 * t)).take 4) (64 * base))
  let edges := pgTable hd data 1
  let costs := pgTable hd data 3
  let tb := blocks.drop 2
  let v : Version := { num := 1, map := blocks.getD 1 0, tasks := n, roots := pgRoots hd, blocks := tb }
  let c := setKind (setKind c (blocks.getD 0 0) 1) v.map 2
  let part (k : Nat) : List (List Word) := (tasks.drop (60 * k)).take 60
  let block (k : Nat) : TaskBlock :=
    { counts := (List.range 60).map (fun i => rcInit ((part k).getD i [])), share := 1
      recs := ((List.range 60).map (fun i => (part k).getD i [0, 0, 0, 0])).flatten }
  let c := (List.range tb.length).foldl (fun c k => modBlock (setKind c (tb.getD k 0) 3) (tb.getD k 0) (fun _ => block k)) c
  let gs := c.gs
  let c := { c with gs := { gs with
    edges := (List.range edges.length).foldl (fun t i => tset t 0 (64 * base + i) (moveNext (wat edges i) (64 * base))) gs.edges
    edgeUse := (run base (edges.length / 64)).foldl (fun t b => tset t false b true) gs.edgeUse } }
  let c := modImg c g (fun (x : Img) => { x with
    st := .loaded, block := blocks.getD 0 0, edgeBase := base, edgeBlocks := edges.length / 64, pgiAddr := o.addr, cur := 1
    affs := pgTable hd data 2, versions := [v], costs := pgCosts hd, liveSets := pgLives hd, costOff := pgOff hd 3
    liveOff := pgOff hd 4, live := pgTable hd data 4 })
  let good := costGood .ok costs
  let c := if good then c else pageErr c pgSched 0x10 g 0
  let c := (List.range n).foldl (fun c t =>
    setChunk c (taskSlot v t) (good && mixChunk (wat costs (8 + rcCost (tasks.getD t []))))) c
  let c := gsEnd (cntAdd c pgGs 0x120 1) o 0 1 blocks.length
  if o.gone then sweepGraph (modImg c g (fun y => { y with st := .unloading, unload := none, nFreed := 0 })) g else c

/-- The tables of a PGI are in (08, R395, R402). -/
def loadTables (c : Core) (o : GsOp) (data : List Word) : Core :=
  let hd := o.head
  match tablesBad c o hd data with
  | some reason => loadFail c o 0x14 reason
  | none =>
    match takeRoom c (2 + (pgTasks hd + 59) / 60) (pgEdges hd / 64) with
    | none => loadFail c o 0x13 0
    | some (blocks, base, c) => loadImage c o hd data blocks base

/-- The head operation keeps words that it has read. -/
def keepHead (c : Core) (ws : List Word) : Core :=
  match c.gs.ops with
  | [] => c
  | o :: t => { c with gs := { c.gs with ops := { o with head := ws } :: t } }

/-- The table that is read next, once the header and so many words of the tables are in; none when every table is. -/
def nextTable (hd : List Word) (n : Nat) : Option Nat :=
  (List.range 5).find? (fun k => decide (n < ((pgWords hd).take (k + 1)).sum))

/-- A load goes on with the header and the table words that it has: one read for each table, in the order listed (08, R395). -/
def loadMore (c : Core) (o : GsOp) (ws : List Word) : Core :=
  match nextTable ws (ws.length - 32) with
  | some k => mpRead (keepHead c ws) (o.addr + pgOff ws k) (gsPart c o) (8 * (pgWords ws).getD k 0) (.pgi o.graph)
  | none => loadTables c { o with head := ws.take 32 } (ws.drop 32)

/-- The header of a PGI is in (08, R395). -/
def loadHeader (c : Core) (o : GsOp) (data : List Word) : Core :=
  let hd := (List.range 32).map (wat data)
  match headBad o hd with
  | some reason => loadFail c o 0x14 reason
  | none => loadMore c o hd

/-- A table of a PGI is in (08, R395). -/
def loadTable (c : Core) (o : GsOp) (data : List Word) : Core :=
  match nextTable o.head (o.head.length - 32) with
  | some k => loadMore c o (o.head ++ (List.range ((pgWords o.head).getD k 0)).map (wat data))
  | none => c

/-- GRAPH_LOAD_DONE: a read of the load in progress returns, the header's first and then the tables' (08, R395, R402, Table 8.9;
16, R806). -/
def execGraphLoadDone (st : QStatus) (data : List Word) (s : State) : Host.Outcome State Fault Refusal :=
  mission (fun c =>
    match c.gs.ops with
    | [] => c
    | o :: _ =>
      if !o.load then c
      else
        match takeReq c (.pgi o.graph) with
        | none => c
        | some (r, c) =>
          let c := notePoison c st (pageTy pgGs) r.addr
          gsKick (if st ≠ .ok then loadFail c o 0x17 0
            else if o.head = [] then loadHeader c o data else loadTable c o data)) s

/-! ## Patches (08, R403-R408; 11, R583) -/

/-- Task number of an entry of a patch list (08, Table 8.8). -/
def ptTask (l : List Word) (i : Nat) : Nat := wf (wat l (8 * i)) 0 16

/-- New record of an entry of a patch list. -/
def ptRec (l : List Word) (i : Nat) : List Word := (l.drop (8 * i + 4)).take 4

/-- An entry of a patch list keeps R403 (08). -/
def patchRecOk (c : Core) (o : GsOp) (v : Version) (l : List Word) (i : Nat) : Bool :=
  let x := getImg c o.graph
  let t := ptTask l i
  let r := ptRec l i
  let old := verRec c v t
  wf (wat l (8 * i)) 16 48 == 0 && (List.range 3).all (fun k => wat l (8 * i + 1 + k) == 0) && decide (t < v.tasks)
    && rcInit r == rcInit old && rcEdges r == rcEdges old && rcCane r == rcCane old
    && (rcEdge r + 64 * x.edgeBase) % 2 ^ 20 == rcEdge old
    && taskResOk r && taskClassOk r && taskIndexOk r x.affs.length x.costs x.liveSets
    && inCarve c o.hdr.ctx (64 * rcDesc r) 64 && taskCaneOk r

/-- The current version of a graph. -/
def curVersion (c : Core) (g : Nat) : Version :=
  ((getImg c g).versions.find? (fun (v : Version) => v.num == (getImg c g).cur)).getD {}

/-- The number of the next version: the current one plus 1, past 0 and every live number (08, R405). -/
def nextVersion (x : Img) : Nat :=
  (((List.range 65536).map (fun i => (x.cur + 1 + i) % 65536)).find? (fun n =>
    n != 0 && !x.versions.any (fun (v : Version) => v.num == n))).getD 0

/-- A touched block copied to a new one, with its chunk bits (08, R404; 11, R583). -/
def copyBlock (c : Core) (old new : Nat) : Core :=
  let c := modBlock (setKind c new 3) new (fun _ => { getBlock c old with share := 1 })
  (List.range 64).foldl (fun c i => setChunk c (64 * new + i) (tget c.marv.chunkMap false (64 * old + i))) c

/-- A patched record written over its copy (08, R394, R403, R404). -/
def writeRec (c : Core) (v : Version) (base : Nat) (t : Nat) (r : List Word) (chunk : Bool) : Core :=
  let k := 4 * (t % 60)
  let c := modBlock c (v.blocks.getD (t / 60) 0) (fun b =>
    { b with recs := b.recs.take k ++ moveEdges r (64 * base) ++ b.recs.drop (k + 4) })
  setChunk c (taskSlot v t) chunk

/-- A patch builds and commits a new version (08, R404-R408; 11, R583). -/
def commitPatch (c : Core) (o : GsOp) (cost : List Word) : Core :=
  let g := o.graph
  let x := getImg c g
  let old := curVersion c g
  let l := o.head
  let touched := ((List.range o.count).map (fun i => ptTask l i / 60)).dedup
  if max 1 (regGsCfgVersionLimit c) ≤ x.versions.length then gsEnd c o 0x13 0 0
  else
    match takeRoom c (1 + touched.length) 0 with
    | none => gsEnd c o 0x13 0 0
    | some (blocks, _, c) =>
      let tb := (List.range old.blocks.length).map (fun k =>
        match touched.idxOf? k with
        | some j => blocks.getD (1 + j) 0
        | none => old.blocks.getD k 0)
      let v : Version := { old with num := nextVersion x, map := blocks.getD 0 0, insts := 0, blocks := tb }
      let c := setKind c v.map 2
      let c := (List.range tb.length).foldl (fun c k =>
        let b := old.blocks.getD k 0
        if touched.contains k then copyBlock c b (tb.getD k 0) else modBlock c b (fun y => { y with share := y.share + 1 })) c
      let good := costGood .ok cost
      let c := if good then c else pageErr c pgSched 0x10 g 0
      let c := (List.range o.count).foldl (fun c i =>
        writeRec c v x.edgeBase (ptTask l i) (ptRec l i) (good && mixChunk (wat cost (8 + rcCost (ptRec l i))))) c
      let c := modImg c g (fun (y : Img) => { y with versions := v :: y.versions, cur := v.num })
      sweepGraph (gsEnd (cntAdd c pgGs 0x128 1) o 0 v.num blocks.length) g

/-- The list of a patch is in: the cost table, which holds the cost entry of each new record, is read (08, R403; 11, R583). -/
def patchList (c : Core) (o : GsOp) (data : List Word) : Core :=
  let l := (List.range (8 * o.count)).map (wat data)
  let x := getImg c o.graph
  if (List.range o.count).all (patchRecOk c o (curVersion c o.graph) l) then
    mpRead (keepHead c l) (x.pgiAddr + x.costOff) (gsPart c o) (64 + 8 * x.costs) (.pgi o.graph)
  else gsEnd c o 0x16 0 0

/-- GRAPH_PATCH_COMMIT: a read of the patch in progress returns, the list's first and then that of the cost table; a graph no longer
LOADED ends it (08, R403-R409, Table 8.9; 16, R806). -/
def execGraphPatchCommit (st : QStatus) (data : List Word) (s : State) : Host.Outcome State Fault Refusal :=
  mission (fun c =>
    match c.gs.ops with
    | [] => c
    | o :: _ =>
      if o.load then c
      else
        match takeReq c (.pgi o.graph) with
        | none => c
        | some (r, c) =>
          let c := notePoison c st (pageTy pgGs) r.addr
          gsKick (if !graphMine c o.graph o.hdr.ctx then gsEnd c o 0x18 0 0
            else if st ≠ .ok then gsEnd c o 0x17 0 0
            else if o.head = [] then patchList c o data
            else commitPatch c o data)) s

end Sys2Proof.Machine
end

