-- ==== Sys2Proof/Machine/Lehr.lean ====
section
/-! DEFINITION. The Lehr: its samples, its reports, its dump of the wait graph, and escalation (09, R490-R502). -/

namespace Sys2Proof.Machine

/-! ## Stall conditions (09, Table 9.7) -/

/-- Partition of an instance's context. -/
def instPart (c : Core) (i : Nat) : Nat := (getCtx c (getInst c i).ctx).part

/-- The sequencers that hold a program of a partition, with the queue of each. -/
def partSqs (c : Core) (p : Nat) : List (Nat × Nat) :=
  c.sqs.filterMap (fun (e : Nat × Sq) => match e.2.q with
    | some q => if qPart c q = p then some (e.1, q) else none
    | none => none)

/-- A SEND, a SELECT on a GLOBAL receive queue, or a WAIT on a GLOBAL or remote object: a wait that another partition may
end.  For the die as a whole, GLOBAL objects and queues count as internal (09, Table 9.7, R492). -/
def externalWait (c : Core) (die : Bool) : Stall → Bool
  | .send _ _ _ _ _ | .sendBackoff _ _ _ _ _ | .waitRemote _ _ _ _ => true
  | .waitObj h _ => !die && decide (2 ≤ (getObj c h).access)
  | .select base mask _ _ => !die && (selQueues base mask).any (fun r => decide (2 ≤ (getRxq c r).access))
  | _ => false

/-- A WAIT of KIND 1 or 2. -/
def tallyWait : Stall → Bool
  | .waitTally _ => true
  | _ => false

/-- Instances that have work in hand: a ready entry, a held task or copy, or a chunk copy not yet released (09, Table 9.7). -/
def workInsts (c : Core) : List Nat :=
  let ready : List Ready := c.de.due ++ c.de.hold ++ c.de.coord ++
    c.lanes.flatMap (fun (e : Nat × Lane) =>
      e.2.ready ++ e.2.wakes.map (fun w => w.entry) ++ (match e.2.resv with | some r => [r.1] | none => []))
  ready.map (fun e => e.inst)

/-- Queues of a partition: those in use whose context is bound to it. -/
def partQueues (c : Core) (p : Nat) : List (Nat × Queue) :=
  c.queues.filter (fun (e : Nat × Queue) => e.2.st != .free && (getCtx c e.2.ctx).part == p)

/-- A queue's state allows its partition to be stalled (09, Table 9.7, second condition). -/
def queueStuck (x : Queue) : Bool :=
  x.st == .idle || x.st == .blocked || (x.st == .guilty && x.held)

/-- An instance's state allows its partition to be stalled: no open issue, no held copy and no LAUNCH_AT to come. -/
def instStuck (x : Inst) : Bool :=
  decide (x.openN = 0) && x.at_.isNone
    && !x.mslots.any (fun (e : Nat × MSlot) => e.2.task.isSome && decide (e.2.released < e.2.n))

/-- Every condition of Table 9.7 holds for a partition; with `die`, waits on GLOBAL objects count as internal (09, R490,
R492). -/
def partStill (c : Core) (die : Bool) (p : Nat) : Bool :=
  let qs := partQueues c p
  let ss := (partSqs c p).map (fun e => (getSq c e.1).stall)
  let waited := ss.filterMap (fun (x : Stall) => match x with | .waitObj h _ => some h | _ => none)
  qs.any (fun e => e.2.st == .blocked) && qs.all (fun e => queueStuck e.2)
    && c.isr.insts.all (fun (e : Nat × Inst) => (getCtx c e.2.ctx).part != p || e.2.st == .free || instStuck e.2)
    && !(workInsts c).any (fun i => instPart c i == p)
    && !c.shr.routes.any (fun r => routePart c r == p)
    && !c.marv.reqs.any (fun r => instPart c r.inst == p)
    && !ss.any (fun x => tallyWait x || externalWait c die x)
    && !c.st.fifo.any (fun x => waited.contains (opObj x)
        || ((getObj c (opObj x)).st != .free && (getCtx c (getObj c (opObj x)).owner).part == p))

/-- The die as a whole is stalled: some partition holds a BLOCKED queue, and every such one is stalled (09, R492). -/
def dieStill (c : Core) : Bool :=
  let ps := below 16 (fun p => (partQueues c p).any (fun e => e.2.st == .blocked))
  !ps.isEmpty && ps.all (partStill c true)

/-- The conditions of Table 9.7 looked at in one tclk: the partitions, and the die, in which one fails are noted until the
next sample (09, R490, R492). -/
def lehrWatch (c : Core) : Core :=
  let bad : BitVec 16 := BitVec.ofNat 16 ((below 16 (fun p => !partStill c false p)).foldl (fun a p => a + 2 ^ p) 0)
  { c with lehr := { c.lehr with moved := c.lehr.moved ||| bad, dieMoved := c.lehr.dieMoved || !dieStill c } }

/-- The time since which a partition has been stalled, after a sample. -/
def sinceNext (t : Word) (stall : BitVec 16) (old : Tbl Word) : Tbl Word :=
  (below 16 (fun p => stall.getLsbD p)).map (fun p => (p, (tfind old p).getD t))

/-- LEHR_SAMPLE: every partition and the die are sampled, while the Lehr is on (09, R490-R492). -/
def execLehrSample (s : State) : Host.Outcome State Fault Refusal :=
  mission (fun c =>
    if !regLehrCtrlEn c then c
    else
      let c := lehrWatch c
      let x := c.lehr
      let stall := ~~~x.moved
      { c with lehr := { x with
          stall := stall
          since := sinceNext (now c) stall x.since
          told := x.told &&& stall
          dieSince := if x.dieMoved then none else some (x.dieSince.getD (now c))
          dieTold := x.dieTold && !x.dieMoved
          moved := 0
          dieMoved := false } }) s

/-! ## Dump (09, R499-R502, Tables 9.8 and 9.9) -/

/-- Q_STATE.STATE (05, Table 5.14). -/
def queueCode : QState → Nat
  | .free => 0 | .idle => 1 | .ready => 2 | .running => 3 | .blocked => 4 | .preempted => 5 | .guilty => 6 | .destroying => 7

/-- SQ_STALL.CAUSE of a stalled command (07, Table 7.13). -/
def stallCause (c : Core) (sq : Nat) (x : Stall) : Nat :=
  match x with
  | .waitObj _ _ | .waitRemote _ _ _ _ | .waitTally _ | .waitInst _ => 1
  | .select _ _ _ _ => 2
  | .send _ _ _ _ _ | .sendBackoff _ _ _ _ _ => 3
  | .launch => if stallBlocks c sq x then 4 else 0
  | .enter => 5
  | .ldshape _ _ | .stshape => 6
  | .drain => 7
  | .none | .sig | .point => 0

/-- State code of a sync object or receive queue (09, Table 9.2). -/
def slotCode : SlotState → Nat
  | .free => 0 | .live => 1 | .abandoned => 2 | .closing => 3

/-- Type code of a sync object (09, Table 9.1). -/
def tyCode : SyncTy → Nat
  | .counter => 0 | .semaphore => 1 | .barrier => 2 | .cookie => 3

/-- What a command waits on, as a dump record says it: OBJECT, OBJ_INFO, OBJ_DIE, HOLDER_Q, OBJ_VALUE and WANT.  The type
of a remote object is not known on this die, and a receive queue has none: both read 0 (09, Table 9.9; log entry 22). -/
def waitInfo (c : Core) (sq : Nat) : Stall → Nat × Nat × Nat × Nat × Word × Word
  | .waitObj h opd =>
    let o := getObj c h
    let want := match o.ty, o.waits.find? (fun w => w.who == .sq sq) with
      | .barrier, some w => w64 w.x
      | _, _ => opd
    (h, tyCode o.ty + 8 * slotCode o.st, dieId c, if o.ty = .semaphore then o.holder.getD 0xFFFF else 0xFFFF, o.value, want)
  | .waitRemote die h opd _ => (h, 4, die, 0xFFFF, 0, opd)
  | .waitTally x => (0, 0, 0, 0xFFFF, 0, x)
  | .select base _ _ _ => (base, 8 * slotCode (getRxq c base).st, dieId c, 0xFFFF, 0, 0)
  | .send m die _ _ n => (m.rxq, match die with | some _ => 4 | none => 8 * slotCode (getRxq c m.rxq).st,
      die.getD (dieId c), 0xFFFF, 0, w64 n)
  | .sendBackoff m die _ _ n => (m.rxq, match die with | some _ => 4 | none => 8 * slotCode (getRxq c m.rxq).st,
      die.getD (dieId c), 0xFFFF, 0, w64 (n - 1))
  | _ => (0, 0, 0, 0xFFFF, 0, 0)

/-- Dump record of a queue, four words (09, Table 9.9). -/
def dumpRec (c : Core) (q : Nat) : List Word :=
  let x := getQ c q
  let sq := getSq c x.sq
  let onSq := sq.q == some q
  let runs := onSq && (x.st == .running || x.st == .blocked)
  let cause := if !runs then 0 else if sq.halted then 8 else stallCause c x.sq sq.stall
  let (obj, info, die, holder, value, want) := if onSq then waitInfo c x.sq sq.stall else (0, 0, 0, 0xFFFF, 0, 0)
  [w64 (q + x.ctx * 2 ^ 16 + queueCode x.st * 2 ^ 24 + x.sq * 2 ^ 32 + cause * 2 ^ 40 + (if onSq then sq.pc else 0) * 2 ^ 48),
   w64 (obj + info * 2 ^ 16 + die * 2 ^ 24 + holder * 2 ^ 32), value, want]

/-- The first 56 bytes of a dump header (09, Table 9.8). -/
def dumpHead (c : Core) (kind part subject n : Nat) : List Word :=
  [w64 (0x4C454852 + 2 ^ 32 * 1 + kind * 2 ^ 48 + part * 2 ^ 56), now c, cntGet c pgLehr 0x140 + 1,
   w64 (n + dieId c * 2 ^ 16 + subject * 2 ^ 32), 0, 0, 0]

/-- Words padded with zeros to 256 B. -/
def pad256 (l : List Word) : List Word := l ++ List.replicate (32 - l.length) 0

/-- The record writes of a dump: eight records each, at offset 0x100 on (09, R499). -/
def dumpWrites : Nat → Nat → List Word → Core → Core
  | 0, _, _, c => c
  | k + 1, n, l, c =>
    dumpWrites k (n + 1) (l.drop 32)
      (mpWrite c (regLehrDumpBase c + 0x100 + 256 * n) 0 (pad256 (l.take 32)) (.dump n))

/-- The header is written once every record write has been acknowledged (09, R499). -/
def dumpHeader (c : Core) (d : Dump) : Core :=
  mpWrite { c with lehr := { c.lehr with dump := some { d with last := true } } } (regLehrDumpBase c) 0 (pad256 d.header) (.dump 64)

/-- A dump starts, unless none is asked for or one is in progress (09, R499, R500). -/
def startDump (c : Core) (kind part subject : Nat) (qs : List Nat) : Core :=
  if regLehrDumpBase c = 0 then c
  else if c.lehr.dump.isSome then cntAdd c pgLehr 0x148 1
  else
    let recs := qs.flatMap (dumpRec c)
    let head := dumpHead c kind part subject qs.length
    let crc := crc64 (wordsBytes head ++ wordsBytes recs)
    let n := (qs.length + 7) / 8
    let d : Dump := { header := head ++ [crc], left := n }
    if n = 0 then dumpHeader c d else dumpWrites n 0 recs { c with lehr := { c.lehr with dump := some d } }

/-- DUMP_WRITE_ACK: a write of the dump is acknowledged; record writes are told by their place, the header by 64 (09, R499,
R501). -/
def execDumpWriteAck (n : Nat) (st : QStatus) (s : State) : Host.Outcome State Fault Refusal :=
  mission (fun c =>
    match takeReq c (.dump n), c.lehr.dump with
    | some (r, c), some d =>
      let c := notePoison c st (pageTy pgLehr) r.addr
      let c := if st = .ok then c else pageErr c pgLehr 0x10 (r.addr % 2 ^ 32) 0
      if d.last then
        let c := { c with lehr := { c.lehr with dump := none } }
        if st = .ok then cntAdd c pgLehr 0x140 1 else c
      else
        let d := { d with left := d.left - 1, failed := d.failed || st != .ok }
        if 0 < d.left then { c with lehr := { c.lehr with dump := some d } }
        else if d.failed then { c with lehr := { c.lehr with dump := none } }
        else dumpHeader c d
    | some (r, c), none => notePoison c st (pageTy pgLehr) r.addr
    | none, _ => c) s

/-! ## Reports (09, R491-R498) -/

/-- IRQ_RAW bit of a report's kind (09, R508). -/
def lehrBit (kind : Nat) : Nat := if kind = 1 then 2 else if kind = 4 then 4 else 3

/-- Offset of the counter of a report's kind (09, Table 9.12). -/
def lehrCnt (kind : Nat) : Nat := if kind = 1 then 0x128 else if kind = 4 then 0x138 else 0x130

/-- A report: its IRQ_RAW bit, LEHR_STAT, its count and its dump (09, R496, R497). -/
def lehrReport (c : Core) (kind part subject : Nat) (qs : List Nat) : Core :=
  let c := { c with lehr := { c.lehr with
    lastKind := kind, lastPart := part, reports := c.lehr.reports ++ [{ kind := kind, at_ := now c }] } }
  startDump (irqSet (cntAdd c pgLehr (lehrCnt kind) 1) pgLehr (lehrBit kind)) kind part subject qs

/-- DEADLOCK: a partition, or the die (`none`), has been stalled at every sample for LEHR_WIN (09, R491, R492). -/
def execDeadlock (part : Option (Fin 16)) (s : State) : Host.Outcome State Fault Refusal :=
  mission (fun c =>
    let x := c.lehr
    if !regLehrCtrlEn c then c
    else
      match part with
      | some p =>
        match tfind x.since p.val with
        | some t =>
          if x.told.getLsbD p.val ∨ passedUs c t (regLehrWin c) = false then c
          else
            lehrReport { c with lehr := { x with told := x.told ||| BitVec.ofNat 16 (2 ^ p.val) } } 1 p.val 0
              ((partQueues c p.val).map (fun e => e.1))
        | none => c
      | none =>
        match x.dieSince with
        | some t =>
          if x.dieTold ∨ passedUs c t (regLehrWin c) = false then c
          else
            let ps := below 16 (fun p => (partQueues c p).any (fun e => e.2.st == .blocked))
            lehrReport { c with lehr := { x with dieTold := true } } 1 0xFF 0
              (sortBy id ((ps.flatMap (partQueues c)).map (fun e => e.1)))
        | none => c) s

/-- Retries that a waiting SEND has made. -/
def sendTries : Stall → Option Nat
  | .send _ _ _ _ n => some n
  | .sendBackoff _ _ _ _ n => some (n - 1)
  | _ => none

/-- Reports of SENDs and issues that are over are forgotten: a later one is another SEND or issue (09, R493, R495). -/
def lehrForget (c : Core) : Core :=
  { c with lehr := { c.lehr with
      sendTold := c.lehr.sendTold.filter (fun n => decide (0 < (sendTries (getSq c n).stall).getD 0))
      stuckTold := c.lehr.stuckTold.filter (fun e => match tfind (getLane c e.1).issues e.2 with
        | some x => x.abort.isSome
        | none => false) } }

/-- LIVELOCK_SEND: the SEND of a sequencer has retried RETRY_LIMIT times without an ACK (09, R493). -/
def execLivelockSend (sq : Fin 32) (s : State) : Host.Outcome State Fault Refusal :=
  mission (fun c =>
    let c := lehrForget c
    match (getSq c sq.val).q, sendTries (getSq c sq.val).stall with
    | some q, some n =>
      if !regLehrCtrlEn c ∨ n < regLehrLimRetryLimit c ∨ n = 0 ∨ sq.val ∈ c.lehr.sendTold then c
      else lehrReport { c with lehr := { c.lehr with sendTold := sq.val :: c.lehr.sendTold } } 2 0 q [q]
    | _, _ => c) s

/-- Queues whose program waits in SELECT on a receive queue (09, "The dump"). -/
def selectors (c : Core) (rxq : Nat) : List Nat :=
  sortBy id (c.sqs.filterMap (fun (e : Nat × Sq) => match e.2.q, e.2.stall with
    | some q, .select base mask _ _ => if rxq ∈ selQueues base mask then some q else none
    | _, _ => none))

/-- LIVELOCK_RXQ: a receive queue has NACKed NACK_LIMIT messages within one LEHR_WIN, and no record has been consumed from
it in that time (09, R494).  It is reported once until a record is consumed (log entry 22). -/
def execLivelockRxq (rxq : Fin 4096) (s : State) : Host.Outcome State Fault Refusal :=
  mission (fun c =>
    let l := tget c.lehr.nacks [] rxq.val
    let n := regLehrLimNackLimit c
    if !regLehrCtrlEn c ∨ rxq.val ∈ c.lehr.rxqTold then c
    else
      match l.head?, l[n - 1]? with
      | some a, some b =>
        if (a - b).toNat ≤ regLehrWin c * 1000 then
          lehrReport { c with lehr := { c.lehr with rxqTold := rxq.val :: c.lehr.rxqTold } } 3 0 rxq.val
            (selectors c rxq.val)
        else c
      | _, _ => c) s

/-- STUCK_ABORT: an issue has no completion ABORT_WIN after its abort beat (09, R495). -/
def execStuckAbort (lane : Fin 64) (id : Fin 256) (s : State) : Host.Outcome State Fault Refusal :=
  mission (fun c =>
    let c := lehrForget c
    match tfind (getLane c lane.val).issues id.val with
    | some x =>
      if regLehrCtrlEn c && x.abort.isSome && passedUs c x.abortAt (regLehrAbortWin c)
          && !c.lehr.stuckTold.contains (lane.val, id.val) then
        lehrReport { c with lehr := { c.lehr with stuckTold := (lane.val, id.val) :: c.lehr.stuckTold } } 4 0 x.eng [x.q]
      else c
    | none => c) s

/-- A report's kind is set in ESC_MASK: bit 4 DEADLOCK, bit 5 both LIVELOCK kinds, bit 6 STUCK_ABORT (09, Table 9.12). -/
def escMasked (c : Core) (kind : Nat) : Bool := wbit (w64 (regLehrCtrlEscMask c)) (lehrBit kind - 2)

/-- A report escalates now (09, R497). -/
def escDue (c : Core) (r : Report) : Bool :=
  escMasked c r.kind && rbit (getPage c pgLehr).irqRaw (lehrBit r.kind) && passedUs c r.at_ (regLehrEscWin c)

/-- Reports whose IRQ_RAW bit has been cleared no longer escalate (09, R497). -/
def reportsCleared (c : Core) : Core :=
  { c with lehr := { c.lehr with reports := c.lehr.reports.filter (fun r => rbit (getPage c pgLehr).irqRaw (lehrBit r.kind)) } }

/-- LEHR_ESCALATE: a masked report whose IRQ_RAW bit is still set ESC_WIN after it escalates; with ESC_RESET, a watchdog
reset starts (09, R497, R498). -/
def execLehrEscalate (s : State) : Host.Outcome State Fault Refusal :=
  missionReset (fun c =>
    match ltake (escDue c) c.lehr.reports with
    | some (_, t) =>
      let c := { c with lehr := { c.lehr with reports := t, escalated := true } }
      if regLehrCtrlEscReset c then { c with rstReq := some 5 } else c
    | none => c) s

end Sys2Proof.Machine
end

