-- ==== Sys2Proof/Machine/Tally.lean ====
section
/-! DEFINITION. The Tally and what counts by tclk: the update of the Tally in each tclk, the alarms that it passes, backward
steps and the loss of lock, and the counts of engines and sequencers (02, R96-R102; 06, R310; 11, R575, R601; 17, Table 17.1). -/

namespace Sys2Proof.Machine

/-! ## Sequencer state (07, Table 7.13) -/

/-- A program is parked: by a fault of another submission of its queue, by a debug halt, or, at a command boundary or in a
command that waits, by quiescing (05, R851; 07, R383; 17, R831). -/
def sqParked (c : Core) (sq : Nat) : Bool :=
  let s := getSq c sq
  sqHeld c sq || (match s.q with
    | some q => (getQ c q).parked || (c.qsc.req && (s.stall == .none || stallBlocks c sq s.stall))
    | none => false)

/-- SQ_STAT.STATE: 0 IDLE, 1 RUNNING, 2 STALLED, 3 PARKED (07, Table 7.13; 17, R831). -/
def sqState (c : Core) (sq : Nat) : Nat :=
  let s := getSq c sq
  if sqParked c sq then 3
  else if s.q = none then 0
  else if stallCause c sq s.stall ≠ 0 then 2
  else 1

/-- SQ_STALL.CAUSE of a sequencer (07, Table 7.13). -/
def sqCause (c : Core) (sq : Nat) : Nat :=
  if sqParked c sq then 8
  else if (getSq c sq).q = none then 0
  else stallCause c sq (getSq c sq).stall

/-! ## Counts of a tclk -/

/-- Owner of an issue's events (17, Table 17.1). -/
def issueOwner (c : Core) (x : Issue) : Owner :=
  { ctx := some x.ctx, part := some (getCtx c x.ctx).part, q := some x.q, lane := some x.lane }

/-- The engines that hold an issue, each with the issue's owner: those of its span that have not completed (06, R310; 08,
R441). -/
def engineHolds (c : Core) : List (Nat × Owner) :=
  (c.lanes.flatMap (fun (e : Nat × Lane) => e.2.issues.map (fun (x : Nat × Issue) => x.2))).flatMap
    (fun (x : Issue) => ((run x.eng x.span).filter (fun e => !x.got.any (fun g => g.1 == e))).map
      (fun e => (e, issueOwner c x)))

/-- How many different engines of a range hold an issue that a filter accepts. -/
def engineCount (l : List (Nat × Owner)) (lo hi : Nat) (p : Owner → Bool) : Nat :=
  ((l.filter (fun e => decide (lo ≤ e.1 ∧ e.1 < hi) && p e.2)).map (fun e => e.1)).eraseDups.length

/-- A level counted in a tclk by every counter that selects its event: the increment depends on the counter's filter (17,
R814, R817). -/
def pmuLevel (c : Core) (ev : Nat) (f : (Owner → Bool) → Nat) : Core :=
  if regPmuCtrlFreeze c then c
  else c.rs.regs.foldl (fun c e =>
    if decide (0x7C00 ≤ e.1 ∧ e.1 < 0x8000) && rbit e.2 31 && rf e.2 0 12 == ev then
      { c with pmu := { c.pmu with
        cnt := tmod c.pmu.cnt 0 ((e.1 - 0x7C00) / 4) (fun x => x + w64 (f (fun o => passes o (rf e.2 28 3) (rf e.2 19 9)))) } }
    else c) c

/-- Engines whose cg_ack is high on the lanes that a filter accepts (17, event 0x046). -/
def gatedCount (c : Core) (p : Owner → Bool) : Nat :=
  (c.engs.filter (fun (e : Nat × Eng) => e.2.cgAck && p { lane := some (engPlace e.1).1 })).length

/-- Sequencers that are STALLED or PARKED, with the owner of each (17, event 0x021). -/
def sqWaits (c : Core) : List (Nat × Owner) :=
  c.sqs.filterMap (fun (e : Nat × Sq) =>
    if 2 ≤ sqState c e.1 then some (e.1, match e.2.q with | some q => ownQ c q | none => {}) else none)

/-- The events of Table 17.1 that count a level in each tclk (17, R814). -/
def pmuLevels (c : Core) (l : List (Nat × Owner)) : Core :=
  let w := sqWaits c
  let held := b2n (c.de.hold != [])
  let c := pmuEv c 0x001 1 {}
  let c := pmuLevel c 0x021 (fun p => (w.filter (fun e => p e.2)).length)
  let c := pmuEv c 0x035 held {}
  let c := pmuLevel c 0x042 (engineCount l 0 0x1000)
  let c := pmuLevel c 0x043 (engineCount l 0x1000 0x1080)
  let c := pmuLevel c 0x044 (engineCount l 0x1080 0x10C0)
  let c := pmuLevel c 0x045 (engineCount l 0x10C0 0x10E0)
  pmuLevel c 0x046 (gatedCount c)

/-- Contexts of a list of owners. -/
def ownerCtxs (l : List (Nat × Owner)) : List Nat := (l.filterMap (fun e => e.2.ctx)).eraseDups

/-- ENG_TIME of every context: the engines that hold an issue of it in this tclk (06, R310). -/
def engTimes (c : Core) (l : List (Nat × Owner)) : Core :=
  (ownerCtxs l).foldl (fun c x =>
    modCtx c x (fun y => { y with engTime := y.engTime + w64 (engineCount l 0 0x2000 (fun o => o.ctx == some x)) })) c

/-- STALL_TCLK of every sequencer (07, Table 7.13). -/
def stallTclk (c : Core) : Core := (sqWaits c).foldl (fun c e => cntAdd c (pgSq e.1) 0x138 1) c

/-- The Lehr's look at the conditions of Table 9.7 in this tclk; while it is off, no partition counts as stalled (09, R490,
R492). -/
def lehrTick (c : Core) : Core :=
  if regLehrCtrlEn c then lehrWatch c
  else { c with lehr := { c.lehr with moved := BitVec.allOnes 16, dieMoved := true } }

/-- What is counted in a tclk (06, R310; 07, Table 7.13; 09, R490; 11, R575, R601; 17, Table 17.1). -/
def tclkCounts (c : Core) : Core :=
  let l := engineHolds c
  let c := { c with tclk := c.tclk + 1 }
  let c := engTimes (pmuLevels c l) l
  let c := stallTclk c
  let c := { c with marv := { c.marv with busy := c.marv.busy + engineCount l 0 0x1000 (fun _ => true), span := c.marv.span + 1 } }
  lehrTick (markActive c)

/-- Full saves that flagged queues owe while their programs wait are taken as soon as nothing stands against them (11, R616). -/
def lateSaves (c : Core) : Core :=
  (c.queues.filter (fun (e : Nat × Queue) => e.2.pointLate)).foldl (fun c e => lateSave c e.2.sq) c

/-! ## The Tally (02, Table 2.13) -/

/-- A backward move of the Tally is recorded (02, R101). -/
def backStep (c : Core) (t : Word) : Core :=
  if geW t (now c) then c
  else irqSet (cntAdd { c with tu := { c.tu with backLast := now c - t } } pgTu 0x118 1) pgTu 3

/-- The Tally takes a value, and the alarms that it passes are due (02, R96, R100, R101; 11, R593). -/
def setTally (c : Core) (t : Word) : Core :=
  alarmsPass { backStep c t with tu := { (backStep c t).tu with tally := t } }

/-- One tclk: its counts, then the new Tally.  A high tally_lock is seen; its fall is a command of its own (02, R96, R102). -/
def tick (c : Core) (t : Word) (lock : Bool) : Core :=
  let c := tclkCounts c
  let c := { c with tu := { c.tu with lock := c.tu.lock || lock } }
  lateSaves (setTally c t)

/-- The level of tally_lock on its pin. -/
def pinLock (s : State) (lock : Bool) : State := { s with pins := { s.pins with lock := s.pins.lock || lock } }

/-- TALLY_LOAD: a tclk in which tally_load is high.  In value mode the load strobe is ignored, and the Tally takes the value as
in every tclk (02, Table 2.13, R96, R99). -/
def execTallyLoad (val : Word) (lock : Bool) (s : State) : Host.Outcome State Fault Refusal :=
  mission (fun c => tick { c with tu := { c.tu with loaded := true } } val lock) (pinLock s lock)

/-- TALLY_STEP: a tclk without a load.  In step mode the Tally stays zero until the first load (02, Table 2.13, R96, R99). -/
def execTallyStep (ns : BitVec 2) (val : Word) (lock : Bool) (s : State) : Host.Outcome State Fault Refusal :=
  mission (fun c =>
    tick c (if c.bring.straps.tallySrc then val else if c.tu.loaded then now c + w64 ns.toNat else now c) lock) (pinLock s lock)

/-- LOCK_LOST: tally_lock falls (02, R102). -/
def execLockLost (s : State) : Host.Outcome State Fault Refusal :=
  mission (fun c =>
    if c.tu.lock then irqSet (cntAdd { c with tu := { c.tu with lock := false } } pgTu 0x110 1) pgTu 2 else c)
    { s with pins := { s.pins with lock := false } }

end Sys2Proof.Machine
end

