-- ==== Sys2Proof/Machine/Tables.lean ====
section
/-! DEFINITION. The realign pass (09, R485-R489), and the shadow and the flip of the table epochs (13, R704-R707). -/

namespace Sys2Proof.Machine

/-! ## The realign pass (09, R485-R489) -/

/-- Bytes of a stream's transfers that are open in the lane issue tables (13, "Counts and drift"). -/
def inFlight (c : Core) (n : Nat) : Nat :=
  (issuesWhere c (issueOfStream n)).length * steXfer (getStream c n).cur.entry

/-- Drift of one stream corrected: the consumer count becomes the producer count less the bytes in flight (09, R487). -/
def driftFix (c : Core) (n : Nat) : Core :=
  let x := getStream c n
  let want := x.pcount - inFlight c n
  if x.ccount = want then c
  else
    let c := modStream c n (fun (x : Stream) => { x with ccount := want })
    let c := cntAdd (cntAdd c pgSt 0x1A0 1) pgSt 0x1A8 ((x.ccount : Int) - want).natAbs
    irqSet { c with st := { c.st with driftLast := n } } pgSt 4

/-- Every armed stream's counts compared (09, R487). -/
def driftPass (c : Core) : Core :=
  (c.strm.slots.filter (fun (e : Nat × Stream) => e.2.st == .active)).foldl (fun c e => driftFix c e.1) c

/-- Waiters of this die that are registered on any object. -/
def waitersHere (c : Core) : Nat := (c.st.objs.map (fun (e : Nat × SyncObj) => localWaiters e.2)).sum

/-- Every registered waiter checked against its object; the releases are lost wakeups (09, R488). -/
def wakePass (c : Core) : Core :=
  let before := waitersHere c
  let c := (c.st.objs.map (fun (e : Nat × SyncObj) => e.1)).foldl serveObj c
  let n := before - waitersHere c
  if n = 0 then c else irqSet (cntAdd c pgSt 0x1B8 n) pgSt 4

/-- REALIGN_PASS: the alarm of a pass fires; during bring-up no pass runs (09, R485-R489; 11, R857).  A pass is one step here,
so none falls due during another (log entry 23). -/
def execRealignPass (s : State) : Host.Outcome State Fault Refusal :=
  mission (fun c =>
    if c.ras.hold then c
    else
      match alarmFire c 5 0 with
      | none => c
      | some (a, c) =>
        let c := armPeriod c 5 (regStRealignPeriod c) a.at_
        if isUp c then detachAll (wakePass (driftPass (cntAdd c pgSt 0x190 1))) else cntAdd c pgSt 0x198 1) s

/-- Passes that fell due during quiescing do not run: each whole multiple of the period up to the Tally counts as one, and the
next alarm is armed (09, R489). -/
def realignSkipped (c : Core) : Core :=
  match ltake (alarmIs 5 0) c.tu.due with
  | none => c
  | some (a, t) =>
    let us := regStRealignPeriod c
    let n := if us = 0 then 1 else (now c - a.at_).toNat / (us * 1000) + 1
    let c := cntAdd (cntAdd { c with tu := { c.tu with due := t } } pgTu 0x130 n) pgSt 0x198 n
    armPeriod (trace c 0x0D {} 0 0 a.at_ 0x50000) 5 us (now c)

/-! ## Shadow states (13, R704, Table 13.6) -/

/-- A TBL_CTRL bit that Table 13.6 does not list for the state. -/
def tblState (c : Core) : Core := pageErr c pgTbl 0x13 0 0

/-- TBL_CTRL.SEAL (13, Table 13.6). -/
def tblSeal (c : Core) : Core :=
  if c.tbl.shadow = .opened then sealCheck { c with tbl := { c.tbl with shadow := .sealing } } else tblState c

/-- TBL_CTRL.UNSEAL (13, Table 13.6). -/
def tblUnseal (c : Core) : Core :=
  if c.tbl.shadow = .sealed then { c with tbl := { c.tbl with shadow := .opened } } else tblState c

/-- A count lies ahead of the Tally. -/
def aheadOf (c : Core) (t : Word) : Bool := geW t (now c) && t != now c

/-- TBL_CTRL.ARM on this die: a flip alarm at a count (13, Table 13.6). -/
def tblArm (c : Core) (t : Word) : Core :=
  if c.tbl.shadow ≠ .sealed then tblState c
  else if !aheadOf c t then pageErr c pgTbl 0x11 0 0
  else alarmAdd { c with tbl := { c.tbl with shadow := .armed } } 1 0 t

/-- TBL_CTRL.DISARM on this die (13, Table 13.6). -/
def tblDisarm (c : Core) : Core :=
  if c.tbl.shadow = .armed then alarmDrop { c with tbl := { c.tbl with shadow := .sealed } } 1 0 else tblState c

/-- The flip (13, R705). -/
def tblFlip (c : Core) : Core :=
  let t := c.tbl
  let c := { c with tbl := { t with
    epoch := t.epoch + 1, livePrev := t.liveCur, liveCur := 0, lastFlip := now c
    shadow := if t.liveCur = 0 then .opened else .busy } }
  irqSet (cntAdd c pgTbl 0x130 1) pgTbl 2

/-- TABLE_FLIP: the flip alarm fires, late or in time (13, R705, R706).  A hold does not stop it (16, R801). -/
def execTableFlip (s : State) : Host.Outcome State Fault Refusal :=
  mission (fun c =>
    match alarmFire c 1 0 with
    | none => c
    | some (a, c) =>
      let c := tblFlip c
      if a.late then pageErr { c with tbl := { c.tbl with lateNs := now c - a.at_ } } pgTbl 0x12 0 0 else c) s

/-- A write of EPOCH_LOAD (13, R707). -/
def writeEpochLoad (c : Core) (v : Reg) : Core :=
  let t := c.tbl
  if t.liveCur = 0 ∧ t.livePrev = 0 ∧ (t.shadow = .busy ∨ t.shadow = .opened ∨ t.shadow = .sealed) then
    { c with tbl := { t with epoch := v, shadow := .opened } }
  else pageErr c pgTbl 0x10 0 0

end Sys2Proof.Machine
end

