-- ==== Sys2Proof/Machine/Session.lean ====
section
/-! DEFINITION. Sessions of the Punty link: what their end leaves (14, R732, Table 14.7), partners that a commit adds or removes
(14, Table 14.6), and the level of pp_link_up (14, R731). -/

namespace Sys2Proof.Machine

/-! ## Partners -/

/-- Bit of a die in the registers of a _LO/_HI map. -/
def dieBit (die : Nat) : Reg := r32 (2 ^ (die % 32))

/-- A link takes a state (14, Table 14.6; 17, Table 17.3). -/
def linkState (c : Core) (die : Nat) (st : LinkState) : Core :=
  let code := match st with | .down => 0 | .hello => 1 | .up => 2
  let ep := ((getPeer c die).epoch.getD 0).toNat
  trace (modPeer c die (fun p => { p with st := st })) 0x0E {} 0 0 (w64 ep) (0x100 * die + code)

/-- Dies whose link is UP, ascending. -/
def upDies (c : Core) : List Nat := (c.pp.peers.filter (fun (e : Nat × Partner) => e.2.st == .up)).map (·.1)

/-- Dies whose link is not DOWN, ascending. -/
def liveDies (c : Core) : List Nat := (c.pp.peers.filter (fun (e : Nat × Partner) => e.2.st != .down)).map (·.1)

/-! ## The end of a session (14, R732, Table 14.7) -/

/-- A frame hands units of a semaphore to a waiter (14, Table 14.7). -/
def relOfSem (f : Frame) : Bool := f.ty.toNat == tySyncRel && payAt f 16 1 == 0 && payAt f 17 1 == 1

/-- A frame that its source still held for a link that is no longer UP has no effect: the command faults with REMOTE_UNAVAIL, and
the edge's queue with SIG_BAD (14, R733). -/
def heldLost (c : Core) : TxFrom → Core
  | .sq s => cmdFault c s 0x0F
  | .edge i n t => if (getInst c i).serial = n then instFault (modInst c i (fun x => { x with sigOut := x.sigOut - 1 })) i 4 4 t else c
  | .unit_ => c

/-- A sequencer's command waits for a die: a remote WAIT that is not released, or a SEND that awaits its answer. -/
def waitsFor (c : Core) (die s : Nat) : Bool :=
  match (getSq c s).stall with
  | .waitRemote d _ _ _ => d == die && !c.st.releases.any (fun (r : Release) => r.sq == s)
  | .send _ d _ _ _ => d == some die
  | _ => false

/-- Commands that waited for a die fault with REMOTE_UNAVAIL (14, Table 14.7). -/
def waitersLost (c : Core) (die : Nat) : Core :=
  (below 32 (waitsFor c die)).foldl (fun c s => if waitsFor c die s then cmdFault c s 0x0F else c) c

/-- An operation of the ST's input is a remote WAIT of a die. -/
def opOfDie (die : Nat) : StOp → Bool
  | .remoteWait d _ _ _ _ => d == die
  | _ => false

/-- A remote waiter is of a die. -/
def waiterOfDie (die : Nat) (w : Wait) : Bool :=
  match w.who with | .remote d _ _ => d == die | .sq _ => false

/-- The registrations of a die's remote waiters are dropped (14, Table 14.7). -/
def regsLost (c : Core) (die : Nat) : Core :=
  let st := c.st
  let c := { c with st := { st with
    fifo := st.fifo.filter (fun o => !opOfDie die o), offered := st.offered.filter (fun o => !opOfDie die o) } }
  c.st.objs.foldl (fun c (e : Nat × SyncObj) =>
    (e.2.waits.filter (waiterOfDie die)).foldl (fun c w => endWait c e.1 w.who) c) c

/-- Messages to a die are no longer awaited, and answers to its messages go nowhere (14, Table 14.7). -/
def msgsLost (c : Core) (die : Nat) : Core :=
  let drop (e : MsgFrom × Msg) : MsgFrom × Msg :=
    match e.1 with
    | .die d mid => if d = die ∧ mid < 2 ^ 16 then (.die d (mid + 2 ^ 16), e.2) else e
    | _ => e
  let c := { c with
    mf := { c.mf with inbox := c.mf.inbox.map drop }
    pp := { c.pp with
      msgs := c.pp.msgs.filter (fun (m : RemMsg) => m.die != die)
      msgHeld := c.pp.msgHeld.filter (fun e => e.2.1 != die) } }
  refillMsgs c c.pp.msgHeld

/-- The session of a lock-step pair has ended (15, Table 15.4). -/
def lsBreak (c : Core) (die : Nat) : Core :=
  if (c.det.st = .pairing ∨ c.det.st = .run ∨ c.det.st = .diverged) ∧ lsOther c = die then
    irqSet { c with det := { c.det with st := .broken, cause := 1, table := [], held := [] } } pgDet 5
  else c

/-- The end of a session, by its cause: 1 LOST, 2 RESET, 3 PEER_DOWN, 4 REMOVED (14, R732, Tables 14.6, 14.7, 14.9). -/
def endSession (c : Core) (die cause : Nat) : Core :=
  let p := getPeer c die
  if p.st ≠ .up then c
  else
    let rels := ((p.frames ++ (p.held.map (·.2)).flatten).filter relOfSem).length
    let c := cntAdd (cntAdd (cntAdd c pgPp 0x1C0 1) pgPp 0x1D0 p.frames.length) pgPp 0x1D8 rels
    let c := irqSet (regOr c pgPp (if die < 32 then 0x138 else 0x13C) (dieBit die)) pgPp 2
    let c := modPeer c die (fun p => { p with
      frames := [], unsent := 0, held := [], hold := [], msgX := none, txReady := false, sinceAck := 0
      differ := 0, skew := false, lastCause := cause })
    let c := linkState c die .hello
    let c := if cause = 1 then modPeer c die (fun p => { p with epoch := none }) else c
    let c := (p.held.map (·.1)).foldl heldLost c
    let c := waitersLost c die
    let c := regsLost c die
    let c := routesPeerLost (msgsLost c die) die
    drainAccepted (linkPumpAll (lsBreak c die))

/-! ## Partners that a commit adds or removes (14, Table 14.6) -/

/-- A partner added to PEER_MASK. -/
def peerAdded (c : Core) (die : Nat) : Core :=
  if die = dieId c ∨ (getPeer c die).st ≠ .down then c
  else linkState (modPeer c die (fun p => { p with epoch := none })) die .hello

/-- A partner taken out of PEER_MASK. -/
def peerRemoved (c : Core) (die : Nat) : Core :=
  let c := endSession c die 4
  if (getPeer c die).st = .down then c else linkState c die .down

/-- A commit changes PEER_MASK; before the Punty stage no link stands (14, Table 14.6). -/
def peerMaskSet (c : Core) (old new : Word) : Core :=
  if role c = 0 || !c.pp.on then c
  else
    let c := (bitsOf (old &&& ~~~new)).foldl peerRemoved c
    (bitsOf (new &&& ~~~old)).foldl peerAdded c

/-! ## pp_link_up (02, R91; 14, R731) -/

/-- PP_LINK_DOWN: pp_link_up falls; every UP link stays UP and sends nothing (14, R731). -/
def execPpLinkDown (s : State) : Host.Outcome State Fault Refusal :=
  mission (fun c => { c with pp := { c.pp with linkUp := false } }) { s with pins := { s.pins with linkUp := false } }

/-- PP_LINK_RESUME: pp_link_up rises, and each link resends from UNA (14, R731). -/
def execPpLinkResume (s : State) : Host.Outcome State Fault Refusal :=
  mission (fun c =>
    if c.pp.linkUp then c
    else
      let c := { c with pp := { c.pp with linkUp := true } }
      (upDies c).foldl goBack c) { s with pins := { s.pins with linkUp := true } }

end Sys2Proof.Machine
end

