-- ==== Sys2Proof/Machine/Cast.lean ====
section
/-! DEFINITION. Casts of the table flip across dies (14, R750-R756), and the commands of TBL_CTRL (13, Table 13.6; 14, R750,
R755, R756). -/

namespace Sys2Proof.Machine

/-! ## The manager's cast -/

/-- A frame of a cast to each of some workers (14, Table 14.4). -/
def castSend (c : Core) (ty : Nat) (dies : List Nat) (withAt : Bool) (t : Word) : Core :=
  let pay := (if withAt then payPut 16 t.toNat else 0) + payPut 24 c.pp.castId.toNat
  (dies.filter (linkUpTo c)).foldl (fun c d => linkOffer c d .unit_ [mkFrame ty pay]) c

/-- The cast ends with a result; FLIP_DONE is set for the outcomes of R754 (14, R752, R754, R755). -/
def castEnd (c : Core) (result : Nat) (done : Bool) : Core :=
  let c := { c with pp := { c.pp with cast := none, flipRes := result } }
  if done then irqSet c pgPp 6 else c

/-- The cast in progress. -/
def castMod (c : Core) (f : Cast → Cast) : Core := { c with pp := { c.pp with cast := c.pp.cast.map f } }

/-- The arm step is over once every worker has answered ARMED (14, R754). -/
def castArmed (c : Core) (k : Cast) : Core := if k.sent &&& ~~~k.answered = 0 then castEnd c 1 true else c

/-- Every worker has answered READY: TBL_ARM goes to each of them, and the manager arms itself (14, R752). -/
def castArm (c : Core) (k : Cast) : Core :=
  let k := { k with step := .arm, answered := 0, at_ := now c }
  let c := castSend { c with pp := { c.pp with cast := some k } } tyTblArm (bitsOf k.sent) true k.flipAt
  castArmed (tblArm c k.flipAt) k

/-- A step of the cast whose answers are in goes on (14, R752, R754, R755). -/
def castStep (c : Core) : Core :=
  match c.pp.cast with
  | none => c
  | some k =>
    if k.sent &&& ~~~k.answered ≠ 0 then c
    else
      match k.step, k.refused with
      | .prep, some d => castEnd { c with pp := { c.pp with failDie := d } } 2 false
      | .prep, none => castArm c k
      | .arm, _ => castEnd c 1 true
      | .disarm, _ => castEnd { c with pp := { c.pp with armedMap := 0 } } 4 false

/-- The lead of Table 14.8 and R750 to R751. -/
def leadOk (c : Core) (t : Word) : Bool := geW t (now c + w64 (regPpSyncLeadUs c * 1000))

/-- TBL_CTRL.ARM on the manager with CAST_TBL 1 (14, R750). -/
def castBegin (c : Core) (t : Word) : Core :=
  if c.tbl.shadow ≠ .sealed then tblState c
  else if !aheadOf c t || !leadOk c t then pageErr c pgTbl 0x11 0 0
  else
    let dies := upDies c
    let k : Cast := { step := .prep, sent := ofBits dies, at_ := now c, flipAt := t }
    let c := { c with pp := { c.pp with cast := some k, castId := c.pp.castId + 1, armedMap := 0 } }
    castStep (castSend c tyTblPrep dies true t)

/-- TBL_CTRL.DISARM on the manager with CAST_TBL 1 (14, R755).  A DISARM that Table 13.6 refuses sends nothing. -/
def castDisarm (c : Core) : Core :=
  if c.tbl.shadow ≠ .armed then tblState c
  else
    let c := tblDisarm c
    let dies := upDies c
    let c := { c with pp := { c.pp with cast := some { step := .disarm, sent := ofBits dies, at_ := now c } } }
    castStep (castSend c tyTblDisarm dies false 0)

/-! ## TBL_CTRL (13, Table 13.6; 14, R756) -/

/-- The die casts its flip: the manager with CAST_TBL 1 (14, R750). -/
def castsFlip (c : Core) : Bool := role c == 1 && regPpCfgCastTbl c

/-- FLIP_AT. -/
def flipAt (c : Core) : Word := w64 (regTblFlipAt c)

/-- TBL_CTRL.ARM (13, Table 13.6; 14, R750). -/
def ctrlArm (c : Core) : Core := if castsFlip c then castBegin c (flipAt c) else tblArm c (flipAt c)

/-- TBL_CTRL.DISARM (13, Table 13.6; 14, R755). -/
def ctrlDisarm (c : Core) : Core := if castsFlip c then castDisarm c else tblDisarm c

/-- A write of TBL_CTRL: its bits act in ascending order; during a cast it changes nothing (13, Table 13.6; 14, R756). -/
def writeTblCtrl (c : Core) (v : Reg) : Core :=
  if c.pp.cast.isSome then tblState c
  else
    let c := if rbit v 0 then tblSeal c else c
    let c := if rbit v 1 then tblUnseal c else c
    let c := if rbit v 2 then ctrlArm c else c
    if rbit v 3 then ctrlDisarm c else c

/-! ## Frames of a cast (14, R751-R755) -/

/-- The oldest delivered frame of a die, if it is of a type and the units take frames (14, R730; 16, R801). -/
def takeHold (c : Core) (die ty : Nat) : Option (Frame × Core) :=
  match (getPeer c die).hold with
  | [] => none
  | f :: t =>
    if mayStart c && f.ty.toNat == ty then some (f, modPeer c die (fun p => { p with hold := t })) else none

/-- A frame of a type taken from a die's delivered frames. -/
def takeFrame (die ty : Nat) (g : Frame → Core → Core) (c : Core) : Core :=
  match takeHold c die ty with
  | none => c
  | some (f, c) => drainAccepted (g f c)

/-- The die acts as a worker (14, R712). -/
def isWorker (c : Core) : Bool := role c == 2 || role c == 3

/-- A TBL_ANS to a die. -/
def tblAnswer (c : Core) (die : Nat) (f : Frame) (r : Nat) : Core :=
  if linkUpTo c die then linkOffer c die .unit_ [frTblAns r (payAt f 24 2)] else c

/-- TBL_PREP: a worker answers, and nothing else changes (14, R751). -/
def execTblPrep (die : Fin 64) (s : State) : Host.Outcome State Fault Refusal :=
  mission (takeFrame die.val tyTblPrep (fun f c =>
    if !isWorker c then c
    else
      let r := if c.tbl.shadow ≠ .sealed then 3 else if leadOk c (w64 (payAt f 16 8)) then 0 else 4
      tblAnswer c die.val f r)) s

/-- TBL_ARM: a worker takes it as a write of FLIP_AT followed by TBL_CTRL.ARM (14, R753). -/
def execTblArm (die : Fin 64) (s : State) : Host.Outcome State Fault Refusal :=
  mission (takeFrame die.val tyTblArm (fun f c =>
    if !isWorker c then c
    else
      let t := w64 (payAt f 16 8)
      let c := regSet (regSet c pgTbl 0x120 (loReg t)) pgTbl 0x124 (hiReg t)
      let r := if c.tbl.shadow ≠ .sealed then 5 else if aheadOf c t then 1 else 4
      tblAnswer (tblArm c t) die.val f r)) s

/-- TBL_DISARM: a worker disarms and answers (14, R755). -/
def execTblDisarm (die : Fin 64) (s : State) : Host.Outcome State Fault Refusal :=
  mission (takeFrame die.val tyTblDisarm (fun f c =>
    if !isWorker c then c
    else tblAnswer (tblDisarm c) die.val f (if c.tbl.shadow = .armed then 2 else 5))) s

/-- An answer of a worker counted in the cast (14, R752, R754, R755). -/
def castTake (k : Cast) (die r : Nat) : Cast :=
  if !wbit k.sent die then k
  else
    let got := { k with answered := k.answered ||| ofBits [die] }
    match k.step with
    | .prep => if r = 0 then got else { got with refused := some (k.refused.getD die) }
    | .arm => if r = 1 then got else k
    | .disarm => if r = 2 ∨ r = 5 then got else k

/-- TBL_ANS: the manager collects the answers of its latest cast (14, R752, R754, R755). -/
def execTblAns (die : Fin 64) (s : State) : Host.Outcome State Fault Refusal :=
  mission (takeFrame die.val tyTblAns (fun f c =>
    if payAt f 24 2 ≠ c.pp.castId.toNat then c
    else
      let r := payAt f 16 1
      let c := if r = 1 then { c with pp := { c.pp with armedMap := c.pp.armedMap ||| ofBits [die.val] } } else c
      castStep (castMod c (fun k => castTake k die.val r)))) s

/-- CAST_TIMEOUT: CAST_US passes without every answer (14, R752, R754). -/
def execCastTimeout (s : State) : Host.Outcome State Fault Refusal :=
  mission (fun c =>
    match c.pp.cast with
    | none => c
    | some k =>
      if c.qsc.req || !passedUs c k.at_ (regPpCastUs c) then c
      else
        match k.step, k.refused with
        | .prep, some d => castEnd { c with pp := { c.pp with failDie := d } } 2 false
        | .prep, none => castEnd c 3 false
        | .arm, _ => castEnd c 3 true
        | .disarm, _ => castEnd c 3 false) s

end Sys2Proof.Machine
end

