-- ==== Sys2Proof/Machine/Digest.lean ====
section
/-! DEFINITION. The configuration digests of the pages and of the die (04, R194-R200). -/

namespace Sys2Proof.Machine

/-- PAGE_ID of a page slot (04, Table 4.2). -/
def pageId (page : Nat) : Nat :=
  match pageOf page with
  | some (t, n) => t.ty * 2 ^ 24 + n * 2 ^ 16 + 0x7F1D
  | none => 0

/-- cfg_mask(off): the bits of a register that belong to a field of class L, S or Q (04, R196). -/
def cfgMask (ty off : Nat) : Nat :=
  match rowOf ty off with
  | some r => if r.cls = 0 then 0 else r.wm
  | none => 0

/-- The page digest over given active values (04, R196). -/
def pageDigest (get : Nat → Reg) (page : Nat) : Word :=
  crc64Fin ((List.range 960).foldl (fun crc k =>
    let m := cfgMask (pageTy page) (0x100 + 4 * k)
    if m = 0 then crc else crc64Add crc (toBytes ((get (0x100 + 4 * k)).toNat &&& m) 4))
    (crc64Add crc64Init (toBytes (pageId page) 4)))

/-- A register right after the end of reset: PEER_MASK and REPRO follow the straps (14, R763; 15, R767). -/
def bootReg (c : Core) (page off : Nat) : Reg :=
  let m := peerMaskReset c.bring.straps
  if page = pgPp ∧ off = 0x108 then loReg m
  else if page = pgPp ∧ off = 0x10C then hiReg m
  else if page = pgDet ∧ off = 0x100 then r32 (b2n c.bring.straps.repro)
  else regReset page off

/-- CFG_DIGEST of a page: the digest last completed, that of the reset values until a first recomputation (04, R198). -/
def cfgDigest (c : Core) (page : Nat) : Word :=
  match (getPage c page).digest with
  | some w => w
  | none => pageDigest (bootReg c page) page

/-- A page contributes to the die digest: the GLB page never does (04, R197). -/
def contributes (c : Core) (page : Nat) : Bool :=
  page != 0 && (pageOf page).isSome && (regGlbDigestTypeMask c).testBit (pageTy page)

/-- The die digest (04, R197). -/
def dieDigestOf (c : Core) : Word :=
  let m := regGlbDigestTypeMask c
  let start := crc64Add (crc64Add crc64Init (toBytes (m % 2 ^ 32) 4)) (toBytes (m / 2 ^ 32) 4)
  crc64Fin (((List.range 1024).filter (contributes c)).foldl (fun crc page =>
    crc64Add (crc64Add crc (toBytes (pageId page) 4)) (toBytes (cfgDigest c page).toNat 8)) start)

/-- A page digest is complete; a change of a contributing one asks for a new die digest (04, R198-R200). -/
def pageDigestDone (c : Core) (page : Nat) : Core :=
  if !(getPage c page).digestBusy then c
  else
    let w := pageDigest (regCur c page) page
    let moved := contributes c page && w != cfgDigest c page
    let c := modPage c page (fun p => { p with digest := some w, digestBusy := false })
    if moved then { c with rs := { c.rs with dieBusy := true } } else c

/-- The die digest is complete (04, R199, R203). -/
def dieDigestDone (c : Core) : Core :=
  if c.rs.dieBusy then { c with rs := { c.rs with dieDigest := some (dieDigestOf c), dieBusy := false } } else c

/-- DIGEST_UPDATE: the recomputation of a page's digest, or of the die digest (`none`), is complete (04, R198-R200). -/
def execDigestUpdate (page : Option (Fin 1024)) (s : State) : Host.Outcome State Fault Refusal :=
  mission (fun c => match page with
    | some p => pageDigestDone c p.val
    | none => dieDigestDone c) s

end Sys2Proof.Machine
end

