-- ==== Sys2Proof/Machine/Punty.lean ====
section
/-! DEFINITION. The Punty Port: receipt, heartbeats, acknowledgement and retransmission, and what each delivered frame does (14). -/

namespace Sys2Proof.Machine

/-! ## Receipt (14, R712, R718, Table 14.5) -/

/-- Field of a received flit: `n` bytes from byte `b` (14, Table 14.1). -/
def flitAt (x : BitVec 512) (b n : Nat) : Nat := fld x.toNat (8 * b) (8 * n)

/-- PEER_MASK. -/
def peerMask (c : Core) : Word := w64 (regPpPeerMask c)

/-- The checks of Table 14.5: the counter, by its offset, of the first one that a flit fails; none where it passes all. -/
def rxCheck (c : Core) (x : BitVec 512) : Option Nat :=
  let src := flitAt x 2 1
  let ty := flitAt x 0 1
  if flitAt x 60 4 ≠ (crc32c (toBytes x.toNat 60)).toNat then some 0x1A8
  else if flitAt x 1 1 ≠ dieId c ∨ 64 ≤ src then some 0x1B8
  else if !wbit (peerMask c) src || src == dieId c then some 0x1B8
  else if !frameListed ty then some 0x1B8
  else if ty = tyHb then none
  else if linkUpTo c src && (getPeer c src).epoch == some (r32 (flitAt x 4 4)) then none
  else some 0x1B0

/-- START goes to the other die of the pair once the link is UP and R723 allows (15, Table 15.4). -/
def lsStart (c : Core) : Core :=
  let die := lsOther c
  if c.det.st = .pairing ∧ c.det.started = false ∧ linkUpTo c die = true ∧ (getPeer c die).txReady = true then
    let pay := payPut 18 (b2n (regDetCtrlRepro c)) + payPut 20 (regDetLsCtrlPrimary c) + payPut 21 (regDetLsCtrlSecondary c)
    linkOffer { c with det := { c.det with started := true } } die .unit_ [frLstep 1 c.det.side pay]
  else c

/-- A received flit: discarded on a die that keeps its Punty Port down, counted where it fails a check, and handled where it
passes and its TYPE is the one at hand (14, R712, R718). -/
def rxFlit (is : Nat → Bool) (g : Nat → BitVec 512 → Core → Core) (x : BitVec 512) (c : Core) : Core :=
  if role c = 0 || !c.pp.on then c
  else
    match rxCheck c x with
    | some off => cntAdd c pgPp off 1
    | none =>
      if is (flitAt x 0 1) then drainAccepted (lsPump (g (flitAt x 2 1) x (cntAdd c pgPp 0x188 1))) else c

/-! ## Heartbeats (14, R720-R723, R743-R746, R760) -/

/-- ACK of a frame, where ACK_VALID says that it is there (14, Table 14.1, R727). -/
def takeAck (c : Core) (die : Nat) (x : BitVec 512) : Core :=
  if (flitAt x 3 1).testBit 0 then onAck c die (r32 (flitAt x 12 4)) else c

/-- Another manager's heartbeat (14, R760). -/
def twoManagers (c : Core) (die : Nat) (r : Nat) : Core :=
  if r = 1 ∧ (role c = 1 ∨ (isWorker c = true ∧ die ≠ regPpCfgMgrDie c)) then pageErr c pgPp 0x11 die 0 else c

/-- A heartbeat with the new epoch of the worker that was told to reset (14, R759). -/
def wrstSeen (c : Core) (die : Nat) (ep : Reg) : Core :=
  if c.pp.wrstBusy ∧ c.pp.wrstDie = die ∧ ep ≠ c.pp.wrstEpoch then
    irqSet { c with pp := { c.pp with wrstBusy := false, wrstRes := 2 } } pgPp 5
  else c

/-- What a worker copies from its manager's heartbeat (14, R746). -/
def copyAgreed (c : Core) (die : Nat) (x : BitVec 512) : Core :=
  let fl := flitAt x 3 1
  if isWorker c ∧ die = regPpCfgMgrDie c ∧ flitAt x 16 1 % 4 = 1 then
    { c with pp := { c.pp with
      agreed := true, agreedDig := w64 (flitAt x 40 8), agreedGen := r32 (flitAt x 48 4)
      sysOk := fl.testBit 5, skewed := fl.testBit 6 } }
  else c

/-- What every accepted heartbeat leaves in the partner entry (14, Table 14.9). -/
def noteHb (c : Core) (die : Nat) (x : BitVec 512) : Core :=
  modPeer c die (fun p => { p with
    heard := some (now c), role := BitVec.ofNat 2 (flitAt x 16 1), lock := (flitAt x 3 1).testBit 4
    dig := w64 (flitAt x 24 8), gen := r32 (flitAt x 20 4) })

/-- The manager's comparison of a worker's digest and generation with its own (14, R743, R744). -/
def skewCheck (c : Core) (die : Nat) (x : BitVec 512) : Core :=
  if role c ≠ 1 || c.rs.dieBusy || (flitAt x 3 1).testBit 3 then c
  else
    let p := getPeer c die
    if c.rs.dieDigest == some p.dig && r32 (regGlbCfgGen c) == p.gen then
      modPeer c die (fun p => { p with differ := 0, skew := false })
    else
      let n := p.differ + 1
      let c := modPeer c die (fun p => { p with differ := sat n 16 })
      if p.skew = false ∧ max 1 (regPpSkewHold c) ≤ n then
        let c := modPeer c die (fun p => { p with skew := true })
        irqSet { c with pp := { c.pp with skewCnt := c.pp.skewCnt + 1 } } pgPp 3
      else c

/-- A heartbeat on a link in HELLO (14, Table 14.6). -/
def hbHello (c : Core) (die : Nat) (ep : Reg) (known : Bool) : Core :=
  let c := modPeer c die (fun p => { p with epoch := some ep })
  if known then
    let c := linkState (modPeer c die (fun p => { p with next := 0, una := 0, exp := 0, sinceAck := 0 })) die .up
    irqSet (cntAdd c pgPp 0x1C8 1) pgPp 4
  else c

/-- A heartbeat on a link that is UP (14, Table 14.6, R723). -/
def hbUp (c : Core) (die : Nat) (ep : Reg) (known : Bool) (x : BitVec 512) : Core :=
  if (getPeer c die).epoch ≠ some ep then
    modPeer (endSession c die 2) die (fun p => { p with epoch := some ep })
  else if !known then endSession c die 3
  else
    let c := takeAck c die x
    let c := if (flitAt x 3 1).testBit 2 then linkPump (modPeer c die (fun p => { p with txReady := true })) die else c
    lsStart (skewCheck c die x)

/-- An accepted heartbeat (14, R720). -/
def takeHb (die : Nat) (x : BitVec 512) (c : Core) : Core :=
  if (getPeer c die).st = .down then c
  else
    let ep := r32 (flitAt x 4 4)
    let known := (flitAt x 3 1).testBit 1 && r32 (flitAt x 8 4) == c.pp.ownEpoch
    let c := twoManagers (wrstSeen c die ep) die (flitAt x 16 1 % 4)
    let c := copyAgreed (noteHb c die x) die x
    if (getPeer c die).st = .up then hbUp c die ep known x else hbHello c die ep known

/-- HB: a received heartbeat (14, R720, Table 14.6). -/
def execHb (flit : BitVec 512) (s : State) : Host.Outcome State Fault Refusal :=
  mission (rxFlit (· == tyHb) takeHb flit) s

/-- FLAGS of a heartbeat (14, Table 14.3). -/
def hbFlags (c : Core) (die : Nat) : Nat :=
  let p := getPeer c die
  let mgr := role c == 1
  b2n (p.st == .up) + 2 * b2n p.epoch.isSome + 4 * b2n (p.st == .up) + 8 * b2n c.rs.dieBusy + 16 * b2n c.tu.lock
    + 32 * b2n (mgr && managerOk c) + 64 * b2n (mgr && p.skew)

/-- Payload of a heartbeat (14, Table 14.3). -/
def hbPay (c : Core) : Nat :=
  let dig := (c.rs.dieDigest.getD 0).toNat
  let gen := regGlbCfgGen c
  let base := payPut 16 (role c) + payPut 20 gen + payPut 24 dig + payPut 32 (now c).toNat
  if role c = 1 then base + payPut 40 dig + payPut 48 gen else base

/-- A heartbeat to a partner (14, R721, Table 14.3). -/
def sendHb (c : Core) (die : Nat) : Core :=
  let p := getPeer c die
  let up := p.st == .up
  let c := sendFlit c (mkFlit c die tyHb (hbFlags c die) (p.epoch.getD 0).toNat (if up then p.exp.toNat else 0) (hbPay c))
  modPeer c die (fun p => { p with sinceAck := if up then 0 else p.sinceAck })

/-- The loss clock of a link shows a lost partner (14, R722). -/
def linkLost (c : Core) (die : Nat) : Bool :=
  match (getPeer c die).heard with
  | none => true
  | some t => passedUs c t (regPpTimeLossHb c * regPpTimeHbUs c)

/-- HEARTBEAT_ALARM: lost links end, and a heartbeat goes to every partner that is not DOWN (14, R721, R722).  A hold does not
stop it (16, R801). -/
def execHeartbeatAlarm (s : State) : Host.Outcome State Fault Refusal :=
  mission (fun c =>
    match alarmFire c 8 0 with
    | none => c
    | some (a, c) =>
      let c := armPeriod c 8 (regPpTimeHbUs c) a.at_
      let c := ((upDies c).filter (linkLost c)).foldl (fun c d => endSession c d 1) c
      if flitsFlow c then (liveDies c).foldl sendHb c else c) s

/-! ## Sequenced frames, acknowledgement and retransmission (14, R725-R727, R730) -/

/-- An acknowledgement sent now, or owed while nothing is sent (14, R725, R761). -/
def ackAgain (c : Core) (die : Nat) : Core :=
  if flitsFlow c then sendAck c die else modPeer c die (fun p => { p with sinceAck := max 1 p.sinceAck })

/-- A sequenced frame of an UP link (14, R725, R726). -/
def takeSeq (die : Nat) (x : BitVec 512) (c : Core) : Core :=
  let c := takeAck c die x
  let p := getPeer c die
  let s := r32 (flitAt x 8 4)
  if s = p.exp then
    if p.hold.length < 16 then
      let f : Frame := { ty := BitVec.ofNat 8 (flitAt x 0 1), pay := BitVec.ofNat 352 (flitAt x 16 44) }
      let c := modPeer c die (fun p => { p with hold := p.hold ++ [f], exp := p.exp + 1, sinceAck := p.sinceAck + 1 })
      if 16 ≤ (getPeer c die).sinceAck then sendAck c die else c
    else c
  else if ahead32 s p.exp then
    if flitsFlow c && decide (1000 ≤ (now c - p.lastNak).toNat) then
      modPeer (sendNak c die) die (fun p => { p with lastNak := now c })
    else c
  else ackAgain (cntAdd c pgPp 0x1A0 1) die

/-- SEQUENCED_FRAME_RECEIPT (14, R725). -/
def execSequencedFrameReceipt (flit : BitVec 512) (s : State) : Host.Outcome State Fault Refusal :=
  mission (rxFlit sequenced takeSeq flit) s

/-- ACK (14, R727). -/
def execAck (flit : BitVec 512) (s : State) : Host.Outcome State Fault Refusal :=
  mission (rxFlit (· == tyAck) (fun die x c => takeAck c die x) flit) s

/-- on_nak of R727 (14). -/
def takeNak (die : Nat) (x : BitVec 512) (c : Core) : Core :=
  let e := r32 (flitAt x 16 4)
  let c := onAck c die e
  let p := getPeer c die
  if e = p.una ∧ 2000 ≤ (now c - p.lastBack).toNat then goBack c die else c

/-- NAK (14, R727). -/
def execNak (flit : BitVec 512) (s : State) : Host.Outcome State Fault Refusal :=
  mission (rxFlit (· == tyNak) takeNak flit) s

/-- ACK_TIMER: 64 tclk have passed since a delivery with no frame to carry EXP (14, R726). -/
def execAckTimer (die : Fin 64) (s : State) : Host.Outcome State Fault Refusal :=
  mission (fun c => if linkUpTo c die.val && decide (0 < (getPeer c die.val).sinceAck) then sendAck c die.val else c) s

/-- RETRANSMIT_TIMEOUT (14, R727).  A hold does not stop it (16, R801). -/
def execRetransmitTimeout (die : Fin 64) (s : State) : Host.Outcome State Fault Refusal :=
  mission (fun c =>
    let p := getPeer c die.val
    if p.frames ≠ [] ∧ passedUs c p.t0 (regPpTimeRetxUs c) = true then goBack c die.val else c) s

/-! ## Remote sync operations (14, R734-R740) -/

/-- The ST has room for an operation (09, R466; 14, R730). -/
def stRoom (c : Core) : Bool := decide (c.st.fifo.length < 128) && c.st.offered.isEmpty

/-- A SYNC_OP handed to the ST; an OP that Table 14.4 does not list is discarded (14, R734, R735). -/
def takeSyncOp (die : Nat) (f : Frame) (c : Core) : Core :=
  let h := payAt f 18 2
  let x := w64 (payAt f 24 8)
  let wid := payAt f 20 2
  match payAt f 16 1 with
  | 0 => stOffer c (.signal (.punty die) h x)
  | 1 => stOffer c (.add (.punty die) h x)
  | 2 => stOffer c (.remoteWait die (wid % 32) (wid / 32) h x)
  | _ => c

/-- SYNC_OP (14, R734, R735). -/
def execSyncOp (die : Fin 64) (s : State) : Host.Outcome State Fault Refusal :=
  mission (fun c => if stRoom c then takeFrame die.val tySyncOp (takeSyncOp die.val) c else c) s

/-- A remote WAIT of this die waits on an object under a WAIT_ID: its operand (14, R737). -/
def relMatches (c : Core) (die h wid : Nat) : Option Word :=
  match (getSq c (wid % 32)).stall with
  | .waitRemote d k v _ => if d = die ∧ k = h ∧ waitId c (wid % 32) = wid then some v else none
  | _ => none

/-- Units that reach no waiter go back to their semaphore (14, R738).  SRC_KIND and SRC_ID of the frame are left open. -/
def returnUnits (c : Core) (die h : Nat) (x : Word) : Core :=
  let k := freeNat c
  let i := freeNat k.2
  linkOffer i.2 die .unit_ [frSyncOp 0 (k.1 % 2 ^ 8) h 0 (i.1 % 2 ^ 16) x]

/-- A SYNC_REL (14, R737, R738). -/
def takeSyncRel (die : Nat) (f : Frame) (c : Core) : Core :=
  let st := payAt f 16 1
  let h := payAt f 18 2
  let wid := payAt f 20 2
  let sq := wid % 32
  match relMatches c die h wid with
  | none => if st = 0 ∧ payAt f 17 1 = 1 then returnUnits c die h (w64 (payAt f 24 8)) else c
  | some v =>
    match st with
    | 0 => { c with st := { c.st with releases := c.st.releases ++ [{ sq := sq, h := h }] } }
    | 1 => cmdFault c sq 0x0C
    | 2 => cmdFault c sq 0x0B
    | 3 => cmdFault c sq 0x0A
    | 4 => modSq c sq (fun y => { y with stall := .waitRemote die h v true })
    | _ => c

/-- SYNC_REL (14, R737, R738). -/
def execSyncRel (die : Fin 64) (s : State) : Host.Outcome State Fault Refusal :=
  mission (takeFrame die.val tySyncRel (takeSyncRel die.val)) s

/-- An operation of the ST's input is a remote WAIT under a WAIT_ID. -/
def isRemoteWait (die wid : Nat) : StOp → Bool
  | .remoteWait d s w _ _ => d == die && w * 32 + s == wid
  | _ => false

/-- SYNC_CANCEL: the registration ends, or the WAIT leaves the ST's input (14, R739). -/
def execSyncCancel (die : Fin 64) (s : State) : Host.Outcome State Fault Refusal :=
  mission (takeFrame die.val tySyncCancel (fun f c =>
    let wid := payAt f 20 2
    let st := c.st
    let c := { c with st := { st with
      fifo := st.fifo.filter (fun o => !isRemoteWait die.val wid o)
      offered := st.offered.filter (fun o => !isRemoteWait die.val wid o) } }
    endWait c (payAt f 18 2) (.remote die.val (wid % 32) (wid / 32)))) s

/-! ## Remote messages (14, R717, R741, R742) -/

/-- The message of a MSG payload, with the words that the frame itself carries (14, Table 14.4). -/
def msgOf (die : Nat) (f : Frame) : Msg :=
  let b := payAt f 18 2
  let n := fld b 12 2
  { rxq := fld b 0 12, tag := payAt f 20 2, land := w64 (payAt f 24 8)
    words := ([w64 (payAt f 32 8), w64 (payAt f 40 8), w64 (payAt f 48 8)]).take (min (n + 1) 3)
    srcDie := die, srcKind := fld b 14 2, srcId := fld (payAt f 22 2) 0 14, ctx := 0 }

/-- A message offered to the MF by the Punty Port (10, R509; 14, R741). -/
def offerMsg (c : Core) (die : Nat) (f : Frame) (m : Msg) : Core :=
  { c with mf := { c.mf with inbox := c.mf.inbox ++ [(.die die (payAt f 16 2), m)] } }

/-- The MF takes one message at a time from the Punty Port (10, R509; 14, R730). -/
def mfRoom (c : Core) : Bool :=
  !c.mf.inbox.any (fun (e : MsgFrom × Msg) => match e.1 with | .die _ _ => true | _ => false)

/-- A MSG: offered to the MF, or kept for its MSG_X (14, R717, R741). -/
def takeMsgFrame (die : Nat) (f : Frame) (c : Core) : Core :=
  if fld (payAt f 18 2) 12 2 = 3 then modPeer c die (fun p => { p with msgX := some f.pay })
  else offerMsg c die f (msgOf die f)

/-- MSG (14, R717, R741). -/
def execMsg (die : Fin 64) (s : State) : Host.Outcome State Fault Refusal :=
  mission (fun c => if mfRoom c then takeFrame die.val tyMsg (takeMsgFrame die.val) c else c) s

/-- MSG_X: the fourth word completes the message before it (14, R717). -/
def execMsgX (die : Fin 64) (s : State) : Host.Outcome State Fault Refusal :=
  mission (fun c =>
    if !mfRoom c then c
    else
      takeFrame die.val tyMsgX (fun f c =>
        match (getPeer c die.val).msgX with
        | none => c
        | some pay =>
          let f1 : Frame := { ty := BitVec.ofNat 8 tyMsg, pay := pay }
          let m := msgOf die.val f1
          offerMsg (modPeer c die.val (fun p => { p with msgX := none })) die.val f1
            { m with words := m.words ++ [w64 (payAt f 16 8)] }) c) s

/-- An answer handed to the sender of the message (14, R741; 07, R363; 12, R658). -/
def takeAnswer (die : Nat) (f : Frame) (c : Core) : Core :=
  match ltake (fun (m : RemMsg) => m.mid == payAt f 16 2 && m.die == die) c.pp.msgs with
  | none => c
  | some (m, l) =>
    let code := payAt f 18 1
    let c := { c with pp := { c.pp with msgs := l } }
    let c := match m.src with
      | .sq q => { c with mf := { c.mf with answers := c.mf.answers ++ [(q, code)] } }
      | .shears r => countAnswer c r die code
      | _ => c
    refillMsgs c c.pp.msgHeld

/-- MSG_ANS (14, R741, R742). -/
def execMsgAns (die : Fin 64) (s : State) : Host.Outcome State Fault Refusal :=
  mission (takeFrame die.val tyMsgAns (takeAnswer die.val)) s

/-! ## Manager-directed reset (14, R757-R759) -/

/-- KEY of a RESET (14, Table 14.4). -/
def resetKey : Nat := 0x0000C1A5

/-- RESET: a good one from the manager is answered with RESET_ACK, and the die's reset starts with cause 0x4 (14, R758;
03, Table 3.1). -/
def execReset (die : Fin 64) (s : State) : Host.Outcome State Fault Refusal :=
  missionReset (takeFrame die.val tyReset (fun f c =>
    if isWorker c ∧ die.val = regPpCfgMgrDie c ∧ r32 (payAt f 20 4) = c.pp.ownEpoch ∧ payAt f 16 4 = resetKey then
      let exp := (getPeer c die.val).exp.toNat
      let c := sendFlit c (mkFlit c die.val tyResetAck 1 0 exp (payPut 16 resetKey))
      { c with rstReq := some 4 }
    else pageErr c pgPp 0x12 die.val 0)) s

/-- Frames of a die up to and with the first RESET are acknowledged (14, R759). -/
def ackReset (c : Core) (die : Nat) : Core :=
  modPeer c die (fun p =>
    let l := (p.frames.dropWhile (fun (f : Frame) => f.ty.toNat != tyReset)).drop 1
    { p with frames := l, una := p.next - r32 l.length, unsent := min p.unsent l.length })

/-- A RESET_ACK that the manager awaits (14, R759). -/
def takeResetAck (die : Nat) (_ : BitVec 512) (c : Core) : Core :=
  if c.pp.wrstBusy ∧ c.pp.wrstDie = die then
    let c := endSession (ackReset c die) die 2
    irqSet { c with pp := { c.pp with wrstBusy := false, wrstRes := 1 } } pgPp 5
  else c

/-- RESET_ACK (14, R759). -/
def execResetAck (flit : BitVec 512) (s : State) : Host.Outcome State Fault Refusal :=
  mission (rxFlit (· == tyResetAck) takeResetAck flit) s

/-- A write of WRST (14, R757). -/
def writeWrst (c : Core) (v : Reg) : Core :=
  let die := rf v 0 6
  if role c ≠ 1 || !rbit v 31 then c
  else if linkUpTo c die then
    let ep := (getPeer c die).epoch.getD 0
    let c := { c with pp := { c.pp with wrstBusy := true, wrstDie := die, wrstRes := 0, wrstEpoch := ep } }
    linkOffer c die .unit_ [mkFrame tyReset (payPut 16 resetKey + payPut 20 ep.toNat)]
  else { c with pp := { c.pp with wrstBusy := false, wrstDie := die, wrstRes := 3 } }

end Sys2Proof.Machine
end

