-- ==== Sys2Proof/Machine/Lockstep.lean ====
section
/-! DEFINITION. Lock-step: pairing, the exchange of entries and the end of a pair (15, R775-R788). -/

namespace Sys2Proof.Machine

/-! ## LS_CTRL (15, R775, R776, Table 15.4) -/

/-- The die's side of a pair: 1 primary, 2 secondary, 0 neither (15, R775, Table 15.5). -/
def lsSideOf (c : Core) (v : Reg) : Nat :=
  if rf v 8 6 = dieId c then 1 else if rf v 0 6 = dieId c then 2 else 0

/-- The first check of R775 that a write of LS_CTRL fails; none where it passes (15, R775). -/
def lsBad (c : Core) (v : Reg) : Option Nat :=
  let p := rf v 8 6
  let s := rf v 0 6
  let side := lsSideOf c v
  let fits := (side == 1 && (role c == 1 || role c == 2)) || (side == 2 && role c == 3)
  if !regDetCtrlRepro c then some 1
  else if !fits then some 2
  else if p == s || !wbit (peerMask c) (if side = 1 then s else p) then some 3
  else none

/-- A write of LS_CTRL (15, R775, R776, Table 15.4).  One that leaves EN set while LS_STATE is not OFF is discarded; one that
clears EN is taken whole. -/
def writeLsCtrl (c : Core) (v : Reg) : Core :=
  if !rbit v 31 then
    let c := regSet c pgDet 0x110 (v &&& 0x80003F3F)
    { c with det := { c.det with st := .off, side := 0, started := false, table := [], held := [] } }
  else if c.det.st ≠ .off then pageErr c pgDet 0x0A 0x110 v.toNat
  else
    match lsBad c v with
    | some r => pageErr (regSet c pgDet 0x110 (v &&& 0x00003F3F)) pgDet 0x10 0 r
    | none =>
      let c := regSet c pgDet 0x110 (v &&& 0x80003F3F)
      lsStart { c with det := { c.det with st := .pairing, side := lsSideOf c v, started := false } }

/-! ## LSTEP frames (15, Table 15.3, R781, R787, R788) -/

/-- START delivered while the die pairs (15, Table 15.4). -/
def lsPair (c : Core) (f : Frame) : Core :=
  let same := payAt f 20 1 == regDetLsCtrlPrimary c && payAt f 21 1 == regDetLsCtrlSecondary c
    && (payAt f 18 1).testBit 0 == regDetCtrlRepro c && payAt f 17 1 == 3 - c.det.side
  if same then { c with det := { c.det with st := .run, table := [], held := [], pseq := 0, div := {} } }
  else irqSet { c with det := { c.det with st := .broken, cause := 2 } } pgDet 5

/-- Entry of an ENTRIES frame (15, Table 15.3). -/
def entryOf (c : Core) (f : Frame) (k : Nat) : LsEntry :=
  { key := w64 (payAt f (20 + 12 * k) 8), check := r32 (payAt f (28 + 12 * k) 4), pseq := 0, mine := false, at_ := now c }

/-- Entries of an ENTRIES frame. -/
def entriesOf (c : Core) (f : Frame) : List LsEntry := (List.range (min (payAt f 17 1) 3)).map (entryOf c f)

/-- The match table can take a frame's entries: those that match leave it, the others need a place (15, R781). -/
def lsRoom (c : Core) (es : List LsEntry) : Bool :=
  let n := (es.filter (fun e => !lsHas c e.key)).length
  n == 0 || decide (c.det.table.length + n ≤ 4096)

/-- The DET unit can take an LSTEP frame now (14, R730; 15, R781).  A START that comes before this die's EN waits for it. -/
def lsCanTake (c : Core) (f : Frame) : Bool :=
  match payAt f 16 1 with
  | 1 => c.det.st != .off
  | 2 => !(lsOn c && c.det.side == 1) || lsRoom c (entriesOf c f)
  | _ => true

/-- An LSTEP frame (15, Table 15.3, R781, R787, Table 15.4). -/
def takeLstep (die : Nat) (f : Frame) (c : Core) : Core :=
  if die ≠ lsOther c then c
  else
    match payAt f 16 1 with
    | 1 => if c.det.st = .pairing then lsPair c f else c
    | 2 => if lsOn c && c.det.side == 1 then (entriesOf c f).foldl lsMatch c else c
    | 3 => if lsOn c && c.det.side == 2 then quiesceStart c false else c
    | _ => c

/-- LSTEP (15, R781, R787, R788). -/
def execLstep (die : Fin 64) (s : State) : Host.Outcome State Fault Refusal :=
  mission (fun c =>
    match (getPeer c die.val).hold with
    | [] => c
    | f :: _ => if lsCanTake c f then takeFrame die.val tyLstep (takeLstep die.val) c else c) s

/-- LS_FLUSH: the oldest held entry has waited LS_FLUSH tclk (15, R780). -/
def execLsFlush (s : State) : Host.Outcome State Fault Refusal :=
  mission (fun c => if lsOn c && c.det.side == 2 then lsSend c 3 else c) s

/-- LS_ORPHAN: an entry has stayed unmatched for LS_MATCH_US of Tally (15, R783). -/
def execLsOrphan (key : Word) (mine : Bool) (s : State) : Host.Outcome State Fault Refusal :=
  mission (fun c =>
    if !lsOn c then c
    else
      match ltake (fun (e : LsEntry) => e.key == key && e.mine == mine && passedUs c e.at_ (regDetLsMatchUs c)) c.det.table with
      | none => c
      | some (e, t) =>
        let c := irqSet (cntAdd { c with det := { c.det with table := t } } pgDet 0x140 1) pgDet 4
        if e.mine then diverge c 2 e.key e.check 0 e.pseq e.varies
        else diverge c 3 e.key 0 e.check c.det.pseq false) s

end Sys2Proof.Machine
end

