-- ==== Sys2Proof/Machine/Ras.lean ====
section
/-! DEFINITION. The RAS unit: SRAM errors, the end of a hold, the patrol scrubber and error injection (16, R794-R812), and how the
units go on once nothing holds them (03, R130; 16, R801). -/

namespace Sys2Proof.Machine

/-! ## Units go on after a hold or after quiescing (03, R130; 16, R801) -/

/-- Saves and restores of the queues go on where they stand (11, Tables 11.7, 11.8). -/
def savesResume (c : Core) : Core :=
  (c.sched.pre.map (fun (e : Nat × Preempt) => e.1)).foldl (fun c q => restoreAdvance (saveAdvance c q) q) c

/-- Units whose work waits for no command of its own go on: the ST's input, the ring fetch, the Shears, the Crucible, saves and
restores, and the link. -/
def unitsResume (c : Core) : Core :=
  let c := savesResume (cruResume (routeKick (feKick (stFill c))) (fun _ => true))
  lsPump (drainAccepted ((upDies c).foldl linkPump c))

/-! ## Owners of SRAM words (16, R796, Table 16.2) -/

/-- What the owner tags say of a failing word: context, instance, and launching queue with its submission and the task where
known (16, R796, R807). -/
structure OwnerTag where
  /-- Context. -/
  ctx : Nat := 0
  /-- Instance, where one exists. -/
  inst : Nat := 0
  /-- Launching queue, submission and task, where they exist. -/
  work : Option (Nat × Nat × Nat) := none
  deriving DecidableEq, Repr

/-- Owner tag of a live instance; the task stands above the 14 bits of its number. -/
def tagInst (c : Core) (owner : Nat) : Option OwnerTag :=
  let i := owner % 16384
  let x := getInst c i
  if x.st = .free ∧ x.opening = false then none
  else some { ctx := x.ctx, inst := i, work := some (x.q, x.sid, owner / 16384) }

/-- Owner tag of a sequencer: the context that last ran on it (16, Table 16.2). -/
def tagSq (c : Core) (s : Nat) : Option OwnerTag := (getSq c s).lastCtx.map (fun x => { ctx := x })

/-- Queue of an accepted submission, and whether its program has not started yet (05, R227). -/
def subAt (c : Core) (sid : Nat) : Option (Nat × Bool) :=
  (c.queues.find? (fun (e : Nat × Queue) => (e.2.wait ++ e.2.subs).any (fun s => s.sid == sid))).map
    (fun e => (e.1, e.2.wait.any (fun s => s.sid == sid)))

/-- Number from which an `owner` of SOURCE 0x05 names a sequencer's staging block instead of an instance. -/
def stagingOwner : Nat := 2 ^ 30

/-- The owner of a failing word, by its structure (16, Table 16.2).  `owner` names the instance (with the task above its 14
bits), the submission, the sequencer, the handle, the combining queue or the receive queue, as the structure has it. -/
def sramOwner (c : Core) (src owner : Nat) : Option OwnerTag :=
  match src with
  | 1 | 2 | 3 | 4 | 0x0B | 0x0C => tagInst c owner
  | 5 => if stagingOwner ≤ owner then tagSq c (owner - stagingOwner) else tagInst c owner
  | 6 => (subAt c owner).map (fun e => { ctx := (getQ c e.1).ctx })
  | 7 => tagSq c owner
  | 8 => if (getObj c owner).st = .free then none else some { ctx := (getObj c owner).owner }
  | 9 =>
    let q := getCq c owner
    if cqBusy q then (tagInst c q.inst).map (fun t => { t with work := t.work.map (fun w => (w.1, w.2.1, q.task)) }) else none
  | 0x0A => if (getRxq c owner).st = .free then none else some { ctx := (getRxq c owner).owner }
  | _ => none

/-! ## Masked errors (16, Table 16.2) -/

/-- A prefetched program that has not started is dropped and fetched again at start (05, R245; 16, Table 16.2). -/
def dropPrefetch (c : Core) (sid : Nat) : Core :=
  match subAt c sid with
  | none => c
  | some (q, _) =>
    modQ c q (fun x => { x with
      wait := x.wait.map (fun (s : Sub) => if s.sid = sid then { s with fetch := .none, words := [], patch := none } else s) })

/-- The effect of an error that is masked, or that only its own window shows; none for a structure whose error is neither
(16, Table 16.2; 10, R538). -/
def maskSram (c : Core) (src owner loc : Nat) : Option Core :=
  match src with
  | 6 => match subAt c owner with | some (_, true) => some (dropPrefetch c owner) | _ => none
  | 9 => if cqBusy (getCq c owner) then none else some c
  | 0x0D => some { c with marv := { c.marv with chunkMap := c.marv.chunkMap.filter (fun (e : Nat × Bool) => e.1 / 64 != loc) } }
  | 0x0E => some (cntAdd { c with trc := { c.trc with staged := c.trc.staged.eraseIdx owner, dropped := c.trc.dropped + 1 } } pgTrc 0x150 1)
  | 0x0F => some { c with ras := { c.ras with log := { c.ras.log with bad := c.ras.log.bad ++ [owner] } } }
  | 0x11 => some (cntAdd c pgPp 0x1A8 1)
  | 0x13 =>
    -- an entry takes 16 bytes (01, Table 1.3)
    some { c with det := { c.det with table := c.det.table.eraseIdx (loc / 2), held := c.det.held.eraseIdx (loc / 2) } }
  | _ => none

/-- The Graph Store block of a failing word is poisoned (16, R797). -/
def poisonBlock (c : Core) (src loc : Nat) : Core :=
  let b := if src = 1 then loc / 256 else 4096 + loc / 256
  if c.gs.poison.contains b then c else { c with gs := { c.gs with poison := c.gs.poison ++ [b] } }

/-! ## SRAM errors (16, R794, R800, R808, R812) -/

/-- SOURCE codes of Table 16.2. -/
def sramSource (src : Nat) : Bool := decide (1 ≤ src ∧ src ≤ 0x13)

/-- An armed injection into a structure is used up by the error that it makes (16, R812). -/
def injUsed (c : Core) (src : Nat) (double : Bool) : Core :=
  match ltake (fun (e : Nat × Bool) => e.1 == src && e.2 == double) c.ras.inj with
  | some (_, l) => { c with ras := { c.ras with inj := l } }
  | none => c

/-- SRAM_CORRECTED: a single-bit error is corrected and counted (16, R794, Table 16.8; 10, R530). -/
def execSramCorrected (src : BitVec 8) (_owner : Nat) (loc : Reg) (syn : BitVec 8) (s : State) :
    Host.Outcome State Fault Refusal :=
  mission (fun c =>
    let n := src.toNat
    if !sramSource n then c
    else
      let c := pmuEv (cntAdd (injUsed c n false) pgRas 0x110 1) 0x0C0 1 {}
      let ras := { c.ras with ce := tmod c.ras.ce 0 n (· + 1) }
      let ras := if n = 0x0F then { ras with log := { ras.log with corr := ras.log.corr + 1 } } else ras
      let c := { c with ras := ras }
      let due := match c.ras.ceAt with | none => true | some t => decide (t + 1024 ≤ c.tclk)
      if regRasCfgCeLog c && due then
        logErr { c with ras := { c.ras with ceAt := some c.tclk } }
          { kind := 1, source := n, masked := true, loc := loc.toNat, syn := syn.toNat }
      else c) s

/-- The count, the interrupt and the memory of locations of an uncorrectable error (16, Tables 16.7, 16.11, R811). -/
def countUe (c : Core) (src : Nat) (loc : Reg) : Core :=
  let c := irqSet (cntAdd c pgRas 0x118 1) pgRas 2
  { c with ras := { c.ras with ue := tmod c.ras.ue 0 src (· + 1), locs := ((src, loc) :: c.ras.locs).take 8 } }

/-- An uncorrectable error of a word that resets nothing: masked, contained through its owner, or only recorded where the word
has none (16, R797, R800, R807, Table 16.2). -/
def sramFault (c : Core) (src owner : Nat) (loc : Reg) (syn : Nat) : Core :=
  let rep := c.ras.locs.any (fun (e : Nat × Reg) => e.2 == loc)
  let c := countUe (injUsed c src true) src loc
  let r : ErrRec := { kind := 2, source := src, repeat_ := rep, loc := loc.toNat, syn := syn }
  match maskSram c src owner loc.toNat with
  | some c => logErr c { r with masked := src != 0x0F }
  | none =>
    let c := if src = 1 ∨ src = 2 then poisonBlock c src loc.toNat else c
    match sramOwner c src owner with
    | none => logErr c r
    | some t =>
      let log : ErrRec := { r with
        contained := true, owner := some (t.ctx, t.inst), queue := t.work.map (·.1)
        task := match t.work with | some w => w.2.2 | none => 0 }
      let qf := t.work.map (fun w => (w.1, w.2.1, 3, w.2.2))
      contain c { ctx := t.ctx, cause := 4, log := some (errWordsAt c log), qf := qf }

/-- SRAM_UNCORRECTABLE (16, R800, Table 16.2). -/
def execSramUncorrectable (src : BitVec 8) (owner : Nat) (loc : Reg) (syn : BitVec 8) (s : State) :
    Host.Outcome State Fault Refusal :=
  missionReset (fun c =>
    let n := src.toNat
    if critSram n then criticalError c n loc syn.toNat
    else if sramSource n then sramFault c n owner loc syn.toNat
    else c) s

/-! ## The end of a hold (16, R800, Table 16.4) -/

/-- CONTAINMENT_HOLD_END: step 1 is done, the hold ends and its record is committed; the next waiting teardown has its hold
(16, R800, R803). -/
def execContainmentHoldEnd (s : State) : Host.Outcome State Fault Refusal :=
  mission (fun c =>
    match c.ras.queue with
    | [] => c
    | k :: t =>
      if !(c.ras.hold && c.ras.stepped) then c
      else
        let span := r32 (sat (c.tclk - c.ras.holdAt) 0xFFFFFFFF)
        let c := { c with ras := { c.ras with queue := t, hold := false, stepped := false, lastHold := span } }
        let c := match k.log with | some ws => commitLog c ws | none => c
        let c := holdNext c t
        if c.ras.hold then c else unitsResume c) s

/-! ## Patrol scrubber and injection (16, R795, R812) -/

/-- 64-bit words of the SRAM structures (16, R795; 01, Table 1.3). -/
def sramWords : Nat := 3145728

/-- PATROL_SCRUB: the scrubber reads the next word; it never runs during the SRAM scrub of bring-up (16, R795). -/
def execPatrolScrub (s : State) : Host.Outcome State Fault Refusal :=
  mission (fun c =>
    if !regRasCfgScrubEn c || decide (c.bring.stage ≤ 2) then c
    else if c.ras.scrub + 1 < sramWords then { c with ras := { c.ras with scrub := c.ras.scrub + 1 } }
    else cntAdd { c with ras := { c.ras with scrub := 0 } } pgRas 0x138 1) s

/-- A write of INJ (16, R812). -/
def writeInj (c : Core) (v : Reg) : Core :=
  if !debugForce c then pageErr c pgRas 0x10 0 0
  else { c with ras := { c.ras with inj := c.ras.inj ++ [(rf v 0 8, rbit v 8)] } }

end Sys2Proof.Machine
end

