-- ==== Sys2Proof/Machine/Monitor.lean ====
section
/-! DEFINITION. The Trace and Monitor unit: commands of the PMU page, the context query, trace staging and trace writes (17,
R814-R830); halts and shape writes of the DBG page (17, R831-R836); and the memory self-test (17, R843). -/

namespace Sys2Proof.Machine

/-! ## Counters and queries (17, R816, R819, R820) -/

/-- PMU_CMD.SNAP (17, R816). -/
def pmuSnap (c : Core) : Core := { c with pmu := { c.pmu with snap := c.pmu.cnt } }

/-- PMU_CMD.CLEAR (17, R816). -/
def pmuClear (c : Core) : Core := { c with pmu := { c.pmu with cnt := [] } }

/-- A write of PMU_CMD: SNAP takes effect before CLEAR (17, R816). -/
def writePmuCmd (c : Core) (v : Reg) : Core :=
  let c := if rbit v 1 then pmuSnap c else c
  if rbit v 0 then pmuClear c else c

/-- Open issues of a context by engine class, aborted ones included (17, R820). -/
def openOf (c : Core) (x cls : Nat) : Nat :=
  (issuesWhere c (fun (i : Issue) => i.ctx == x && i.cls == cls)).length

/-- A write of UQ_SEL: the snapshot of the context (17, R819, R820). -/
def writeUqSel (c : Core) (v : Reg) : Core :=
  let x := rf v 0 8
  let k := getCtx c x
  let c := regSet c pgPmu 0x110 v
  { c with pmu := { c.pmu with
    uqValid := true, uq := [now c, k.engTime, k.memBytes, k.dyingBytes]
    uqOpen := [r32 (openOf c x 1 * 2 ^ 16 + openOf c x 2), r32 (openOf c x 3 * 2 ^ 16 + openOf c x 4)] } }

/-! ## Staging (17, R823-R825, R828) -/

/-- Capture ends by TRC_STOP (17, R828). -/
def trcStop (c : Core) : Core :=
  let c := regSet c pgTrc 0x100 (regCur c pgTrc 0x100 &&& 0xFFFFFFFE)
  let c := regSet c pgTrc 0x10C (regCur c pgTrc 0x10C &&& 0xFFFFFEFF)
  irqSet { c with trc := { c.trc with trig := true, post := none } } pgTrc 2

/-- A staged record counts for TRC_STOP (17, R828). -/
def trcPost (c : Core) (kind : Nat) : Core :=
  if !regTrcStopArm c then { c with trc := { c.trc with post := none } }
  else
    match c.trc.post with
    | some n => if n ≤ 1 then trcStop c else { c with trc := { c.trc with post := some (n - 1) } }
    | none =>
      if kind ≠ regTrcStopKind c then c
      else if regTrcStopPost c = 0 then trcStop c
      else { c with trc := { c.trc with post := some (regTrcStopPost c) } }

/-- KIND of a record (17, Table 17.2). -/
def recKind (r : TrcRec) : Nat := wf r.w1 56 8

/-- One record staged, or dropped where the staging buffer is full (17, R823). -/
def stageOne (c : Core) (r : TrcRec) : Core :=
  if 2048 ≤ c.trc.staged.length then cntAdd { c with trc := { c.trc with dropped := c.trc.dropped + 1 } } pgTrc 0x148 1
  else
    let seq := c.trc.seq + 1
    let ws := [r.tally, r.w1, r.a, joinReg seq r.b]
    trcPost { c with trc := { c.trc with staged := c.trc.staged ++ [ws], seq := seq } } (recKind r)

/-- Records staged in order until capture ends. -/
def stageAll (c : Core) : List TrcRec → Core
  | [] => c
  | r :: t => if c.trc.trig && !regTrcCtrlEn c then c else stageAll (stageOne c r) t

/-- The record of lost records (17, R824, Table 17.3 kind 0x12). -/
def lostRec (c : Core) : TrcRec := { tally := now c, w1 := w64 (0x12 * 2 ^ 56 + dieId c * 2 ^ 50), a := c.trc.dropped }

/-- TRACE_STAGE: the records captured in a tclk, at most four of them, in order of kind; one of lost records goes first (17,
R823, R824). -/
def execTraceStage (s : State) : Host.Outcome State Fault Refusal :=
  mission (fun c =>
    let l := sortBy recKind c.trc.cand
    let c := { c with trc := { c.trc with cand := [] } }
    let gap := regTrcCtrlEn c && c.trc.dropped != 0 && decide (c.trc.staged.length < 2048)
    let c := if gap then stageOne { c with trc := { c.trc with dropped := 0 } } (lostRec c) else c
    let n := if gap then 3 else 4
    let burst := l.length - n
    let c := stageAll c (l.take n)
    if burst = 0 then c
    else cntAdd { c with trc := { c.trc with dropped := c.trc.dropped + w64 burst } } pgTrc 0x140 burst) s

/-! ## Trace writes (17, R826, R827) -/

/-- Records of the next trace write: at most eight, up to the end of a 256 B unit of the ring (17, R826). -/
def trcBatch (c : Core) : Nat := min c.trc.staged.length ((256 - c.trc.wptr.toNat % 256) / 32)

/-- The trace ring has room for so many bytes (17, R826; 10, R541). -/
def trcRoom (c : Core) (bytes : Nat) : Bool :=
  decide ((c.trc.wptr - r32 (regTrcRptr c)).toNat + bytes ≤ 2 ^ regTrcSizeLog2 c)

/-- TRACE_FLUSH: a write of staged records starts (17, R826). -/
def execTraceFlush (s : State) : Host.Outcome State Fault Refusal :=
  mission (fun c =>
    let n := trcBatch c
    if c.trc.writing.isSome || decide (0 < c.trc.wb) || c.qsc.done || n == 0 || !trcRoom c (32 * n) then c
    else
      let ws := (c.trc.staged.take n).flatten
      let addr := regTrcBase c + c.trc.wptr.toNat % 2 ^ regTrcSizeLog2 c
      mpWrite { c with trc := { c.trc with staged := c.trc.staged.drop n, writing := some (32 * n) } } addr 0 ws .trace) s

/-- Capture stops because a trace write has failed (17, R827). -/
def trcFail (c : Core) (addr : Nat) : Core :=
  let c := regSet c pgTrc 0x100 (regCur c pgTrc 0x100 &&& 0xFFFFFFFE)
  irqSet (pageErr { c with trc := { c.trc with fail := true } } pgTrc 0x10 (addr % 2 ^ 32) 0) pgTrc 2

/-- TRACE_WRITE_ACK: a trace write, or the write of WPTR to TRC_WB, is answered (17, R826, R827). -/
def execTraceWriteAck (st : QStatus) (s : State) : Host.Outcome State Fault Refusal :=
  mission (fun c =>
    match takeReq c .trace with
    | none => c
    | some (r, c) =>
      let c := notePoison c st (pageTy pgTrc) r.addr
      let c := if st = .ok then c else trcFail c r.addr
      match c.trc.writing with
      | none => { c with trc := { c.trc with wb := c.trc.wb - 1 } }
      | some n =>
        let c := { c with trc := { c.trc with writing := none } }
        if st ≠ .ok then c
        else
          let wptr := c.trc.wptr + r32 n
          let c := cntAdd { c with trc := { c.trc with wptr := wptr, wb := c.trc.wb + 1 } } pgTrc 0x138 (n / 32)
          mpWrite c (regTrcWb c) 0 [w64 wptr.toNat] .trace) s

/-- A write of TRC_CTRL (17, R829). -/
def writeTrcCtrl (c : Core) (v : Reg) : Core :=
  let lg := regTrcSizeLog2 c
  let bad := lg < 16 ∨ 30 < lg ∨ regTrcBase c = 0 ∨ regTrcWb c = 0
  if rbit v 0 ∧ bad then pageErr (regSet c pgTrc 0x100 (v &&& 0xFFFFFFFE)) pgTrc 0x11 0 0 else regSet c pgTrc 0x100 v

/-- A write of TRC_MARK (17, Table 17.3). -/
def writeTrcMark (c : Core) (v : Reg) : Core := trace c 0x11 {} 0 0 0 v.toNat

/-! ## Debug halts (17, R831-R835) -/

/-- One sequencer halts: here every command is whole, so its boundary, its wait or its idleness is at hand (17, R831). -/
def haltOne (c : Core) (sq : Nat) : Core :=
  if (getSq c sq).halted && !(getSq c sq).stepping then c
  else irqSet (modSq c sq (fun s => { s with halted := true, stepping := false })) pgDbg 2

/-- A write of HALT_REQ (17, R831). -/
def writeHaltReq (c : Core) (v : Reg) : Core := (below 32 (fun n => rbit v n)).foldl haltOne c

/-- One sequencer resumes; a breakpoint that has halted it is passed, and a full save that is owed is taken (17, R832, R833). -/
def resumeOne (c : Core) (sq : Nat) : Core :=
  if (getSq c sq).halted then lateSave (modSq c sq (fun s => { s with halted := false, stepping := false, bpPass := true })) sq
  else c

/-- A write of RESUME (17, R833). -/
def writeResume (c : Core) (v : Reg) : Core := (below 32 (fun n => rbit v n)).foldl resumeOne c

/-- One halted sequencer resumes for one command (17, R833). -/
def stepOne (c : Core) (sq : Nat) : Core :=
  if (getSq c sq).halted then modSq c sq (fun s => { s with stepping := true }) else c

/-- A write of STEP (17, R833). -/
def writeStep (c : Core) (v : Reg) : Core := (below 32 (fun n => rbit v n)).foldl stepOne c

/-- A refused debug operation (17, R836, R840, Table 17.9). -/
def dbgRefuse (c : Core) (reason : Nat) : Core :=
  pageErr { c with dbg := { c.dbg with done := false, refused := reason } } pgDbg 0x10 0 0

/-- A write of SHAPE_WR_HI (17, R836). -/
def writeShapeHi (c : Core) (v : Reg) : Core :=
  let sq := regDbgShapeWrSelSq c
  if !debugForce c then dbgRefuse c 1
  else if !sqHeld c sq then dbgRefuse c 2
  else
    let c := setSreg c sq (regDbgShapeWrSelReg c) (joinReg c.dbg.shapeLo v)
    { c with dbg := { c.dbg with done := true, refused := 0 } }

/-! ## Memory self-test (17, R843, Table 17.6) -/

/-- The parts of the block that stand in SRAM (01, Table 1.3) take undefined contents. -/
def sramUndefined (c : Core) : Core :=
  let f := Config.freeCore c.free
  { c with
    free := c.free + 1
    gs := { c.gs with tasks := f.gs.tasks, edges := f.gs.edges, imgs := f.gs.imgs }
    isr := { c.isr with insts := f.isr.insts, ctrs := f.isr.ctrs, patch := f.isr.patch }
    sqs := c.sqs.map (fun (e : Nat × Sq) =>
      (e.1, { e.2 with words := (getSq f e.1).words, scratch := (getSq f e.1).scratch, staging := (getSq f e.1).staging }))
    st := { c.st with objs := f.st.objs, fifo := f.st.fifo, notify := f.st.notify }
    mf := { c.mf with rxqs := f.mf.rxqs }
    cru := { c.cru with cqs := f.cru.cqs }
    lanes := c.lanes.map (fun (e : Nat × Lane) => (e.1, { e.2 with ready := (getLane f e.1).ready }))
    marv := { c.marv with chunkMap := f.marv.chunkMap }
    trc := { c.trc with staged := f.trc.staged }
    ras := { c.ras with log := { c.ras.log with words := f.ras.log.words } }
    sched := { c.sched with slowFifo := { c.sched.slowFifo with words := f.sched.slowFifo.words } }
    pp := { c.pp with peers := c.pp.peers.map (fun (e : Nat × Partner) =>
      (e.1, { e.2 with frames := (getPeer f e.1).frames, hold := (getPeer f e.1).hold })) }
    det := { c.det with table := f.det.table, held := f.det.held } }

/-- WP_MBIST: in scan mode the march runs over every SRAM word, reports the structures that failed and leaves the words
undefined; outside it the WIR value acts as WS_BYPASS (17, R841, R843, Table 17.6).  In reset there is nothing left to lose:
the block keeps only what flops hold (03, R122). -/
def execWpMbist (fail : Reg) (s : State) : Host.Outcome State Fault Refusal :=
  if !s.pins.scan then .next s
  else
    let mb : Mbist := { stat := (fail &&& 0x000FFFFE) ||| 1, undef := true }
    .next { s with mbist := mb, core := if s.rst.active then s.core else sramUndefined s.core }

end Sys2Proof.Machine
end

