-- ==== Sys2Proof/Machine/Fifo.lean ====
section
/-! DEFINITION. The register FIFO windows (10, Table 10.4, R532-R538): the error log of the RAS page and the slowdown FIFO of the
SCHED page. -/

namespace Sys2Proof.Machine

/-- A read of FIFO_DATA (10, R533, R538). -/
def fifoRead (f : RegFifo) : Reg × RegFifo :=
  if f.words.length ≤ f.rd then (0, { f with underrun := true })
  else (f.words.getD f.rd 0, { f with rd := f.rd + 1, ue := f.ue || f.bad.contains f.rd })

/-- MK ← RD (10, Table 10.4). -/
def fifoMark (f : RegFifo) : RegFifo := { f with mark := f.rd }

/-- RD ← MK (10, Table 10.4). -/
def fifoRewind (f : RegFifo) : RegFifo := { f with rd := f.mark }

/-- RL ← RD and MK ← RD (10, Table 10.4). -/
def fifoRelease (f : RegFifo) : RegFifo :=
  { f with words := f.words.drop f.rd, rd := 0, mark := 0, bad := (f.bad.filter (fun n => decide (f.rd ≤ n))).map (· - f.rd) }

/-- A write of FIFO_CTRL: MARK, then REWIND, then RELEASE (10, R534). -/
def fifoCtrl (f : RegFifo) (v : Reg) : RegFifo :=
  let f := if rbit v 0 then fifoMark f else f
  let f := if rbit v 1 then fifoRewind f else f
  if rbit v 2 then fifoRelease f else f

/-- FIFO_STAT (10, Table 10.4). -/
def fifoStat (f : RegFifo) : Reg :=
  r32 (b2n (f.words.length ≤ f.rd) * 2 ^ 31 + b2n f.underrun * 2 ^ 30 + b2n f.overflow * 2 ^ 29 + b2n f.ue * 2 ^ 28
    + (f.words.length - f.rd))

/-- A write of FIFO_STAT clears the bits that it names (10, Table 10.4). -/
def fifoStatClear (f : RegFifo) (v : Reg) : RegFifo :=
  { f with underrun := f.underrun && !rbit v 30, overflow := f.overflow && !rbit v 29, ue := f.ue && !rbit v 28 }

/-- The FIFO of a page that has a window at offset 0x300, and its capacity (11, Table 11.10; 16, Table 16.11). -/
def fifoOf (c : Core) (page : Nat) : Option (RegFifo × Nat) :=
  if page = pgRas then some (c.ras.log, 8192)
  else if page = pgSched then some (c.sched.slowFifo, 1024)
  else none

/-- A change of the FIFO of a page. -/
def modFifo (c : Core) (page : Nat) (f : RegFifo → RegFifo) : Core :=
  if page = pgRas then { c with ras := { c.ras with log := f c.ras.log } }
  else if page = pgSched then { c with sched := { c.sched with slowFifo := f c.sched.slowFifo } }
  else c

/-- Registers of a window but FIFO_LOST and FIFO_CORR (10, Table 10.4). -/
def fifoReg (c : Core) (page off : Nat) : Option Reg :=
  (fifoOf c page).bind (fun p =>
    match off with
    | 0x300 => some (fifoRead p.1).1
    | 0x304 => some (fifoStat p.1)
    | 0x308 => some 0
    | 0x30C => some (r32 (p.2 - p.1.words.length))
    | _ => none)

/-- FIFO_LOST and FIFO_CORR of a window (10, Table 10.4). -/
def fifoPair (c : Core) (page off : Nat) : Option Word :=
  (fifoOf c page).bind (fun p =>
    match off with
    | 0x310 => some p.1.lost
    | 0x318 => some p.1.corr
    | _ => none)

end Sys2Proof.Machine
end

