-- ==== Sys2Proof/Machine/Views.lean ====
section
/-! DEFINITION. What the registers show that hold no value of their own: status, counts and the views of selected objects, page
type by page type as the function-register tables of the chapters give them. -/

namespace Sys2Proof.Machine

/-- Entries of a table that a test accepts, counted. -/
def tcount {α : Type} (t : Tbl α) (p : α → Bool) : Nat := (t.filter (fun e => p e.2)).length

/-- A sum over the entries of a table. -/
def tsum {α : Type} (t : Tbl α) (f : α → Nat) : Nat := (t.map (fun e => f e.2)).sum

/-! ## Codes -/

/-- CTX_STAT.STATE (06, Table 6.12). -/
def ctxCode : CtxState → Nat
  | .free => 0 | .live => 1 | .teardown => 2 | .dead => 3

/-- IMG_STAT.STATE (08, Table 8.2). -/
def imgCode : ImgState → Nat
  | .free => 0 | .loading => 1 | .loaded => 2 | .unloading => 3

/-- INST_STAT.STATE (08, Table 8.17). -/
def instCode : InstState → Nat
  | .free => 0 | .held => 1 | .running => 2 | .aborting => 3

/-- CQ_STAT.STATE (10, Table 10.9). -/
def cqCode : CqState → Nat
  | .off => 0 | .idle => 1 | .open_ => 2 | .releasing => 3

/-- Q_PVIEW.PHASE (11, Table 11.10). -/
def phaseCode : Phase → Nat
  | .none => 0 | .draining => 1 | .saving => 2 | .saved => 3 | .restoring => 4

/-- SVIEW.STATE (13, Table 13.8). -/
def streamCode : StreamState → Nat
  | .idle => 0 | .loading => 1 | .active => 2 | .stopping => 3

/-- TBL_STAT.SHADOW (13, Table 13.10). -/
def shadowCode : Shadow → Nat
  | .busy => 0 | .opened => 1 | .sealing => 2 | .sealed => 3 | .armed => 4

/-- PVIEW.STATE (14, Table 14.9). -/
def linkCode : LinkState → Nat
  | .down => 0 | .hello => 1 | .up => 2

/-- DET_STAT.LS_STATE (15, Table 15.5). -/
def lsCode : LsState → Nat
  | .off => 0 | .pairing => 1 | .run => 2 | .diverged => 3 | .broken => 4

/-- ENG_STATUS.STATUS of an engine (04, Table 4.9). -/
def engCode : EngStatus → Nat
  | .present => 0 | .absent => 1 | .badRecord => 2 | .wiring => 3 | .disabled => 4

/-! ## Pages of chapter 04 -/

/-- IRQ_PEND: a bit for each page type with an interrupt pending (04, Table 4.4). -/
def irqPend (c : Core) : Word :=
  c.rs.pages.foldl (fun w e => if irqStat c e.1 = 0 then w else w ||| (1 <<< pageTy e.1)) 0

/-- GLB page (04, Table 4.4). -/
def viewGlb (c : Core) (off : Nat) : Option Reg :=
  match off with
  | 0x100 => some 0x43201000
  | 0x104 => some 0x51E5
  | 0x108 => some (r32 (laneCount c * 2 ^ 24 + 32 * 2 ^ 16))
  | 0x118 => some (r32 (b2n c.rs.dieBusy))
  | _ => none

/-- Pairs of the GLB page; before the first die digest is complete it reads zero (04, Table 4.4). -/
def pairGlb (c : Core) (off : Nat) : Option Word :=
  match off with
  | 0x110 => some (c.rs.dieDigest.getD 0)
  | 0x138 => some (irqPend c)
  | _ => none

/-- STRAP page (04, Table 4.6, R204). -/
def viewStrap (c : Core) (off : Nat) : Option Reg :=
  let x := c.bring.straps
  match off with
  | 0x100 => some (r32 (x.laneGroup.toNat * 2 ^ 13 + b2n x.debugForce * 2 ^ 12 + b2n x.tallySrc * 2 ^ 11 + b2n x.repro * 2 ^ 10
      + x.fusemapSel.toNat * 2 ^ 8 + x.dieId.toNat * 4 + x.role.toNat))
  | 0x104 => some (r32 (laneCount c * 2 ^ 8 + b2n (debugForce c)))
  | 0x108 => some (r32 (b2n c.bring.unprog))
  | 0x110 => some (r32 (fld c.bring.bank.toNat 0 32))
  | 0x114 => some (r32 (fld c.bring.bank.toNat 32 32))
  | 0x118 => some (r32 (fld c.bring.bank.toNat 64 32))
  | 0x11C => some (r32 (fld c.bring.bank.toNat 96 32))
  | _ => none

/-- Issues without a completion (04, Table 4.7). -/
def openIssues (c : Core) : Nat := tsum c.lanes (fun (l : Lane) => l.issues.length)

/-- Step of Table 3.3 in progress: the steps that take no time of their own are never seen (04, Table 4.7). -/
def quiesceStep (c : Core) : Nat :=
  if !c.qsc.req then 0 else if c.qsc.done then 7 else if openIssues c ≠ 0 then 3 else 6

/-- QSC page (04, Table 4.7). -/
def viewQsc (c : Core) (off : Nat) : Option Reg :=
  match off with
  | 0x104 => some (r32 (sat (openIssues c) 0xFFFF * 2 ^ 16 + b2n (c.qsc.req && c.qsc.abort) * 2 ^ 8 + quiesceStep c * 16
      + b2n c.qsc.done))
  | 0x108 => some (r32 (sat c.io.reqs.length 0xFFFF))
  | _ => none

/-- SRST page (04, Table 4.8). -/
def viewSrst (r : Rst) (c : Core) (off : Nat) : Option Reg :=
  if 0x120 ≤ off ∧ off < 0x140 then
    some (r32 (fld (wat r.fatal ((off - 0x120) / 8)).toNat (8 * ((off - 0x120) % 8)) 32))
  else match off with
  | 0x100 => some 0
  | 0x104 => some (r.cause.setWidth 32)
  | 0x108 => some (r.prev.setWidth 32)
  | 0x118 => some (r32 c.bring.stage)
  | _ => none

/-- Pairs of the SRST page (04, Table 4.8). -/
def pairSrst (r : Rst) (off : Nat) : Option Word :=
  match off with
  | 0x110 => some r.count
  | _ => none

/-- SIC page (04, Table 4.9, R214). -/
def viewSic (c : Core) (off : Nat) : Option Reg :=
  let x := c.sic
  match off with
  | 0x104 => some (r32 (b2n x.engDone * 2 + b2n x.modDone))
  | 0x108 => some (r32 (x.nAbsent * 2 ^ 16 + x.nPresent))
  | 0x10C => some (r32 (x.nWiring * 2 ^ 16 + x.nBad))
  | 0x110 => some (r32 x.nDisabled)
  | 0x114 => some (x.hbmStat.setWidth 32)
  | 0x118 => some x.modStat
  | 0x120 => some (if 0x10DF < regSicEngSelId c then 7 else r32 (engCode (getEng c (regSicEngSelId c)).status))
  | _ => none

/-! ## FE, FEQ, CTX, PART and OBJ pages -/

/-- FE_STAT.DECODING: entries of the ring are being fetched or decoded (05, Table 5.13). -/
def feActive (c : Core) : Bool := c.fe.decoding && (c.fe.busy || c.fe.fetch.isSome || !c.fe.batch.isEmpty)

/-- FE page (05, Table 5.13). -/
def viewFe (c : Core) (off : Nat) : Option Reg :=
  match off with
  | 0x104 => some (r32 (b2n c.fe.respStall * 4 + b2n c.fe.ringStop * 2 + b2n (feActive c)))
  | _ => none

/-- Slot of a page of slots: number and offset in the slot. -/
def slotOf (off size n : Nat) : Option (Nat × Nat) :=
  if 0x100 ≤ off ∧ off < 0x100 + size * n then some ((off - 0x100) / size, (off - 0x100) % size) else none

/-- FEQ pages (05, Table 5.14). -/
def viewFeq (c : Core) (n off : Nat) : Option Reg :=
  (slotOf off 0x40 32).bind (fun p =>
    let q := 32 * n + p.1
    let x := getQ c q
    match p.2 with
    | 0x00 => some (regCur c (0x20 + n) off ||| r32 (x.ctx * 2 ^ 24 + x.sq * 2 ^ 16 + x.prio))
    | 0x08 => some (r32 (b2n x.held * 2 ^ 8 + x.wait.length * 16 + queueCode x.st))
    | 0x0C => some (r32 (x.fSource * 2 ^ 24 + x.fCode * 2 ^ 16 + x.fWord))
    | 0x20 => some (r32 (sat (openTasks c q) 0xFFFF))
    | _ => none)

/-- Pairs of the FEQ pages (05, Table 5.14). -/
def pairFeq (c : Core) (n off : Nat) : Option Word :=
  (slotOf off 0x40 32).bind (fun p =>
    match p.2 with
    | 0x10 => some (getQ c (32 * n + p.1)).lastSeq
    | 0x18 => some (w64 (getQ c (32 * n + p.1)).cplAddr)
    | _ => none)

/-- CTX pages (06, Table 6.12). -/
def viewCtx (c : Core) (n off : Nat) : Option Reg :=
  (slotOf off 0x80 16).bind (fun p =>
    let k := 16 * n + p.1
    let x := getCtx c k
    match p.2 with
    | 0x00 => some (r32 (x.part * 2 ^ 8 + x.cause * 16 + ctxCode x.st))
    | 0x04 => some x.gen
    | 0x18 => some (r32 (tcount c.queues (fun (y : Queue) => y.st != .free && y.ctx == k)))
    | 0x1C => some (r32 (x.objLive + x.objDying))
    | 0x20 => some (r32 (tcount c.st.objs (fun (y : SyncObj) => y.st != .free && y.owner == k)))
    | 0x24 => some (r32 (tcount c.mf.rxqs (fun (y : Rxq) => y.st != .free && y.owner == k)))
    | 0x40 => some (r32 x.faultEng)
    | _ => none)

/-- Pairs of the CTX pages (06, Table 6.12). -/
def pairCtx (c : Core) (n off : Nat) : Option Word :=
  (slotOf off 0x80 16).bind (fun p =>
    let x := getCtx c (16 * n + p.1)
    match p.2 with
    | 0x08 => some x.saveAddr
    | 0x10 => some x.saveSize
    | 0x28 => some x.memBytes
    | 0x30 => some x.dyingBytes
    | 0x38 => some x.engTime
    | _ => none)

/-- PART pages (06, Table 6.11). -/
def viewPart (c : Core) (n off : Nat) : Option Reg :=
  match off with
  | 0x104 => some (r32 (tcount c.ctxs (fun (x : Ctx) => x.st != .free && x.part == n)))
  | _ => none

/-- Pairs of the PART pages (06, Table 6.11). -/
def pairPart (c : Core) (n off : Nat) : Option Word :=
  match off with
  | 0x128 => some (w64 (tsum c.ctxs (fun (x : Ctx) => if x.st != .free && x.part == n then x.memBytes.toNat else 0)))
  | _ => none

/-- A word of the query result; zero while there is none (06, Table 6.13). -/
def queryWord (c : Core) (n : Nat) : Word := wat (c.fe.query.getD []) n

/-- OBJ page (06, Table 6.13). -/
def viewObj (c : Core) (off : Nat) : Option Reg :=
  match off with
  | 0x108 => some (r32 (b2n c.fe.suspect))
  | 0x110 => some (r32 (b2n c.fe.query.isSome * 2 ^ 31 + (queryWord c 2).toNat * 2 ^ 16 + (queryWord c 1).toNat * 2 ^ 8
      + (queryWord c 0).toNat))
  | 0x114 => some (loReg (queryWord c 3))
  | 0x128 => some (loReg (queryWord c 6))
  | 0x130 => some (r32 (tsum c.ctxs (·.objLive)))
  | 0x134 => some (r32 (tsum c.ctxs (·.objDying)))
  | _ => none

/-- Pairs of the OBJ page (06, Table 6.13). -/
def pairObj (c : Core) (off : Nat) : Option Word :=
  match off with
  | 0x118 => some (queryWord c 4)
  | 0x120 => some (queryWord c 5)
  | _ => none

/-! ## SQ pages -/

/-- SQ_STALL.OBJ: the sync handle or the first receive queue that the waiting command names (07, Table 7.13). -/
def stallObj : Stall → Nat
  | .waitObj h _ => h
  | .waitRemote _ h _ _ => h
  | .select base _ _ _ => base
  | _ => 0

/-- Programs that a sequencer's cache holds (07, Table 7.13). -/
def cacheProgs (c : Core) (sq : Nat) : Nat :=
  b2n (!(getSq c sq).words.isEmpty)
    + tsum c.queues (fun (q : Queue) => if q.sq = sq then (q.wait.filter (fun (s : Sub) => s.fetch != .none)).length else 0)

/-- SQ pages (07, Table 7.13). -/
def viewSq (c : Core) (n off : Nat) : Option Reg :=
  let x := getSq c n
  match off with
  | 0x104 => some (r32 (match x.q with
      | none => sqState c n * 2 ^ 30
      | some q => sqState c n * 2 ^ 30 + q * 2 ^ 21 + x.pc * 2 ^ 10 + headOp c n))
  | 0x108 => some (r32 (sqCause c n * 2 ^ 28 + stallObj x.stall))
  | 0x10C => some (r32 (match x.inst with | none => 0 | some p => 2 ^ 31 + p.1))
  | 0x120 => some (r32 (cacheUsed c n * 2 ^ 16 + cacheProgs c n))
  | _ => none

/-- Pairs of the SQ pages (07, Table 7.13). -/
def pairSq (c : Core) (n off : Nat) : Option Word :=
  match off with
  | 0x118 => some (sreg c n (regSqShapeSelReg c n))
  | _ => none

/-! ## GS, ISR, DE and DL pages -/

/-- The longest run of free edge blocks (08, Table 8.16). -/
def edgeRun (c : Core) : Nat := longestRun ((List.range 16384).map (fun b => !tget c.gs.edgeUse false b))

/-- GS page (08, Table 8.16). -/
def viewGs (c : Core) (off : Nat) : Option Reg :=
  let x := getImg c (regGsImgSelGraph c)
  match off with
  | 0x104 => some (r32 (b2n (!c.gs.ops.isEmpty) * 2 ^ 31 + (4080 - blocksUsed c) * 2 ^ 16 + sat c.gs.ops.length 16))
  | 0x108 => some (r32 (16384 - c.gs.edgeUse.length))
  | 0x10C => some (r32 (edgeRun c))
  | 0x114 => some (r32 (imgCode x.st * 2 ^ 30 + x.owner * 2 ^ 22 + x.access * 2 ^ 20 + x.versions.length * 2 ^ 12))
  | 0x118 => some (r32 (x.cur * 2 ^ 16 + (x.versions.map (·.insts)).sum))
  | 0x11C => some (r32 (tcount c.gs.imgs (fun (y : Img) => y.st != .free)))
  | _ => none

/-- ISR page (08, Table 8.17). -/
def viewIsr (c : Core) (off : Nat) : Option Reg :=
  let x := getInst c (regIsrInstSelId c)
  match off with
  | 0x108 => some (r32 (b2n c.isr.compacting * 2 ^ 31 + (16384 - tcount c.isr.insts (fun (y : Inst) => y.st != .free))))
  | 0x10C => some (r32 (freeCtrs c))
  | 0x110 => some (r32 ((freeRuns c).foldl (fun m p => max m p.2) 0))
  | 0x118 => some (r32 (instCode x.st * 2 ^ 30 + b2n x.init * 2 ^ 29 + x.graph * 2 ^ 16 + x.ver))
  | 0x11C => some (r32 (x.ctx * 2 ^ 24 + x.q * 2 ^ 15))
  | 0x120 => some (r32 (sat x.openN 0xFFFF * 2 ^ 16 + x.left))
  | 0x124 => some (r32 x.cbase)
  | _ => none

/-- DE page (08, Table 8.18). -/
def viewDe (c : Core) (off : Nat) : Option Reg :=
  match off with
  | 0x104 => some (r32 (b2n (!c.de.hold.isEmpty) * 2 ^ 31 + c.de.hold.length))
  | _ => none

/-- Masked positions of a lane (03, R149; 16, R804). -/
def maskedCount (c : Core) (k : Nat) : Nat :=
  (((List.range 68).filterMap (engAt k)).filter (fun e => !engOk c e)).length

/-- DL pages (08, Table 8.19). -/
def viewDl (c : Core) (n off : Nat) : Option Reg :=
  let x := getLane c n
  match off with
  | 0x104 => some (r32 (x.issues.length * 2 ^ 16 + readyLen x))
  | 0x108 => some (r32 (match x.resv with
      | some (_, _, _, tag) => 2 ^ 31 + tag
      | none => if laneCoord c n then 2 ^ 31 + c.de.coordTag else 0))
  | 0x10C => some (r32 (maskedCount c n))
  | _ => none

/-! ## ST and LEHR pages -/

/-- ST page (09, Table 9.10). -/
def viewSt (c : Core) (off : Nat) : Option Reg :=
  let x := c.st
  match off with
  | 0x108 => some (r32 (tcount x.objs (fun (y : SyncObj) => y.st == .live)))
  | 0x10C => some (r32 (tcount x.objs (fun (y : SyncObj) => y.st == .abandoned)))
  | 0x110 => some (r32 x.notify.length)
  | 0x140 => some x.oooObj
  | 0x144 => some x.oooSrc
  | 0x170 => some (loReg (wat x.dbg 2))
  | 0x178 => some 0
  | 0x17C => some 0
  | 0x180 => some (r32 (b2n x.forceDone * 2 ^ 31 + x.forceRef))
  | 0x18C => some (BitVec.ofInt 32 (getQ c (regStBalSelQueue c)).bal)
  | 0x1B0 => some (r32 x.driftLast)
  | _ => none

/-- Pairs of the ST page; DBG_VALUE and DBG_W1 show the snapshot (09, Table 9.10, R503). -/
def pairSt (c : Core) (off : Nat) : Option Word :=
  match off with
  | 0x148 => some c.st.oooX
  | 0x150 => some c.st.oooVal
  | 0x160 => some (wat c.st.dbg 0)
  | 0x168 => some (wat c.st.dbg 1)
  | _ => none

/-- LEHR page (09, Table 9.12). -/
def viewLehr (c : Core) (off : Nat) : Option Reg :=
  let x := c.lehr
  match off with
  | 0x120 => some (r32 (b2n x.escalated * 2 ^ 31 + b2n x.dump.isSome * 2 ^ 30 + x.lastPart * 2 ^ 16 + x.lastKind))
  | 0x124 => some (x.stall.setWidth 32)
  | _ => none

/-! ## MF and CRU pages -/

/-- Offset of the oldest record of a ring that is not taken (10, Table 10.8). -/
def rxqHead (x : Rxq) : Nat :=
  match x.recs.find? (fun (r : RingRec) => r.st != .taken && r.st != .released) with
  | some r => r.off
  | none => x.p

/-- MF page (10, Table 10.8). -/
def viewMf (c : Core) (off : Nat) : Option Reg :=
  let x := getRxq c (regMfRxqSelRxq c)
  match off with
  | 0x108 => some (r32 (slotCode x.st * 2 ^ 30 + x.access * 2 ^ 28 + b2n x.pause * 2 ^ 27 + b2n x.phase * 2 ^ 26
      + x.owner * 2 ^ 16 + (x.recs.filter (fun (r : RingRec) => r.st == .taken)).length))
  | 0x10C => some (r32 x.p)
  | 0x110 => some (r32 (rxqHead x))
  | 0x114 => some (r32 x.used)
  | 0x118 => some (r32 (b2n x.pause))
  | 0x124 => some (r32 x.landSize)
  | 0x138 => some c.mf.nackLast
  | _ => none

/-- Pairs of the MF page (10, Table 10.8). -/
def pairMf (c : Core) (off : Nat) : Option Word :=
  let x := getRxq c (regMfRxqSelRxq c)
  match off with
  | 0x11C => some (w64 x.landBase)
  | 0x140 => some x.msgs
  | 0x148 => some x.nacks
  | _ => none

/-- CRU page (10, Table 10.9). -/
def viewCru (c : Core) (off : Nat) : Option Reg :=
  let x := getCq c (regCruCqSelCq c)
  match off with
  | 0x108 => some x.cfg0
  | 0x10C => some x.cfg1
  | 0x110 => some x.cfg2
  | 0x114 => some x.cfg3
  | 0x118 => some (r32 (b2n (x.st != .off)))
  | 0x11C => some (r32 (cqCode x.st * 2 ^ 30 + x.inst * 2 ^ 16 + x.count))
  | 0x120 => some (r32 (x.target * 2 ^ 16 + x.lines))
  | 0x124 => some (r32 (1024 - c.cru.used))
  | _ => none

/-! ## SCHED, MARV and TU pages -/

/-- SCHED page (11, Table 11.10). -/
def viewSched (c : Core) (off : Nat) : Option Reg :=
  let q := regSchedQSelQueue c
  let x := regSchedCtxSelCtx c
  let sw := tget c.sched.switches (0, 0, 0) q
  match off with
  | 0x134 => some (r32 (rankOf c x * 2 ^ 24 + (getSched c x).slow))
  | 0x144 => some (r32 (phaseCode (getPre c q).phase * 2 ^ 29 + b2n (c.sched.inherits.any (fun p => p.1 == q)) * 2 ^ 28
      + eprio c q * 2 ^ 25 + b2n (getQ c q).pointLate * 2 ^ 24 + sw.2.2 * 2 ^ 16))
  | 0x148 => some (r32 (sw.1 * 2 ^ 16 + sw.2.1))
  | 0x14C => some c.sched.lateLast
  | _ => none

/-- Pairs of the SCHED page (11, Table 11.10). -/
def pairSched (c : Core) (off : Nat) : Option Word :=
  match off with
  | 0x138 => some (BitVec.ofInt 64 (getSched c (regSchedCtxSelCtx c)).def_)
  | _ => none

/-- MARV page (11, Table 11.11). -/
def viewMarv (c : Core) (off : Nat) : Option Reg :=
  match off with
  | 0x128 => some (r32 (phiNow c * 2 ^ 16 + c.marv.uh * 2 ^ 8 + c.marv.ua))
  | 0x12C => some (r32 (tsum c.isr.insts (fun (x : Inst) => tcount x.mslots (·.used))))
  | _ => none

/-- TU page (11, Table 11.12). -/
def viewTu (c : Core) (off : Nat) : Option Reg :=
  let x := c.tu
  match off with
  | 0x108 => some (r32 (b2n x.lock * 2 ^ 31 + b2n c.bring.straps.tallySrc * 2 ^ 30 + x.cmps.length * 2 ^ 16))
  | 0x10C => some (r32 (sat (x.cmps.length + x.wait.length + x.due.length) 0x1FFFF))
  | 0x13C => some (match tfind x.cmps (regTuAlarmSelCmp c) with
      | some a => r32 (2 ^ 31 + a.kind * 2 ^ 27 + a.holder * 2 ^ 13)
      | none => 0)
  | _ => none

/-- Pairs of the TU page (11, Table 11.12). -/
def pairTu (c : Core) (off : Nat) : Option Word :=
  match off with
  | 0x100 => some (now c)
  | 0x120 => some c.tu.backLast
  | 0x140 => some (tget c.tu.cmps {} (regTuAlarmSelCmp c)).at_
  | _ => none

/-! ## SHR, LKP, STRM and TBL pages -/

/-- Routes of a group whose descriptor has been read, in a state that a test accepts (12, Table 12.16). -/
def groupRoutes (c : Core) (k : Nat) (p : RouteState → Bool) : Nat :=
  (c.shr.routes.filter (fun (r : Route) => r.bound && r.group == k && p r.st)).length

/-- SHR page (12, Table 12.16). -/
def viewShr (c : Core) (off : Nat) : Option Reg :=
  let k := regShrGrpSelGroup c
  let g := getGroup c k
  let e := regShrExpSelExpert c
  match off with
  | 0x124 => some g.cfg
  | 0x128 => some (loReg g.mask)
  | 0x12C => some (hiReg g.mask)
  | 0x130 => some (loReg g.placeA)
  | 0x134 => some (hiReg g.placeA)
  | 0x138 => some (loReg g.placeB)
  | 0x13C => some (hiReg g.placeB)
  | 0x140 => some (r32 (g.gen * 2 ^ 16 + b2n g.sel))
  | 0x144 => some g.next
  | 0x148 => some (r32 g.nextSeq)
  | 0x14C => some (r32 g.seq)
  | 0x150 => some (r32 (groupRoutes c k (· == .waiting) * 2 ^ 16 + groupRoutes c k (· != .waiting)))
  | 0x158 => some (r32 (tget c.shr.popReq 0 e))
  | 0x15C => some (r32 (tget c.shr.popKept 0 e))
  | 0x1B0 => some (r32 (b2n (c.shr.routes.any (fun (r : Route) => r.st == .computing)) * 2 ^ 8 + routesOpen c))
  | 0x1B4 => some c.shr.lastFault
  | _ => none

/-- The key of the selected lookup engine as the register pair shows it (13, Table 13.7). -/
def pairLkp (c : Core) (off : Nat) : Option Word :=
  match off with
  | 0x124 => some (match tget c.lkp none (regLkpEngSelEngine c) with
      | some k => w64 (fld k 0 32 + (16 + fld k 32 4) * 2 ^ 32)
      | none => 0)
  | _ => none

/-- STRM page (13, Table 13.8). -/
def viewStrm (c : Core) (off : Nat) : Option Reg :=
  let n := regStrmSelStream c
  let x := getStream c n
  match off with
  | 0x114 => some (r32 (slotsUsed c))
  | 0x124 => some (r32 (streamCode x.st * 2 ^ 29 + b2n x.pend.isSome * 2 ^ 28 + x.attached.toNat * 2 ^ 16
      + (ofBits (x.detached.map (·.1))).toNat * 2 ^ 8 + (issuesWhere c (issueOfStream n)).length))
  | 0x170 => some c.strm.detachLast
  | 0x174 => some c.strm.overrunLast
  | _ => none

/-- Pairs of the STRM page (13, Table 13.8). -/
def pairStrm (c : Core) (off : Nat) : Option Word :=
  let x := getStream c (regStrmSelStream c)
  match off with
  | 0x118 => some c.strm.armSeq
  | 0x128 => some x.cur.gen
  | 0x130 => some (w64 x.pcount)
  | 0x138 => some (w64 x.ccount)
  | 0x140 => some (w64 x.sent)
  | _ => none

/-- TBL page (13, Table 13.10). -/
def viewTbl (c : Core) (off : Nat) : Option Reg :=
  match off with
  | 0x108 => some c.tbl.epoch
  | 0x10C => some 0
  | 0x110 => some 0
  | 0x114 => some (r32 (shadowCode c.tbl.shadow))
  | 0x118 => some (r32 (c.tbl.livePrev * 2 ^ 16 + c.tbl.liveCur))
  | _ => none

/-- Pairs of the TBL page (13, Table 13.10). -/
def pairTbl (c : Core) (off : Nat) : Option Word :=
  match off with
  | 0x128 => some c.tbl.lastFlip
  | 0x138 => some c.tbl.lateNs
  | _ => none

/-! ## PP and DET pages -/

/-- Dies whose partner entry a test accepts, as a map. -/
def peerMap (c : Core) (p : Partner → Bool) : Word := ofBits ((c.pp.peers.filter (fun e => p e.2)).map (·.1))

/-- PHB_AGE of a partner (14, Table 14.9). -/
def hbAge (c : Core) (x : Partner) : Reg :=
  match x.heard with
  | some t => r32 (sat (now c - t).toNat 0xFFFFFFFF)
  | none => 0xFFFFFFFF

/-- PP page (14, Table 14.9). -/
def viewPp (c : Core) (off : Nat) : Option Reg :=
  let p := c.pp
  let x := getPeer c (regPpPselDie c)
  match off with
  | 0x120 => some (r32 (role c * 2 ^ 30 + dieId c * 2 ^ 24 + b2n c.tu.lock * 2 ^ 23
      + b2n (linkUpTo c (regPpCfgMgrDie c)) * 2 ^ 22 + b2n (sysOk c) * 2 ^ 21
      + b2n (role c == 1 || selfAgree c) * 2 ^ 20 + b2n p.skewed * 2 ^ 19 + (upDies c).length))
  | 0x124 => some p.ownEpoch
  | 0x148 => some p.agreedGen
  | 0x154 => some (r32 (linkCode x.st * 2 ^ 30 + b2n x.txReady * 2 ^ 29 + b2n x.skew * 2 ^ 28 + x.lastCause * 2 ^ 25
      + x.role.toNat * 2 ^ 23 + b2n x.lock * 2 ^ 22 + (x.next - x.una).toNat))
  | 0x158 => some (x.epoch.getD 0)
  | 0x15C => some x.next
  | 0x160 => some x.una
  | 0x164 => some x.exp
  | 0x170 => some x.gen
  | 0x174 => some (hbAge c x)
  | 0x1E0 => some p.gateLast
  | 0x1F0 => some 0
  | 0x1F4 => some (r32 (b2n p.wrstBusy * 2 ^ 31 + p.wrstDie * 2 ^ 8 + p.wrstRes))
  | 0x1F8 => some (r32 (b2n p.cast.isSome * 2 ^ 31 + p.failDie * 2 ^ 16 + p.castId.toNat))
  | 0x1FC => some (r32 p.flipRes)
  | 0x208 => some (r32 (remoteWaits c))
  | _ => none

/-- Pairs of the PP page (14, Table 14.9). -/
def pairPp (c : Core) (off : Nat) : Option Word :=
  match off with
  | 0x128 => some (peerMap c (fun x => x.st == .up))
  | 0x130 => some (if role c = 1 then peerMap c (fun x => x.skew) else 0)
  | 0x140 => some c.pp.agreedDig
  | 0x168 => some (getPeer c (regPpPselDie c)).dig
  | 0x200 => some c.pp.armedMap
  | _ => none

/-- DIV_STAT.SETTLED (15, R786). -/
def divSettled (c : Core) : Bool :=
  c.det.div.valid && !(c.det.table.any (fun (e : LsEntry) => e.mine && decide (e.pseq.toNat < c.det.div.pseq.toNat)))

/-- DET page (15, Table 15.5). -/
def viewDet (c : Core) (off : Nat) : Option Reg :=
  let d := c.det
  match off with
  | 0x114 => some (r32 (b2n (regDetCtrlRepro c) * 2 ^ 31 + lsCode d.st * 2 ^ 28 + d.side * 2 ^ 26 + d.cause * 2 ^ 24
      + (if d.side = 2 then d.held.length else d.table.length)))
  | 0x118 => some d.variesFirst
  | 0x158 => some d.div.pchk
  | 0x15C => some d.div.schk
  | 0x170 => some (r32 (b2n d.div.valid * 2 ^ 31 + b2n (divSettled c) * 2 ^ 30 + b2n d.div.varies * 2 ^ 29
      + d.div.kind * 2 ^ 27))
  | _ => none

/-- Pairs of the DET page (15, Table 15.5). -/
def pairDet (c : Core) (off : Nat) : Option Word :=
  match off with
  | 0x150 => some c.det.div.key
  | 0x160 => some c.det.div.pseq
  | 0x168 => some c.det.div.tally
  | _ => none

/-! ## RAS, PMU, TRC and DBG pages -/

/-- Context of the containment whose hold is in effect (16, Table 16.11). -/
def holdCtx (c : Core) : Nat :=
  match c.ras.hold, c.ras.queue with
  | true, k :: _ => k.ctx
  | _, _ => 0

/-- RAS page (16, Table 16.11). -/
def viewRas (c : Core) (off : Nat) : Option Reg :=
  match off with
  | 0x108 => some (r32 (b2n c.ras.hold * 2 ^ 31 + holdCtx c * 2 ^ 16
      + sat (c.ras.queue.length - b2n c.ras.hold) 255 * 2 ^ 8))
  | 0x16C => some (r32 (b2n (getEng c (regRasEngSelId c)).masked * 2 ^ 31 + (getEng c (regRasEngSelId c)).faults))
  | 0x170 => some 0
  | 0x174 => some c.ras.lastHold
  | _ => fifoReg c pgRas off

/-- Pairs of the RAS page (16, Table 16.11). -/
def pairRas (c : Core) (off : Nat) : Option Word :=
  match off with
  | 0x158 => some (tget c.ras.ce 0 (regRasCntSelSource c))
  | 0x160 => some (tget c.ras.ue 0 (regRasCntSelSource c))
  | _ => fifoPair c pgRas off

/-- PMU page (17, Table 17.7). -/
def viewPmu (c : Core) (off : Nat) : Option Reg :=
  match off with
  | 0x104 => some 0
  | 0x114 => some (r32 (b2n c.pmu.uqValid * 2 ^ 31))
  | 0x138 => some (c.pmu.uqOpen.getD 0 0)
  | 0x13C => some (c.pmu.uqOpen.getD 1 0)
  | _ => none

/-- Pairs of the PMU page: a counter, or its snapshot while PMU_VIEW.SNAP is 1 (17, Table 17.7, R816). -/
def pairPmu (c : Core) (off : Nat) : Option Word :=
  if 0x400 ≤ off ∧ off < 0xC00 then
    some (tget (if regPmuViewSnap c then c.pmu.snap else c.pmu.cnt) 0 ((off - 0x400) / 8))
  else match off with
  | 0x118 => some (wat c.pmu.uq 0)
  | 0x120 => some (wat c.pmu.uq 1)
  | 0x128 => some (wat c.pmu.uq 2)
  | 0x130 => some (wat c.pmu.uq 3)
  | _ => none

/-- TRC page (17, Table 17.8). -/
def viewTrc (c : Core) (off : Nat) : Option Reg :=
  match off with
  | 0x124 => some c.trc.wptr
  | 0x12C => some (r32 (b2n c.trc.trig * 2 ^ 31 + b2n c.trc.fail * 2 ^ 30 + c.trc.staged.length))
  | 0x130 => some 0
  | _ => none

/-- DBG page; a halt is immediate, so HALT_REQ reads zero (17, Table 17.9, R831). -/
def viewDbg (c : Core) (off : Nat) : Option Reg :=
  match off with
  | 0x100 => some 0
  | 0x104 => some 0
  | 0x108 => some 0
  | 0x10C => some (loReg (ofBits (below 32 (sqHeld c))))
  | 0x130 => some c.dbg.bpHit
  | 0x148 => some 0
  | 0x14C => some 0
  | 0x150 => some (r32 (b2n c.dbg.done * 2 ^ 31 + c.dbg.refused))
  | _ => none

/-! ## Every page -/

/-- A register of a page type that shows what it does not hold: 32 bits. -/
def regView (r : Rst) (c : Core) (ty n off : Nat) : Option Reg :=
  match ty with
  | 0x01 => viewGlb c off
  | 0x02 => viewStrap c off
  | 0x03 => viewQsc c off
  | 0x04 => viewSrst r c off
  | 0x05 => viewSic c off
  | 0x06 => viewRas c off
  | 0x07 => viewTrc c off
  | 0x08 => viewPmu c off
  | 0x09 => viewDbg c off
  | 0x0A => viewFe c off
  | 0x0B => viewFeq c n off
  | 0x0C => viewCtx c n off
  | 0x0D => viewPart c n off
  | 0x0E => viewObj c off
  | 0x0F => viewSq c n off
  | 0x10 => viewGs c off
  | 0x11 => viewIsr c off
  | 0x12 => viewDe c off
  | 0x13 => viewDl c n off
  | 0x14 => viewSt c off
  | 0x15 => viewLehr c off
  | 0x16 => viewMf c off
  | 0x17 => viewCru c off
  | 0x18 => match viewSched c off with | some v => some v | none => fifoReg c pgSched off
  | 0x19 => viewMarv c off
  | 0x1A => viewTu c off
  | 0x1B => viewShr c off
  | 0x1D => viewStrm c off
  | 0x1E => viewTbl c off
  | 0x1F => viewPp c off
  | 0x20 => viewDet c off
  | _ => none

/-- A pair of registers of a page type that shows what it does not hold, by the offset of its _LO: 64 bits. -/
def pairView (r : Rst) (c : Core) (ty n off : Nat) : Option Word :=
  match ty with
  | 0x01 => pairGlb c off
  | 0x04 => pairSrst r off
  | 0x06 => pairRas c off
  | 0x08 => pairPmu c off
  | 0x0B => pairFeq c n off
  | 0x0C => pairCtx c n off
  | 0x0D => pairPart c n off
  | 0x0E => pairObj c off
  | 0x0F => pairSq c n off
  | 0x14 => pairSt c off
  | 0x16 => pairMf c off
  | 0x18 => match pairSched c off with | some w => some w | none => fifoPair c pgSched off
  | 0x1A => pairTu c off
  | 0x1C => pairLkp c off
  | 0x1D => pairStrm c off
  | 0x1E => pairTbl c off
  | 0x1F => pairPp c off
  | 0x20 => pairDet c off
  | _ => none

end Sys2Proof.Machine
end

