-- ==== Sys2Proof/Machine/Quiesce.lean ====
section
/-! DEFINITION. Writes of QUIESCE, the end of a quiesce sequence and what goes on after it (03, R128-R131, Table 3.3; 04,
R205-R208). -/

namespace Sys2Proof.Machine

/-- Steps 3 and 6 of Table 3.3 are over: no issue is without a completion, and no request without its full response (03). -/
def quiet (c : Core) : Bool := openIssues c == 0 && c.io.reqs.isEmpty

/-- QUIESCE_DONE: DONE and tf_quiesced rise (03, Table 3.3 step 7; 04, R205). -/
def execQuiesceDone (s : State) : Host.Outcome State Fault Refusal :=
  mission (fun c =>
    if c.qsc.req && !c.qsc.done && quiet c then
      irqSet { c with qsc := { c.qsc with done := true } } pgQsc 2
    else c) s

/-- AGREE_US timers of the WAITING routes go on with the time that they had left when quiescing started, or with all of it for
a route that landed after that (12, R663). -/
def routeTimers (c : Core) (t0 : Word) : Core :=
  let go (t : Word) : Word := if geW t t0 then now c else t + (now c - t0)
  { c with shr := { c.shr with routes := c.shr.routes.map (fun (r : Route) => { r with landed := r.landed.map go }) } }

/-- Alarms that fell due during quiescing fire late (03, R130; 11, R593; 13, R706). -/
def alarmsLate (c : Core) : Core :=
  { c with tu := { c.tu with due := c.tu.due.map (fun (a : Alarm) => { a with late := true }) } }

/-- What was held while the block was quiesced takes place (03, R129). -/
def heldGo (c : Core) : Core :=
  let reqs := c.io.heldReqs
  let c := { c with io := { c.io with out := c.io.heldOut.reverse ++ c.io.out, heldOut := [], heldReqs := [] } }
  reqs.foldl driveReq c

/-- Quiescing ends without a reset (03, R129, R130; 04, R208). -/
def quiesceEnd (c : Core) : Core :=
  let c := { routeTimers c c.qsc.at_ with qsc := {} }
  unitsResume (heldGo (realignSkipped (alarmsLate c)))

/-- A write of QUIESCE (04, R206-R208). -/
def writeQuiesce (c : Core) (v : Reg) : Core :=
  let v := v &&& 0x11
  if rbit v 0 then
    if !c.qsc.req then quiesceStart (regSet c pgQsc 0x100 v) (rbit v 4)
    else if c.qsc.abort && !rbit v 4 then c
    else quiesceStart (regSet c pgQsc 0x100 v) (rbit v 4)
  else
    let c := regSet c pgQsc 0x100 v
    if c.qsc.req then quiesceEnd c else c

end Sys2Proof.Machine
end

