-- ==== Sys2Proof/Machine/Agree.lean ====
section
/-! DEFINITION. The shadow copies of class S registers: their agreement rules, the commit and the discard (04, R175-R183). -/

namespace Sys2Proof.Machine

/-! ## Agreement rules

Each function takes the state as it would stand with the page's shadow set active, and answers the first failing field and
the reason code. -/

/-- The first of several checks that fails. -/
def firstBad : List (Bool × Nat × Nat) → Option (Nat × Nat)
  | [] => none
  | (ok, bad) :: t => if ok then firstBad t else some bad

/-- A value lies in a range. -/
def inRange (x lo hi : Nat) : Bool := decide (lo ≤ x ∧ x ≤ hi)

/-- Table 4.5 (04): type codes 0x01 to 0x20 exist. -/
def agreeGlb (c : Core) : Option (Nat × Nat) :=
  firstBad [(decide (regGlbDigestTypeMask c % 2 = 0), 0x120, 1), (decide (regGlbDigestTypeMask c < 2 ^ 33), 0x124, 1)]

/-- Table 9.11 (09). -/
def agreeSt (c : Core) : Option (Nat × Nat) :=
  let p := regStRealignPeriod c
  firstBad [(p == 0 || inRange p 1000 3600000000, 0x104, 1)]

/-- Table 9.13 (09). -/
def agreeLehr (c : Core) : Option (Nat × Nat) :=
  firstBad [
    (inRange (regLehrWin c) 100 60000000, 0x100, 1),
    (decide (regLehrWin c ≤ regLehrEscWin c), 0x104, 2),
    (decide (100 ≤ regLehrAbortWin c), 0x108, 3)]

/-- Table 11.13 (11), SCHED. -/
def agreeSched (c : Core) : Option (Nat × Nat) :=
  firstBad [
    (inRange (regSchedPeriodUs c) 100 1000000, 0x104, 1),
    (inRange (regSchedPointLimitUs c) 10 1000000, 0x10C, 2),
    (decide (regSchedVictimMask c % 2 = 0), 0x114, 3)]

/-- Table 11.13 (11), MARV. -/
def agreeMarv (c : Core) : Option (Nat × Nat) :=
  firstBad [
    (decide (regMarvPhiLimMin c ≤ regMarvPhiInit c ∧ regMarvPhiInit c ≤ regMarvPhiLimMax c), 0x104, 1),
    (decide (regMarvPhiLimMax c ≤ 64), 0x108, 1),
    (inRange (regMarvUtilHighHbm c) 1 100 && inRange (regMarvUtilHighArray c) 1 100, 0x114, 2),
    (inRange (regMarvAdaptUs c) 10 10000000, 0x110, 3)]

/-- Table 12.17 (12). -/
def agreeShr (c : Core) : Option (Nat × Nat) :=
  firstBad [
    (inRange (regShrRevCfgReplMax c) 1 4 && regShrRevCfgHotQ c != 0, 0x108, 1),
    (inRange (regShrAgreeUs c) 10 10000000, 0x10C, 2),
    (inRange (regShrPlaceEpochUs c) 1000 3600000000, 0x104, 3)]

/-- Table 13.9 (13). -/
def agreeStrm (c : Core) : Option (Nat × Nat) := firstBad [(regStrmQXferLimit c != 0, 0x10C, 1)]

/-- Table 14.10 (14). -/
def agreePp (c : Core) : Option (Nat × Nat) :=
  let m := regPpPeerMask c
  let mgr := regPpCfgMgrDie c
  firstBad [
    (!m.testBit (dieId c), if dieId c < 32 then 0x108 else 0x10C, 1),
    (decide (role c < 2) || (mgr != dieId c && m.testBit mgr), 0x100, 2),
    (!regPpCfgCastTbl c || role c == 1, 0x100, 3),
    (regPpTimeHbUs c != 0 && inRange (regPpTimeLossHb c) 2 15 && decide (2 ≤ regPpTimeRetxUs c), 0x110, 4),
    (inRange (regPpSyncLeadUs c) 1 1000000, 0x114, 5),
    (decide (10 ≤ regPpCastUs c), 0x11C, 5)]

/-- Table 15.6 (15). -/
def agreeDet (c : Core) : Option (Nat × Nat) :=
  firstBad [
    (inRange (regDetLsFlush c) 16 65535, 0x108, 1),
    (inRange (regDetLsMatchUs c) 10 10000000, 0x10C, 2)]

/-- Table 16.12 (16). -/
def agreeRas (c : Core) : Option (Nat × Nat) := firstBad [(inRange (regRasScrubGap c) 16 65535, 0x104, 1)]

/-- Events of Table 17.1 (17), each with the FKINDs of its filters. -/
def pmuEvents : List (Nat × List Nat) :=
  [0x000, 0x001, 0x035, 0x050, 0x0A2, 0x0A3, 0x0B0, 0x0B1, 0x0C0].map (fun e => (e, []))
  ++ [(0x010, [1]), (0x046, [4]), (0x060, [1, 2]), (0x061, [1, 2]), (0x0A0, [2]), (0x0A1, [2])]
  ++ [0x011, 0x012, 0x020, 0x021, 0x022, 0x030, 0x032, 0x033, 0x034, 0x051, 0x070, 0x080, 0x081, 0x090].map
      (fun e => (e, [1, 2, 3]))
  ++ [0x031, 0x040, 0x041, 0x042, 0x043, 0x044, 0x045].map (fun e => (e, [1, 2, 3, 4]))

/-- Filters of an event of Table 17.1; none for an event that the table does not list. -/
def pmuFilters (e : Nat) : Option (List Nat) := (pmuEvents.find? (fun p => p.1 == e)).map (·.2)

/-- Table 17.10 (17): the first select that names no event, else the first one whose filter its event does not have. -/
def agreePmu (c : Core) : Option (Nat × Nat) :=
  match (List.range 256).find? (fun n => (pmuFilters (regPmuEvselEvent c n)).isNone) with
  | some n => some (0xC00 + 4 * n, 1)
  | none =>
    let bad (n : Nat) : Bool :=
      regPmuEvselFkind c n != 0 && !(((pmuFilters (regPmuEvselEvent c n)).getD []).contains (regPmuEvselFkind c n))
    ((List.range 256).find? bad).map (fun n => (0xC00 + 4 * n, 2))

/-- The agreement rules of a page; a page whose chapter states none passes every check (04, R177). -/
def agree (c : Core) (page : Nat) : Option (Nat × Nat) :=
  match pageTy page with
  | 0x01 => agreeGlb c
  | 0x06 => agreeRas c
  | 0x08 => agreePmu c
  | 0x14 => agreeSt c
  | 0x15 => agreeLehr c
  | 0x18 => agreeSched c
  | 0x19 => agreeMarv c
  | 0x1B => agreeShr c
  | 0x1D => agreeStrm c
  | 0x1F => agreePp c
  | 0x20 => agreeDet c
  | _ => none

/-! ## What a commit changes besides the registers -/

/-- PHI_INIT is phi while ADAPT_EN is 0 (11, R603). -/
def committedMarv (old new : Core) : Core :=
  if !regMarvCtrlAdaptEn new then { new with marv := { new.marv with phi := regMarvPhiInit new } }
  else if !regMarvCtrlAdaptEn old then { new with marv := { new.marv with phi := regMarvPhiInit old } }
  else new

/-- REALIGN_PERIOD leaves or becomes zero (11, R857). -/
def committedSt (old new : Core) : Core :=
  if regStRealignPeriod new = 0 then alarmDrop new 5 0
  else if regStRealignPeriod old = 0 then armPeriod new 5 (regStRealignPeriod new) (now new)
  else new

/-- The counters whose select has changed are cleared (17, R815). -/
def committedPmu (old new : Core) : Core :=
  let same (n : Nat) : Bool :=
    regPmuEvselEvent old n == regPmuEvselEvent new n && regPmuEvselFkind old n == regPmuEvselFkind new n
      && regPmuEvselFval old n == regPmuEvselFval new n
  { new with pmu := { new.pmu with cnt := new.pmu.cnt.filter (fun e => same e.1) } }

/-- What follows the apply of a page's shadow set. -/
def committed (old new : Core) (page : Nat) : Core :=
  match pageTy page with
  | 0x01 =>
    if regGlbDigestTypeMask old = regGlbDigestTypeMask new then new else { new with rs := { new.rs with dieBusy := true } }
  | 0x08 => committedPmu old new
  | 0x14 => committedSt old new
  | 0x19 => committedMarv old new
  | 0x1F => peerMaskSet new (w64 (regPpPeerMask old)) (w64 (regPpPeerMask new))
  | _ => new

/-! ## Commit and discard -/

/-- Shadow copies of a page that have been written. -/
def shadowOf (c : Core) (page : Nat) : Tbl Reg := c.rs.shadow.filter (fun e => e.1 / 0x1000 == page)

/-- The page's shadow copies equal its active ones. -/
def shadowDrop (c : Core) (page : Nat) : Core :=
  let c := { c with rs := { c.rs with shadow := c.rs.shadow.filter (fun e => e.1 / 0x1000 != page) } }
  modPage c page (fun p => { p with dirty := false })

/-- The state with the page's shadow set active. -/
def shadowApply (c : Core) (page : Nat) : Core :=
  (shadowOf c page).foldl (fun c e => regPut c page (e.1 % 0x1000) e.2) c

/-- A page holds class S fields (04, Table 4.2, PAGE_CAP.S_FIELDS). -/
def hasS (page : Nat) : Bool := (regRows (pageTy page)).any (fun r => r.cls == 2)

/-- A commit (04, R176-R180). -/
def commitPage (c : Core) (page : Nat) : Core :=
  if !hasS page then c
  else
    let new := shadowApply c page
    match agree new page with
    | some (off, reason) =>
      let c := modPage c page (fun p => { p with failOff := BitVec.ofNat 10 (off / 4), last := 2 })
      irqSet (pageErr c page 0x08 off reason) page 1
    | none =>
      let new := modPage (shadowDrop new page) page (fun p =>
        { p with seq := p.seq + 1, last := 1, digestBusy := true })
      committed c (irqSet new page 1) page

/-- A discard (04, R182). -/
def discardPage (c : Core) (page : Nat) : Core := shadowDrop c page

end Sys2Proof.Machine
end

