-- ==== Sys2Proof/Machine/Registers.lean ====
section
/-! DEFINITION. Reads and writes of the register space: the page header, the access codes and field classes, the 64-bit pairs,
and what a write of a register asks of its unit (02, R44-R50; 04, R161-R190; 00, Tables 0.6, 0.7). -/

namespace Sys2Proof.Machine

/-! ## Units that run (04, R172) -/

/-- Every unit but the SIC counts as stopped: while the block is quiesced, and in bring-up stages 1 to 6 (03, R131, R142). -/
def allStopped (c : Core) : Bool := c.qsc.done || !isUp c

/-- The FE runs for its class Q fields (05, "The FE page"). -/
def feRuns (c : Core) : Bool := regFeCtrlEn c || feActive c

/-- An instance is not FREE. -/
def anyInst (c : Core) : Bool := c.isr.insts.any (fun e => e.2.st != .free)

/-- The unit of a page type and number runs, as its chapter states. -/
def unitRuns (c : Core) (ty n : Nat) : Bool :=
  match ty with
  | 0x07 => regTrcCtrlEn c || !c.trc.staged.isEmpty
  | 0x0A => feRuns c
  | 0x0D => c.ctxs.any (fun e => e.2.st != .free && e.2.part == n)
  | 0x0E => feRuns c
  | 0x0F => (getSq c n).q.isSome
  | 0x10 => !c.gs.ops.isEmpty
  | 0x11 => anyInst c || regFeCtrlEn c
  | 0x1D => c.strm.slots.any (fun e => e.2.st != .idle)
  | 0x20 => anyInst c || c.det.st != .off
  | _ => false

/-- PAGE_STAT.UNIT_RUN (04, Table 4.2; 03, R131, R142, R212). -/
def unitRun (c : Core) (ty n : Nat) : Bool :=
  if ty = 0x05 then !c.qsc.done && c.sic.modLeft != 0
  else !allStopped c && unitRuns c ty n

/-! ## What a register shows -/

/-- A page type has registers of a class (04, Table 4.2, PAGE_CAP). -/
def hasCls (ty cls : Nat) : Bool := (regRows ty).any (fun r => r.cls == cls)

/-- A header register (04, Table 4.2). -/
def headerReg (c : Core) (page : Nat) (t : PageType) (n off : Nat) : Reg :=
  let p := getPage c page
  match off with
  | 0x00 => r32 (pageId page)
  | 0x04 => 0x100
  | 0x08 => r32 (t.irqBits * 2 ^ 8 + b2n (hasCls t.ty 3) * 8 + b2n (hasCls t.ty 1) * 4 + b2n (hasCls t.ty 2) * 2 + 1)
  | 0x0C => r32 (b2n p.viewActive * 4)
  | 0x10 => r32 (b2n p.digestBusy * 8 + b2n (p.code != 0) * 4 + b2n p.dirty * 2 + b2n (unitRun c t.ty n))
  | 0x18 => p.irqRaw
  | 0x1C => irqEn c page
  | 0x20 => irqStat c page
  | 0x24 => r32 (p.more.toNat * 2 ^ 16 + p.code.toNat)
  | 0x28 => p.infoLo
  | 0x2C => p.infoHi
  | 0x34 => r32 (p.seq.toNat * 2 ^ 16 + p.failOff.toNat * 4 + p.last.toNat)
  | 0x38 => loReg (cfgDigest c page)
  | 0x3C => hiReg (cfgDigest c page)
  | _ => 0

/-- An offset holds the _LO of a pair: in the header ERR_INFO and CFG_DIGEST (04, Table 4.2, R184). -/
def isLo (ty off : Nat) : Bool :=
  off == 0x28 || off == 0x38
    || (loOffs ty).any (fun e => decide (e.1 ≤ off ∧ (off - e.1) % e.2.2 = 0 ∧ (off - e.1) / e.2.2 < e.2.1))

/-- A register of the map as a read shows it: class S registers show the shadow copy unless VIEW_ACTIVE is 1 (00, Table 0.6; 04,
R183). -/
def ownReg (c : Core) (page off : Nat) : Reg :=
  match rowOf (pageTy page) off with
  | none => 0
  | some r =>
    if r.cls = 2 ∧ (getPage c page).viewActive = false then
      (tfind c.rs.shadow (regAddr page off)).getD (regCur c page off)
    else regCur c page off

/-- One half of a pair: shown by its unit, or of the map, or of an event counter. -/
def halfReg (r : Rst) (c : Core) (page ty n lo off : Nat) (half : Word → Reg) : Reg :=
  match pairView r c ty n lo with
  | some w => half w
  | none => if (rowOf ty off).isSome then ownReg c page off else half (cntGet c page lo)

/-- The value of a register as it stands; an offset that no register takes reads zero (04, R162). -/
def regNow (r : Rst) (c : Core) (page off : Nat) : Reg :=
  match pageOf page with
  | none => 0
  | some (t, n) =>
    if off < 0x100 then headerReg c page t n off
    else match regView r c t.ty n off with
    | some v => v
    | none =>
      if isLo t.ty off then halfReg r c page t.ty n off off loReg
      else if 4 ≤ off && isLo t.ty (off - 4) then halfReg r c page t.ty n (off - 4) off hiReg
      else ownReg c page off

/-! ## Reads -/

/-- A register read, with what the read does: DBG_VALUE_LO takes its snapshot (09, R503), a _LO loads the page's read latch
(04, R184), the latched _HI answers from it (R184, R185), and FIFO_DATA moves on (10, R533). -/
def readReg (r : Rst) (c : Core) (page off : Nat) : Reg × Core :=
  let c := if page = pgSt ∧ off = 0x160 then dbgSnap c else c
  if isLo (pageTy page) off then
    (regNow r c page off, modPage c page (fun p => { p with rdLatch := some (off + 4, regNow r c page (off + 4)) }))
  else if off = 0x300 then
    (regNow r c page off, modFifo c page (fun f => (fifoRead f).2))
  else
    match (getPage c page).rdLatch with
    | some (h, v) => if h = off then (v, c) else (regNow r c page off, c)
    | none => (regNow r c page off, c)

/-- The page slot of a byte offset. -/
def slotPage (addr : Nat) : Nat := addr / 0x1000

/-- The register of a byte offset in its page: address bits 1:0 are ignored. -/
def slotOff (addr : Nat) : Nat := addr % 0x1000 / 4 * 4

/-- An access answered on the HTP. -/
def answerHtp (c : Core) (e : PortEvent) : Core := { c with io := { c.io with out := e :: c.io.out } }

/-- The status that answers an access (02, R44-R46, R846). -/
def htpStatus (addr len : Nat) (beOk : Bool) : QStatus :=
  if len ≠ 0 then .fault
  else if !beOk then .fault
  else if (pageOf (slotPage addr)).isNone then .noTarget
  else .ok

/-- A read through the HTP (02, R44, R46, R846). -/
def htpRead (r : Rst) (c : Core) (addr len : Nat) : Core :=
  let st := htpStatus addr len true
  if st = .ok then
    let p := readReg r c (slotPage addr) (slotOff addr)
    answerHtp p.2 (.htpRead addr st p.1)
  else answerHtp c (.htpRead addr st 0)

/-! ## Writes -/

/-- ERR_CODE and ERR_INFO cleared (04, Table 4.2). -/
def errClear (c : Core) (page : Nat) : Core :=
  modPage c page (fun p => { p with code := 0, more := 0, infoLo := 0, infoHi := 0 })

/-- A write of a header register (04, Table 4.2). -/
def writeHdrReg (c : Core) (page off : Nat) (v : Reg) : Core :=
  match off with
  | 0x0C =>
    let c := modPage c page (fun p => { p with viewActive := rbit v 2 })
    let c := if rbit v 1 then errClear c page else c
    if rbit v 0 then discardPage c page else c
  | 0x18 =>
    let c := modPage c page (fun p => { p with irqRaw := p.irqRaw &&& ~~~v })
    if page = pgLehr then reportsCleared c else c
  | 0x1C => regSet c page 0x1C v
  | 0x30 => if rbit v 0 then commitPage c page else c
  | _ => c

/-- What a write makes of a register's value (00, Table 0.6: RW, RS, W1C). -/
def mergeReg (r : RegRow) (cur v : Reg) : Reg := rmask cur v (r32 r.wm) &&& ~~~(v &&& r32 r.w1c)

/-- A register of the map written: a class S register in its shadow copy (00, Tables 0.6, 0.7). -/
def writeRow (c : Core) (page off : Nat) (r : RegRow) (v : Reg) : Core :=
  if r.cls = 2 then
    let a := regAddr page off
    let cur := (tfind c.rs.shadow a).getD (regCur c page off)
    let c := { c with rs := { c.rs with shadow := tput c.rs.shadow a (mergeReg r cur v) } }
    modPage c page (fun p => { p with dirty := true })
  else regSet c page off (mergeReg r (regCur c page off) v)

/-- A register of the map written, with the _LO of its pair that is held, if any (04, R187). -/
def writeOwn (c : Core) (page off : Nat) (lo : Option Reg) (v : Reg) : Core :=
  let ty := pageTy page
  let c := match lo, rowOf ty (off - 4) with
    | some x, some r => writeRow c page (off - 4) r x
    | _, _ => c
  match rowOf ty off with
  | some r => writeRow c page off r v
  | none => c

/-- A word with its low half replaced. -/
def withLo (w : Word) (v : Reg) : Word := joinReg v (hiReg w)

/-- A word with its high half replaced. -/
def withHi (w : Word) (v : Reg) : Word := joinReg (loReg w) v

/-- A write of a configuration register of the selected combining queue: it reaches the queue while that is OFF (10, R564;
04, R174). -/
def cqWrite (c : Core) (off : Nat) (v : Reg) (f : Cq → Cq) : Core :=
  let n := regCruCqSelCq c
  if (getCq c n).st = .off then modCq c n f else pageErr c pgCru 0x0A off v.toNat

/-- CRU registers (10, Table 10.9). -/
def writeCru (c : Core) (off : Nat) (v : Reg) : Option Core :=
  match off with
  | 0x108 => some (cqWrite c off v (fun q => { q with cfg0 := v }))
  | 0x10C => some (cqWrite c off v (fun q => { q with cfg1 := v &&& 0xFFFFFF80 }))
  | 0x110 => some (cqWrite c off v (fun q => { q with cfg2 := v &&& 0xFFFF3F3F }))
  | 0x114 => some (cqWrite c off v (fun q => { q with cfg3 := v &&& 0xFFFF }))
  | 0x118 => some (writeCqCtrl c v)
  | _ => none

/-- SHR registers; GRP_NEXT is taken at once (12, Table 12.16, R676). -/
def writeShr (c : Core) (off : Nat) (v : Reg) : Option Core :=
  match off with
  | 0x124 => some (writeGrpCfg c v)
  | 0x128 => some (groupWrite c off v (fun g => { g with mask := withLo g.mask v }))
  | 0x12C => some (groupWrite c off v (fun g => { g with mask := withHi g.mask v }))
  | 0x130 => some (groupWrite c off v (fun g => { g with placeA := withLo g.placeA (v &&& 0xFFFFF000) }))
  | 0x134 => some (groupWrite c off v (fun g => { g with placeA := withHi g.placeA (v &&& 0xFFFFF) }))
  | 0x138 => some (groupWrite c off v (fun g => { g with placeB := withLo g.placeB (v &&& 0xFFFFF000) }))
  | 0x13C => some (groupWrite c off v (fun g => { g with placeB := withHi g.placeB (v &&& 0xFFFFF) }))
  | 0x140 => some (groupWrite c off v (fun g => { g with gen := rf v 16 16, sel := rbit v 0 }))
  | 0x144 => some (modGroup c (regShrGrpSelGroup c) (fun g => { g with next := v &&& 0xFFFF0003 }))
  | 0x148 => some (groupWrite c off v (fun g => { g with nextSeq := rf v 0 16 }))
  | 0x14C => some (groupWrite c off v (fun g => { g with seq := rf v 0 16 }))
  | _ => none

/-- MF registers; the _LO of the landing window is held (10, Table 10.8, R567; 04, R187). -/
def writeMf (c : Core) (off : Nat) (lo : Option Reg) (v : Reg) : Option Core :=
  match off with
  | 0x118 => some (writeRxqCtrl c v)
  | 0x120 => some (writeLandHi c lo v)
  | 0x124 => some (writeLandSize c v)
  | _ => none

/-- DBG registers (17, Table 17.9). -/
def writeDbg (c : Core) (off : Nat) (v : Reg) : Option Core :=
  match off with
  | 0x100 => some (writeHaltReq c v)
  | 0x104 => some (writeResume c v)
  | 0x108 => some (writeStep c v)
  | 0x148 => some { c with dbg := { c.dbg with shapeLo := v } }
  | 0x14C => some (writeShapeHi c v)
  | _ => none

/-- FE registers (05, Table 5.13). -/
def writeFe (c : Core) (off : Nat) (v : Reg) : Option Core :=
  match off with
  | 0x100 => some (feEnSet c (rbit v 0))
  | 0x130 => some (ringTailSet c v)
  | 0x138 => some (respHeadSet c v)
  | _ => none

/-- Registers of a FIFO window (10, Table 10.4, R534). -/
def writeFifo (c : Core) (page off : Nat) (v : Reg) : Option Core :=
  match off with
  | 0x304 => some (modFifo c page (fun f => fifoStatClear f v))
  | 0x308 => some (modFifo c page (fun f => fifoCtrl f v))
  | _ => none

/-- REPRO set begins a new VARIES_FIRST (15, R772). -/
def writeRepro (c : Core) (v : Reg) : Core :=
  let c := regSet c pgDet 0x100 (v &&& 1)
  if rbit v 0 then { c with det := { c.det with variesFirst := 0 } } else c

/-- A write that a unit takes itself; none where the register only holds what is written. -/
def unitWrite (c : Core) (page ty n off : Nat) (lo : Option Reg) (v : Reg) : Option Core :=
  match ty, off with
  | 0x03, 0x100 => some (writeQuiesce c v)
  | 0x04, 0x100 => some (if v = 0xC1A5 then { c with rstReq := some 3 } else c)
  | 0x06, 0x170 => some (writeInj c v)
  | 0x06, _ => writeFifo c page off v
  | 0x07, 0x100 => some (writeTrcCtrl c (v &&& 1))
  | 0x07, 0x130 => some (writeTrcMark c v)
  | 0x08, 0x104 => some (writePmuCmd c v)
  | 0x08, 0x110 => some (writeUqSel c (v &&& 0xFF))
  | 0x09, _ => writeDbg c off v
  | 0x0A, _ => writeFe c off v
  | 0x0D, 0x100 => some (partEnSet c n (v &&& 1))
  | 0x0E, 0x10C => some (objQuery (regSet c page off (v &&& 0xFFFF)) (rf v 0 16))
  | 0x14, 0x178 => some { c with st := { c.st with forceLo := v } }
  | 0x14, 0x17C => some (forceHi c v)
  | 0x16, _ => writeMf c off lo v
  | 0x17, _ => writeCru c off v
  | 0x18, _ => writeFifo c page off v
  | 0x1B, _ => writeShr c off v
  | 0x1E, 0x10C => some (writeEpochLoad c v)
  | 0x1E, 0x110 => some (writeTblCtrl c v)
  | 0x1F, 0x1F0 => some (writeWrst c v)
  | 0x20, 0x100 => some (writeRepro c v)
  | 0x20, 0x110 => some (writeLsCtrl c v)
  | _, _ => none

/-- A write that is held in the page's write latch: the _LO of a class L or Q pair (04, R187), and LAND_LO (10, R567). -/
def isHeld (ty off : Nat) : Bool :=
  (match rowOf ty off with | some r => r.pair == 1 | none => false) || (ty == 0x16 && off == 0x11C)

/-- A class Q register. -/
def isQ (ty off : Nat) : Bool := match rowOf ty off with | some r => r.cls == 3 | none => false

/-- The held _LO that a write of its _HI joins (04, R187, R188). -/
def heldLo (c : Core) (page off : Nat) : Option Reg :=
  match (getPage c page).wrLatch with
  | some (h, x) => if h + 4 = off then some x else none
  | none => none

/-- A write of a page's register (04, R162, R165, R172-R174, R187-R189).  A class Q write is discarded while the unit runs. -/
def writeReg (c : Core) (page off : Nat) (v : Reg) : Core :=
  match pageOf page with
  | none => c
  | some (t, n) =>
    if isHeld t.ty off then modPage c page (fun p => { p with wrLatch := some (off, v) })
    else
      let lo := heldLo c page off
      let c := modPage c page (fun p => { p with wrLatch := none })
      if off < 0x100 then writeHdrReg c page off v
      else if isQ t.ty off && unitRun c t.ty n then pageErr c page 0x0A off v.toNat
      else (unitWrite c page t.ty n off lo v).getD (writeOwn c page off lo v)

/-- A write through the HTP (02, R44-R46, R846). -/
def htpWrite (c : Core) (addr len : Nat) (be : BitVec 4) (v : Reg) : Core :=
  let st := htpStatus addr len (be == 0xF)
  let c := if st = .ok then writeReg c (slotPage addr) (slotOff addr) v else c
  answerHtp c (.htpWrite addr st)

end Sys2Proof.Machine
end

