-- ==== Sys2Proof/Machine/RegCmds.lean ====
section
/-! DEFINITION. The commands that are accesses to one register: HTP writes and reads, among them those that have a row of
their own, and the accesses of the test access port (02, R44-R50; 17, R838-R840). -/

namespace Sys2Proof.Machine

/-- The whole HTP write of a register: one word, every byte enabled. -/
def wordWrite (addr : Nat) (v : Reg) (s : State) : Host.Outcome State Fault Refusal :=
  mission (fun c => htpWrite c addr 0 0xF v) s

/-- The whole HTP read of a register: one word. -/
def wordRead (addr : Nat) (s : State) : Host.Outcome State Fault Refusal :=
  mission (fun c => htpRead s.rst c addr 0) s

/-- PAGE_CTRL as written to act on a page: VIEW_ACTIVE is written as it stands. -/
def pageCtrl (c : Core) (page : Nat) (bits : Reg) : Reg := bits ||| r32 (b2n (getPage c page).viewActive * 4)

/-- REG_WRITE (02, R44-R49; 04, R162-R174, R187-R189). -/
def execRegWrite (addr : BitVec 22) (len : BitVec 6) (be : BitVec 4) (v : Reg) (s : State) :
    Host.Outcome State Fault Refusal :=
  missionReset (fun c => htpWrite c addr.toNat len.toNat be v) s

/-- REG_READ (02, R44-R48; 04, R183-R185). -/
def execRegRead (addr : BitVec 22) (len : BitVec 6) (s : State) : Host.Outcome State Fault Refusal :=
  mission (fun c => htpRead s.rst c addr.toNat len.toNat) s

/-- STAGE_COMMIT (04, R176-R181). -/
def execStageCommit (page : Fin 1024) (s : State) : Host.Outcome State Fault Refusal :=
  wordWrite (regAddr page.val 0x30) 1 s

/-- STAGE_DISCARD: a write of PAGE_CTRL with STAGE_DISCARD set (04, R182). -/
def execStageDiscard (page : Fin 1024) (s : State) : Host.Outcome State Fault Refusal :=
  wordWrite (regAddr page.val 0x0C) (pageCtrl s.core page.val 1) s

/-- ERR_CLR: a write of PAGE_CTRL with ERR_CLR set (04, Table 4.2). -/
def execErrClr (page : Fin 1024) (s : State) : Host.Outcome State Fault Refusal :=
  wordWrite (regAddr page.val 0x0C) (pageCtrl s.core page.val 2) s

/-- QUIESCE_END: a write of QUIESCE that clears REQ and leaves MODE (04, R208). -/
def execQuiesceEnd (s : State) : Host.Outcome State Fault Refusal :=
  wordWrite 0x2100 (regCur s.core pgQsc 0x100 &&& 0x10) s

/-- LAND_WINDOW_WRITE: a write of LAND_SIZE, or of LAND_HI (10, R514, R567). -/
def execLandWindowWrite (size : Bool) (v : Reg) (s : State) : Host.Outcome State Fault Refusal :=
  wordWrite (if size then 0xE0124 else 0xE0120) v s

/-- PART_CTRL_EN: a write of PART_CTRL (06, R272). -/
def execPartCtrlEn (part : Fin 16) (v : Reg) (s : State) : Host.Outcome State Fault Refusal :=
  wordWrite (regAddr (pgPart part.val) 0x100) v s

/-- DBG_VALUE_LO: a read of DBG_VALUE_LO (09, R503). -/
def execDbgValueLo (s : State) : Host.Outcome State Fault Refusal := wordRead 0xD0160 s

/-- FIFO_DATA: a read of FIFO_DATA (10, R533). -/
def execFifoData (page : Fin 1024) (s : State) : Host.Outcome State Fault Refusal := wordRead (regAddr page.val 0x300) s

/-- SOFT_RST: a write of SOFT_RST (03, R118). -/
def execSoftRst (v : Reg) (s : State) : Host.Outcome State Fault Refusal :=
  missionReset (fun c => htpWrite c 0x3100 0 0xF v) s

/-- QUIESCE_REQ: a write of QUIESCE (03, R128; 04, R206, R207). -/
def execQuiesceReq (v : Reg) (s : State) : Host.Outcome State Fault Refusal := wordWrite 0x2100 v s

/-- RING_TAIL: a write of RING_TAIL (05, R216, R217). -/
def execRingTail (v : Reg) (s : State) : Host.Outcome State Fault Refusal := wordWrite 0x10130 v s

/-- FE_CTRL_EN: a write of FE_CTRL (05, R222, R223). -/
def execFeCtrlEn (v : Reg) (s : State) : Host.Outcome State Fault Refusal := wordWrite 0x10100 v s

/-- FORCE_VAL_HI: a write of FORCE_VAL_HI (09, R504). -/
def execForceValHi (v : Reg) (s : State) : Host.Outcome State Fault Refusal := wordWrite 0xD017C v s

/-- RXQ_CTRL: a write of RXQ_CTRL (10, R567). -/
def execRxqCtrl (v : Reg) (s : State) : Host.Outcome State Fault Refusal := wordWrite 0xE0118 v s

/-- CQ_CTRL_EN: a write of CQ_CTRL (10, R564, R565). -/
def execCqCtrlEn (v : Reg) (s : State) : Host.Outcome State Fault Refusal := wordWrite 0xE1118 v s

/-- GRP_CFG_EN: a write of GRP_CFG (12, R676, R677). -/
def execGrpCfgEn (v : Reg) (s : State) : Host.Outcome State Fault Refusal := wordWrite 0x100124 v s

/-- EPOCH_LOAD: a write of EPOCH_LOAD (13, R707). -/
def execEpochLoad (v : Reg) (s : State) : Host.Outcome State Fault Refusal := wordWrite 0x11210C v s

/-- WRST: a write of WRST (14, R757). -/
def execWrst (v : Reg) (s : State) : Host.Outcome State Fault Refusal := wordWrite 0x1201F0 v s

/-- LS_CTRL_EN: a write of LS_CTRL (15, R775, R776). -/
def execLsCtrlEn (v : Reg) (s : State) : Host.Outcome State Fault Refusal := wordWrite 0x130110 v s

/-- INJ: a write of INJ (16, R812). -/
def execInj (v : Reg) (s : State) : Host.Outcome State Fault Refusal := wordWrite 0x5170 v s

/-- UQ_SEL: a write of UQ_SEL (17, R819, R820). -/
def execUqSel (v : Reg) (s : State) : Host.Outcome State Fault Refusal := wordWrite 0x7110 v s

/-- OBJ_SEL: a write of OBJ_SEL (06, R313). -/
def execObjSel (v : Reg) (s : State) : Host.Outcome State Fault Refusal := wordWrite 0x5010C v s

/-- TRC_CTRL_EN: a write of TRC_CTRL (17, R829). -/
def execTrcCtrlEn (v : Reg) (s : State) : Host.Outcome State Fault Refusal := wordWrite 0x6100 v s

/-- TRC_MARK: a write of TRC_MARK (17, Table 17.3). -/
def execTrcMark (v : Reg) (s : State) : Host.Outcome State Fault Refusal := wordWrite 0x6130 v s

/-- HALT_REQ: a write of HALT_REQ (17, R831). -/
def execHaltReq (v : Reg) (s : State) : Host.Outcome State Fault Refusal := wordWrite 0x8100 v s

/-- RESUME: a write of RESUME (17, R833). -/
def execResume (v : Reg) (s : State) : Host.Outcome State Fault Refusal := wordWrite 0x8104 v s

/-- STEP: a write of STEP (17, R833). -/
def execStep (v : Reg) (s : State) : Host.Outcome State Fault Refusal := wordWrite 0x8108 v s

/-- SHAPE_WR_HI: a write of SHAPE_WR_HI (17, R836). -/
def execShapeWrHi (v : Reg) (s : State) : Host.Outcome State Fault Refusal := wordWrite 0x814C v s

/-- SEAL: a write of TBL_CTRL.SEAL (13, R704, Table 13.6). -/
def execSeal (s : State) : Host.Outcome State Fault Refusal := wordWrite 0x112110 1 s

/-- UNSEAL: a write of TBL_CTRL.UNSEAL (13, R704, Table 13.6). -/
def execUnseal (s : State) : Host.Outcome State Fault Refusal := wordWrite 0x112110 2 s

/-- ARM: a write of TBL_CTRL.ARM (13, R704, Table 13.6; 14, R750). -/
def execArm (s : State) : Host.Outcome State Fault Refusal := wordWrite 0x112110 4 s

/-- DISARM: a write of TBL_CTRL.DISARM (13, R704, Table 13.6; 14, R755). -/
def execDisarm (s : State) : Host.Outcome State Fault Refusal := wordWrite 0x112110 8 s

/-- SNAP: a write of PMU_CMD.SNAP (17, R816). -/
def execSnap (s : State) : Host.Outcome State Fault Refusal := wordWrite 0x7104 2 s

/-- CLEAR: a write of PMU_CMD.CLEAR (17, R816). -/
def execClear (s : State) : Host.Outcome State Fault Refusal := wordWrite 0x7104 1 s

/-- MARK: a write of FIFO_CTRL.MARK (10, R534). -/
def execMark (page : Fin 1024) (s : State) : Host.Outcome State Fault Refusal :=
  wordWrite (regAddr page.val 0x308) 1 s

/-- REWIND: a write of FIFO_CTRL.REWIND (10, R534). -/
def execRewind (page : Fin 1024) (s : State) : Host.Outcome State Fault Refusal :=
  wordWrite (regAddr page.val 0x308) 2 s

/-- RELEASE: a write of FIFO_CTRL.RELEASE (10, R534). -/
def execRelease (page : Fin 1024) (s : State) : Host.Outcome State Fault Refusal :=
  wordWrite (regAddr page.val 0x308) 4 s

/-! ## The test access port (17, R838-R840, Table 17.5) -/

/-- A result for DBG_DATA (17, R839). -/
def tapResult (c : Core) (data : Reg) (err : Bool) : Core :=
  { c with dbg := { c.dbg with tapData := data, tapDone := true, tapErr := err } }

/-- A read that the TAP starts (17, R839, R840; 02, R46). -/
def tapRead (r : Rst) (c : Core) (addr : Nat) : Core :=
  if htpStatus addr 0 true = .ok then
    let p := readReg r c (slotPage addr) (slotOff addr)
    tapResult p.2 p.1 false
  else tapResult c 0 true

/-- A write that the TAP starts: refused without DEBUG_FORCE (17, R840, Table 17.4; 02, R46). -/
def tapWrite (c : Core) (addr : Nat) (v : Reg) : Core :=
  if !debugForce c then tapResult (dbgRefuse c 3) 0 true
  else if htpStatus addr 0 true = .ok then tapResult (writeReg c (slotPage addr) (slotOff addr) v) 0 false
  else tapResult c 0 true

/-- DBG_ADDR: an Update-DR; with WRITE 0 it starts a read (17, R839). -/
def execDbgAddr (dr : BitVec 23) (s : State) : Host.Outcome State Fault Refusal :=
  mission (fun c =>
    let c := { c with dbg := { c.dbg with tapAddr := dr } }
    if dr.getLsbD 22 then c else tapRead s.rst c (fld dr.toNat 0 22)) s

/-- DBG_DATA: an Update-DR; after a DBG_ADDR with WRITE 1 it starts a write (17, R839, R840). -/
def execDbgData (dr : BitVec 34) (s : State) : Host.Outcome State Fault Refusal :=
  missionReset (fun c =>
    let a := c.dbg.tapAddr
    if a.getLsbD 22 then tapWrite c (fld a.toNat 0 22) (dr.setWidth 32) else c) s

end Sys2Proof.Machine
end

