-- ==== Sys2Proof/Machine/Dispatch.lean ====
section
/-! DEFINITION. The meaning of every command: one arm for each constructor, each a direct call of its meaning. -/

namespace Sys2Proof.Machine

/-- The effect of a command on everything but the queue of waiting commands. -/
def exec (i : Instr) (s : State) : Host.Outcome State Fault Refusal :=
  match i with
  | .porReset => Sys2Proof.Machine.execPorReset s
  | .warmReset => Sys2Proof.Machine.execWarmReset s
  | .softRst v => Sys2Proof.Machine.execSoftRst v s
  | .criticalErrorReset src loc syn => Sys2Proof.Machine.execCriticalErrorReset src loc syn s
  | .endOfReset straps bank0 bank1 bank2 bank3 => Sys2Proof.Machine.execEndOfReset straps bank0 bank1 bank2 bank3 s
  | .bringupStageEnd => Sys2Proof.Machine.execBringupStageEnd s
  | .idWordResponse lane word => Sys2Proof.Machine.execIdWordResponse lane word s
  | .idWordTimeout lane => Sys2Proof.Machine.execIdWordTimeout lane s
  | .hbmRecordReadDone stack st data => Sys2Proof.Machine.execHbmRecordReadDone stack st data s
  | .i3cModuleReadDone module data => Sys2Proof.Machine.execI3cModuleReadDone module data s
  | .i3cAddressNack module => Sys2Proof.Machine.execI3cAddressNack module s
  | .tallyLoad val lock => Sys2Proof.Machine.execTallyLoad val lock s
  | .tallyStep ns val lock => Sys2Proof.Machine.execTallyStep ns val lock s
  | .lockLost => Sys2Proof.Machine.execLockLost s
  | .ppLinkDown => Sys2Proof.Machine.execPpLinkDown s
  | .ppLinkResume => Sys2Proof.Machine.execPpLinkResume s
  | .scanMode high => Sys2Proof.Machine.execScanMode high s
  | .regWrite addr len be v => Sys2Proof.Machine.execRegWrite addr len be v s
  | .stageCommit page => Sys2Proof.Machine.execStageCommit page s
  | .stageDiscard page => Sys2Proof.Machine.execStageDiscard page s
  | .errClr page => Sys2Proof.Machine.execErrClr page s
  | .digestUpdate page => Sys2Proof.Machine.execDigestUpdate page s
  | .quiesceReq v => Sys2Proof.Machine.execQuiesceReq v s
  | .quiesceDone => Sys2Proof.Machine.execQuiesceDone s
  | .quiesceEnd => Sys2Proof.Machine.execQuiesceEnd s
  | .ringTail v => Sys2Proof.Machine.execRingTail v s
  | .feCtrlEn v => Sys2Proof.Machine.execFeCtrlEn v s
  | .ringFetchDone st data => Sys2Proof.Machine.execRingFetchDone st data s
  | .otReadDone block st data => Sys2Proof.Machine.execOtReadDone block st data s
  | .otWriteAck block st => Sys2Proof.Machine.execOtWriteAck block st s
  | .ringNop => Sys2Proof.Machine.execRingNop s
  | .submit => Sys2Proof.Machine.execSubmit s
  | .queueCreate => Sys2Proof.Machine.execQueueCreate s
  | .queueDestroy => Sys2Proof.Machine.execQueueDestroy s
  | .queueDestroyDone q => Sys2Proof.Machine.execQueueDestroyDone q s
  | .queueReset => Sys2Proof.Machine.execQueueReset s
  | .ctxCreate => Sys2Proof.Machine.execCtxCreate s
  | .ctxDestroy => Sys2Proof.Machine.execCtxDestroy s
  | .objCreate => Sys2Proof.Machine.execObjCreate s
  | .objFree => Sys2Proof.Machine.execObjFree s
  | .syncCreate => Sys2Proof.Machine.execSyncCreate s
  | .rxqCreate => Sys2Proof.Machine.execRxqCreate s
  | .slotFree => Sys2Proof.Machine.execSlotFree s
  | .rxqClosed rxq => Sys2Proof.Machine.execRxqClosed rxq s
  | .partTeardown => Sys2Proof.Machine.execPartTeardown s
  | .partCtrlEn part v => Sys2Proof.Machine.execPartCtrlEn part v s
  | .teardownStart => Sys2Proof.Machine.execTeardownStart s
  | .teardownEnd ctx => Sys2Proof.Machine.execTeardownEnd ctx s
  | .graphLoad => Sys2Proof.Machine.execGraphLoad s
  | .graphLoadDone st data => Sys2Proof.Machine.execGraphLoadDone st data s
  | .graphPatch => Sys2Proof.Machine.execGraphPatch s
  | .graphPatchCommit st data => Sys2Proof.Machine.execGraphPatchCommit st data s
  | .graphUnload => Sys2Proof.Machine.execGraphUnload s
  | .programFetchDone sub list st data => Sys2Proof.Machine.execProgramFetchDone sub list st data s
  | .arbitrate sq => Sys2Proof.Machine.execArbitrate sq s
  | .programStart sq => Sys2Proof.Machine.execProgramStart sq s
  | .progressTimeout q => Sys2Proof.Machine.execProgressTimeout q s
  | .queueFault q source code word => Sys2Proof.Machine.execQueueFault q source code word s
  | .completionWriteAck q st => Sys2Proof.Machine.execCompletionWriteAck q st s
  | .intmsgAck n st => Sys2Proof.Machine.execIntmsgAck n st s
  | .cookieNotify => Sys2Proof.Machine.execCookieNotify s
  | .halt sq => Sys2Proof.Machine.execHalt sq s
  | .fenceOut sq => Sys2Proof.Machine.execFenceOut sq s
  | .timeoutSet sq => Sys2Proof.Machine.execTimeoutSet sq s
  | .preemptPoint sq => Sys2Proof.Machine.execPreemptPoint sq s
  | .nop sq => Sys2Proof.Machine.execNop sq s
  | .launch sq => Sys2Proof.Machine.execLaunch sq s
  | .launchAt sq => Sys2Proof.Machine.execLaunchAt sq s
  | .launchAccept => Sys2Proof.Machine.execLaunchAccept s
  | .compactionDone => Sys2Proof.Machine.execCompactionDone s
  | .instanceOpen inst => Sys2Proof.Machine.execInstanceOpen inst s
  | .counterInitEnd inst => Sys2Proof.Machine.execCounterInitEnd inst s
  | .wait sq => Sys2Proof.Machine.execWait sq s
  | .signal sq => Sys2Proof.Machine.execSignal sq s
  | .add sq => Sys2Proof.Machine.execAdd sq s
  | .patch sq => Sys2Proof.Machine.execPatch sq s
  | .ldshape sq => Sys2Proof.Machine.execLdshape sq s
  | .ldshapeData sq st data => Sys2Proof.Machine.execLdshapeData sq st data s
  | .stshape sq => Sys2Proof.Machine.execStshape sq s
  | .stshapeAck sq st => Sys2Proof.Machine.execStshapeAck sq st s
  | .sop sq => Sys2Proof.Machine.execSop sq s
  | .jump sq => Sys2Proof.Machine.execJump sq s
  | .branch sq => Sys2Proof.Machine.execBranch sq s
  | .route sq => Sys2Proof.Machine.execRoute sq s
  | .mix sq => Sys2Proof.Machine.execMix sq s
  | .streamArm sq => Sys2Proof.Machine.execStreamArm sq s
  | .select sq => Sys2Proof.Machine.execSelect sq s
  | .send sq => Sys2Proof.Machine.execSend sq s
  | .sendAnswer sq => Sys2Proof.Machine.execSendAnswer sq s
  | .sendRetry sq => Sys2Proof.Machine.execSendRetry sq s
  | .engineCompletion lane beat => Sys2Proof.Machine.execEngineCompletion lane beat s
  | .engineFault lane beat => Sys2Proof.Machine.execEngineFault lane beat s
  | .taskHandoff => Sys2Proof.Machine.execTaskHandoff s
  | .caneCount inst task => Sys2Proof.Machine.execCaneCount inst task s
  | .instanceRetire inst => Sys2Proof.Machine.execInstanceRetire inst s
  | .laneIssue lane => Sys2Proof.Machine.execLaneIssue lane s
  | .steal lane => Sys2Proof.Machine.execSteal lane s
  | .gangGo => Sys2Proof.Machine.execGangGo s
  | .engineWake lane pos => Sys2Proof.Machine.execEngineWake lane pos s
  | .patchBlockLoad inst st data => Sys2Proof.Machine.execPatchBlockLoad inst st data s
  | .syncOpApply => Sys2Proof.Machine.execSyncOpApply s
  | .waiterRelease => Sys2Proof.Machine.execWaiterRelease s
  | .realignPass => Sys2Proof.Machine.execRealignPass s
  | .lehrSample => Sys2Proof.Machine.execLehrSample s
  | .deadlock part => Sys2Proof.Machine.execDeadlock part s
  | .livelockSend sq => Sys2Proof.Machine.execLivelockSend sq s
  | .livelockRxq rxq => Sys2Proof.Machine.execLivelockRxq rxq s
  | .stuckAbort lane id => Sys2Proof.Machine.execStuckAbort lane id s
  | .lehrEscalate => Sys2Proof.Machine.execLehrEscalate s
  | .dumpWriteAck n st => Sys2Proof.Machine.execDumpWriteAck n st s
  | .dbgValueLo => Sys2Proof.Machine.execDbgValueLo s
  | .forceValHi v => Sys2Proof.Machine.execForceValHi v s
  | .messageTake => Sys2Proof.Machine.execMessageTake s
  | .recordWriteAck rxq rec st => Sys2Proof.Machine.execRecordWriteAck rxq rec st s
  | .rxqCtrl v => Sys2Proof.Machine.execRxqCtrl v s
  | .landWindowWrite size v => Sys2Proof.Machine.execLandWindowWrite size v s
  | .fifoData page => Sys2Proof.Machine.execFifoData page s
  | .mark page => Sys2Proof.Machine.execMark page s
  | .rewind page => Sys2Proof.Machine.execRewind page s
  | .release page => Sys2Proof.Machine.execRelease page s
  | .contributionAdd cq idx st data => Sys2Proof.Machine.execContributionAdd cq idx st data s
  | .roundRelease cq st => Sys2Proof.Machine.execRoundRelease cq st s
  | .cqCtrlEn v => Sys2Proof.Machine.execCqCtrlEn v s
  | .accountingPeriod => Sys2Proof.Machine.execAccountingPeriod s
  | .deadlineMiss inst => Sys2Proof.Machine.execDeadlineMiss inst s
  | .launchAtRelease inst => Sys2Proof.Machine.execLaunchAtRelease inst s
  | .tallyWaitRelease sq => Sys2Proof.Machine.execTallyWaitRelease sq s
  | .mixAccept => Sys2Proof.Machine.execMixAccept s
  | .chunkRelease inst slot => Sys2Proof.Machine.execChunkRelease inst slot s
  | .bubbleFill lane => Sys2Proof.Machine.execBubbleFill lane s
  | .marverAdaptation st busy total => Sys2Proof.Machine.execMarverAdaptation st busy total s
  | .preemptionSaveWriteAck q st => Sys2Proof.Machine.execPreemptionSaveWriteAck q st s
  | .restore sq => Sys2Proof.Machine.execRestore sq s
  | .pointLate q => Sys2Proof.Machine.execPointLate q s
  | .routeCompute st data => Sys2Proof.Machine.execRouteCompute st data s
  | .routeLand route st => Sys2Proof.Machine.execRouteLand route st s
  | .routeAgreed route st => Sys2Proof.Machine.execRouteAgreed route st s
  | .agreeTimeout route => Sys2Proof.Machine.execAgreeTimeout route s
  | .placementEpoch st data => Sys2Proof.Machine.execPlacementEpoch st data s
  | .proposalApply st => Sys2Proof.Machine.execProposalApply st s
  | .grpCfgEn v => Sys2Proof.Machine.execGrpCfgEn v s
  | .streamEntryCheck stream st data => Sys2Proof.Machine.execStreamEntryCheck stream st data s
  | .streamTransfer stream => Sys2Proof.Machine.execStreamTransfer stream s
  | .streamArmEnd stream => Sys2Proof.Machine.execStreamArmEnd stream s
  | .seal => Sys2Proof.Machine.execSeal s
  | .unseal => Sys2Proof.Machine.execUnseal s
  | .arm => Sys2Proof.Machine.execArm s
  | .disarm => Sys2Proof.Machine.execDisarm s
  | .tableFlip => Sys2Proof.Machine.execTableFlip s
  | .epochLoad v => Sys2Proof.Machine.execEpochLoad v s
  | .hb flit => Sys2Proof.Machine.execHb flit s
  | .heartbeatAlarm => Sys2Proof.Machine.execHeartbeatAlarm s
  | .sequencedFrameReceipt flit => Sys2Proof.Machine.execSequencedFrameReceipt flit s
  | .ack flit => Sys2Proof.Machine.execAck flit s
  | .nak flit => Sys2Proof.Machine.execNak flit s
  | .ackTimer die => Sys2Proof.Machine.execAckTimer die s
  | .retransmitTimeout die => Sys2Proof.Machine.execRetransmitTimeout die s
  | .syncOp die => Sys2Proof.Machine.execSyncOp die s
  | .syncRel die => Sys2Proof.Machine.execSyncRel die s
  | .remoteWaitRetry sq => Sys2Proof.Machine.execRemoteWaitRetry sq s
  | .syncCancel die => Sys2Proof.Machine.execSyncCancel die s
  | .msg die => Sys2Proof.Machine.execMsg die s
  | .msgX die => Sys2Proof.Machine.execMsgX die s
  | .msgAns die => Sys2Proof.Machine.execMsgAns die s
  | .reset die => Sys2Proof.Machine.execReset die s
  | .resetAck flit => Sys2Proof.Machine.execResetAck flit s
  | .wrst v => Sys2Proof.Machine.execWrst v s
  | .tblPrep die => Sys2Proof.Machine.execTblPrep die s
  | .tblArm die => Sys2Proof.Machine.execTblArm die s
  | .tblDisarm die => Sys2Proof.Machine.execTblDisarm die s
  | .tblAns die => Sys2Proof.Machine.execTblAns die s
  | .castTimeout => Sys2Proof.Machine.execCastTimeout s
  | .lsCtrlEn v => Sys2Proof.Machine.execLsCtrlEn v s
  | .lstep die => Sys2Proof.Machine.execLstep die s
  | .lsFlush => Sys2Proof.Machine.execLsFlush s
  | .lsOrphan key mine => Sys2Proof.Machine.execLsOrphan key mine s
  | .sramCorrected src owner loc syn => Sys2Proof.Machine.execSramCorrected src owner loc syn s
  | .sramUncorrectable src owner loc syn => Sys2Proof.Machine.execSramUncorrectable src owner loc syn s
  | .containmentHoldEnd => Sys2Proof.Machine.execContainmentHoldEnd s
  | .patrolScrub => Sys2Proof.Machine.execPatrolScrub s
  | .inj v => Sys2Proof.Machine.execInj v s
  | .snap => Sys2Proof.Machine.execSnap s
  | .clear => Sys2Proof.Machine.execClear s
  | .uqSel v => Sys2Proof.Machine.execUqSel v s
  | .objSel v => Sys2Proof.Machine.execObjSel v s
  | .traceStage => Sys2Proof.Machine.execTraceStage s
  | .traceFlush => Sys2Proof.Machine.execTraceFlush s
  | .traceWriteAck st => Sys2Proof.Machine.execTraceWriteAck st s
  | .trcCtrlEn v => Sys2Proof.Machine.execTrcCtrlEn v s
  | .trcMark v => Sys2Proof.Machine.execTrcMark v s
  | .haltReq v => Sys2Proof.Machine.execHaltReq v s
  | .resume v => Sys2Proof.Machine.execResume v s
  | .step v => Sys2Proof.Machine.execStep v s
  | .shapeWrHi v => Sys2Proof.Machine.execShapeWrHi v s
  | .dbgAddr dr => Sys2Proof.Machine.execDbgAddr dr s
  | .dbgData dr => Sys2Proof.Machine.execDbgData dr s
  | .wpMbist fail => Sys2Proof.Machine.execWpMbist fail s
  | .cgAckRise lane pos => Sys2Proof.Machine.execCgAckRise lane pos s
  | .initSeqWriteAck q st => Sys2Proof.Machine.execInitSeqWriteAck q st s
  | .responseWriteAck idx st => Sys2Proof.Machine.execResponseWriteAck idx st s
  | .headWbAck st => Sys2Proof.Machine.execHeadWbAck st s
  | .costHeaderRead inst st data => Sys2Proof.Machine.execCostHeaderRead inst st data s
  | .preemptWaitPassed lane => Sys2Proof.Machine.execPreemptWaitPassed lane s
  | .countMessageResend route die => Sys2Proof.Machine.execCountMessageResend route die s
  | .restoreReadDone q st data => Sys2Proof.Machine.execRestoreReadDone q st data s
  | .patchWriteBackAck inst st => Sys2Proof.Machine.execPatchWriteBackAck inst st s
  | .idAreaWriteAck slot st => Sys2Proof.Machine.execIdAreaWriteAck slot st s
  | .regRead addr len => Sys2Proof.Machine.execRegRead addr len s
  | .badOpcode sq => Sys2Proof.Machine.execBadOpcode sq s

end Sys2Proof.Machine
end

