-- ==== Sys2Proof/Safety.lean ====
section
/-! DEFINITION. What the statements say about steps: the parts of the block's state, what a step leaves as it was, and the
invariants. -/

namespace Sys2Proof.Machine

/-- The parts of the block's state: one for each field of `Core`, and five for the register space. -/
inductive Part where
  | io | bring | engs | lanesUp | sic | rsRegs | rsShadow | rsCnts | rsPages | rsDigest | qsc | fe | queues | ctxs | sqs
  | gs | isr | de | lanes | st | lehr | mf | cru | sched | marv | tu | shr | lkp | strm | tbl | pp | det | ras | pmu | trc
  | dbg | tclk | free | rstReq | fatalReq
  deriving DecidableEq, Repr

/-- A part is the same in two states of the block. -/
def Part.same (p : Part) (c d : Core) : Prop :=
  match p with
  | .io => c.io = d.io
  | .bring => c.bring = d.bring
  | .engs => c.engs = d.engs
  | .lanesUp => c.lanesUp = d.lanesUp
  | .sic => c.sic = d.sic
  | .rsRegs => c.rs.regs = d.rs.regs
  | .rsShadow => c.rs.shadow = d.rs.shadow
  | .rsCnts => c.rs.cnts = d.rs.cnts
  | .rsPages => c.rs.pages = d.rs.pages
  | .rsDigest => c.rs.dieDigest = d.rs.dieDigest ∧ c.rs.dieBusy = d.rs.dieBusy
  | .qsc => c.qsc = d.qsc
  | .fe => c.fe = d.fe
  | .queues => c.queues = d.queues
  | .ctxs => c.ctxs = d.ctxs
  | .sqs => c.sqs = d.sqs
  | .gs => c.gs = d.gs
  | .isr => c.isr = d.isr
  | .de => c.de = d.de
  | .lanes => c.lanes = d.lanes
  | .st => c.st = d.st
  | .lehr => c.lehr = d.lehr
  | .mf => c.mf = d.mf
  | .cru => c.cru = d.cru
  | .sched => c.sched = d.sched
  | .marv => c.marv = d.marv
  | .tu => c.tu = d.tu
  | .shr => c.shr = d.shr
  | .lkp => c.lkp = d.lkp
  | .strm => c.strm = d.strm
  | .tbl => c.tbl = d.tbl
  | .pp => c.pp = d.pp
  | .det => c.det = d.det
  | .ras => c.ras = d.ras
  | .pmu => c.pmu = d.pmu
  | .trc => c.trc = d.trc
  | .dbg => c.dbg = d.dbg
  | .tclk => c.tclk = d.tclk
  | .free => c.free = d.free
  | .rstReq => c.rstReq = d.rstReq
  | .fatalReq => c.fatalReq = d.fatalReq

/-- Every part but the listed ones is the same in two states of the block. -/
def SameBut (w : List Part) (c d : Core) : Prop := ∀ p : Part, p ∈ w ∨ p.same c d

/-- A step leaves the queue of waiting commands, the kept state of a reset, the pins' levels, the memory self-test and every
part of the block but the listed ones as they were. -/
def Keeps (s t : State) (w : List Part) : Prop :=
  t.pending = s.pending ∧ t.rst = s.rst ∧ t.pins = s.pins ∧ t.mbist = s.mbist ∧ SameBut w s.core t.core

end Sys2Proof.Machine
end

