-- ==== Sys2Proof/Terms.lean ====
section
/-! DEFINITION. Terms of the statements: the invariant of every step, and when a unit begins what a command names. -/

namespace Sys2Proof.Machine

/-- What every step keeps: in reset the block holds nothing but the record of the beats that it has driven (03, R121, R122); bring-up
is in one of its stages or complete, and the lanes are released from stage 4 on (03, Table 3.6); an unprogrammed fuse bank is applied
as zeros (03, R138); and no request for a reset is left over from a step. -/
structure Sound (s : State) : Prop where
  cleared : s.rst.active = true → s.core = { resetCore with io := { out := s.core.io.out } }
  stage : 1 ≤ s.core.bring.stage ∧ s.core.bring.stage ≤ 7
  lanes : s.core.lanesUp = decide (4 ≤ s.core.bring.stage)
  bank : s.core.bring.unprog = true → s.core.bring.bank = 0
  noReset : s.core.rstReq = none ∧ s.core.fatalReq = none

/-- The FE decodes the entry `e` of an opcode next, and a record slot is free for it (05, R225, R235; 06, R288). -/
structure FeDecodes (c : Core) (op : Nat) (e : Entry) (rest : List Entry) : Prop where
  batch : c.fe.batch = e :: rest
  ready : feReady c = true
  room : respFree c ≠ 0
  isOp : byteAt e.w 0 = op

/-- A record is written at the RESP_TAIL of an earlier state: RESP_TAIL passes it, and a HIP WRITE of its four words is made (05, R233,
R234). -/
def Recorded (c d : Core) (r : Rec) : Prop :=
  regFeRespTail d = (r32 (regFeRespTail c + 1)).toNat ∧
  ∃ q, (q ∈ d.io.reqs ∨ q ∈ d.io.heldReqs) ∧ q.op = .write ∧ q.port = .hip ∧ q.tag = .resp (regFeRespTail c) ∧
    q.addr = regFeRespBase c + 32 * (regFeRespTail c % respSize c) ∧ q.data = recWordsOf c r (regFeRespTail c)

/-- An entry is consumed and answered: RING_HEAD passes it, its record is written, and REJECT_CNT counts it unless its status is 0 (05,
R219, R235, R237). -/
def Answered (c d : Core) (e : Entry) (status : Nat) (detail : Word := 0) (seq : Word := 0) (cookie : Nat := 0) : Prop :=
  let h := hdrOf e
  regFeRingHead d = (r32 (e.index + 1)).toNat ∧
  Recorded c d { kind := h.op, status := status, tag := h.tag, index := h.index, seq := seq, cookie := cookie, queue := h.queue,
                 ctx := h.ctx, detail := detail } ∧
  cntGet d pgFe 0x148 = cntGet c pgFe 0x148 + if status = 0 then 0 else 1

/-- A sequencer begins the command word `w` of the queue `q`'s program at its head: it runs and waits for nothing, no breakpoint stands
against it, and its steps are not used up (07, R315, R319; 17, R834). -/
structure SqBegins (c : Core) (sq op q : Nat) (w : Word) : Prop where
  queue : (getSq c sq).q = some q
  runs : sqRuns c sq = true
  free : (getSq c sq).stall = .none
  full : (getSq c sq).words ≠ []
  word : wat (getSq c sq).words (getSq c sq).pc = w
  isOp : opOf w = op
  pass : (getSq c sq).bpPass = true ∨ (getSq c sq).stepping = true ∨ bpAt c sq (getSq c sq).pc = none
  steps : (getSq c sq).counted = true ∨ (getSq c sq).steps < stepLimit c sq
  second : op = 0x11 → (getSq c sq).pc + 1 < (getSq c sq).words.length

/-- The checks that are made on a command's words before it takes effect: the fault code of the first that fails (07, Table 7.11). -/
def headFault (c : Core) (sq : Nat) : Option Nat :=
  wordFault c (wat (getSq c sq).words (getSq c sq).pc) (wat (getSq c sq).words ((getSq c sq).pc + 1)) (getSq c sq).words.length

/-- A sequencer's program goes on at a PC (07, R315, R318). -/
def MovesTo (c d : Core) (sq pc : Nat) : Prop :=
  (getSq d sq).pc = pc ∧ (getSq d sq).q = (getSq c sq).q ∧ (getSq d sq).words = (getSq c sq).words ∧ (getSq d sq).counted = false

/-- A fault of a queue's program can be taken and held: the queue runs a submission and keeps its faults for QUEUE_RESET (05, R257,
R260). -/
structure HoldsFaults (c : Core) (q : Nat) : Prop where
  policy : regFeqQCfgPolicy c (q / 32) (q % 32) = true
  program : (getQ c q).cur.isSome = true

/-- A queue is GUILTY of a fault (05, R257, Table 5.14). -/
def Guilty (d : Core) (q source code word : Nat) : Prop :=
  (getQ d q).st = .guilty ∧ (getQ d q).fSource = source ∧ (getQ d q).fCode = code ∧ (getQ d q).fWord = word

/-- A request is open or held. -/
def Made (d : Core) (p : Req → Prop) : Prop := ∃ q, (q ∈ d.io.reqs ∨ q ∈ d.io.heldReqs) ∧ p q

/-- A beat is driven, or held while the block is quiesced. -/
def Drove (d : Core) (e : PortEvent) : Prop := e ∈ d.io.out ∨ e ∈ d.io.heldOut

/-- A flit passes the checks of Table 14.5 that every type passes, on a die that keeps its Punty Port up (14, R712, R718). -/
structure Hears (c : Core) (x : BitVec 512) : Prop where
  on : role c ≠ 0 ∧ c.pp.on = true
  crc : flitAt x 60 4 = (crc32c (toBytes x.toNat 60)).toNat
  dest : flitAt x 1 1 = dieId c
  source : flitAt x 2 1 < 64 ∧ wbit (peerMask c) (flitAt x 2 1) = true ∧ flitAt x 2 1 ≠ dieId c

/-- A flit passes every check of Table 14.5 on a link that is UP (14, R718). -/
structure InSession (c : Core) (x : BitVec 512) : Prop where
  hears : Hears c x
  up : linkUpTo c (flitAt x 2 1) = true
  epoch : (getPeer c (flitAt x 2 1)).epoch = some (r32 (flitAt x 4 4))

/-- The frame that a die delivered first waits for its unit, and the units take frames (14, R730; 16, R801). -/
structure HeadFrame (c : Core) (die ty : Nat) (f : Frame) (rest : List Frame) : Prop where
  hold : (getPeer c die).hold = f :: rest
  isTy : f.ty.toNat = ty
  free : mayStart c = true

/-- A frame for a die stands in its window or is held for it (14, R728). -/
def Offered (d : Core) (die ty : Nat) (p : Frame → Prop) : Prop :=
  ∃ f, (f ∈ (getPeer d die).frames ∨ ∃ h ∈ (getPeer d die).held, f ∈ h.2) ∧ f.ty.toNat = ty ∧ p f

/-- The frames of a die from UNA to NEXT - 1 are driven again with their SEQs, and counted (14, R727). -/
def WentBack (c d : Core) (die : Nat) : Prop :=
  let p := getPeer c die
  cntGet d pgPp 0x190 = cntGet c pgPp 0x190 + w64 p.frames.length ∧ (getPeer d die).lastBack = now c ∧
  ∀ k f, p.frames[k]? = some f →
    ∃ x, Drove d (.flit x) ∧ flitAt x 0 1 = f.ty.toNat ∧ flitAt x 8 4 = (p.una + r32 k).toNat ∧ flitAt x 16 44 = f.pay.toNat

/-! ## What a command may change -/

/-- Every part that a write of a register may change: the register, and the units that take the write. -/
def registerParts : List Part :=
  [.io, .rsRegs, .rsShadow, .rsCnts, .rsPages, .rsDigest, .qsc, .fe, .queues, .ctxs, .sqs, .isr, .de, .lanes, .st, .lehr, .mf,
   .cru, .sched, .marv, .tu, .shr, .strm, .tbl, .pp, .det, .ras, .pmu, .trc, .dbg, .free, .rstReq]

/-- The parts that the fault of a queue's program, or the end of a session that it may bring, can reach. -/
def faultParts : List Part :=
  [.io, .rsRegs, .rsCnts, .rsPages, .fe, .queues, .ctxs, .sqs, .isr, .de, .lanes, .st, .mf, .cru, .sched, .tu, .shr, .strm, .pp,
   .pmu, .trc, .free]

/-- The parts that a command of bring-up, of a register, of the front end, of contexts, objects, graphs or tables may change;
none for the others. -/
def frontWrites : Instr → Option (List Part)
  | .softRst _ | .regWrite _ _ _ _ | .stageCommit _ | .stageDiscard _ | .errClr _ | .quiesceReq _ | .quiesceEnd | .ringTail _ |
    .feCtrlEn _ | .partCtrlEn _ _ | .forceValHi _ | .rxqCtrl _ | .landWindowWrite _ _ | .mark _ | .rewind _ | .release _ |
    .cqCtrlEn _ | .grpCfgEn _ | .seal | .unseal | .arm | .disarm | .epochLoad _ | .wrst _ | .lsCtrlEn _ | .inj _ | .snap |
    .clear | .uqSel _ | .objSel _ | .trcCtrlEn _ | .trcMark _ | .haltReq _ | .resume _ | .step _ | .shapeWrHi _ | .dbgData _ =>
    some registerParts
  | .criticalErrorReset _ _ _ =>
    some [.io, .rstReq, .fatalReq]
  | .idWordResponse _ _ | .idWordTimeout _ =>
    some [.io, .engs, .sic, .pmu]
  | .hbmRecordReadDone _ _ _ =>
    some [.io, .sic, .rsRegs, .rsCnts, .rsPages, .ras, .pmu, .trc]
  | .i3cModuleReadDone _ _ | .i3cAddressNack _ =>
    some [.io, .sic, .rsPages, .pmu]
  | .digestUpdate _ =>
    some [.io, .rsPages, .rsDigest]
  | .quiesceDone =>
    some [.io, .rsPages, .qsc]
  | .ringFetchDone _ _ =>
    some [.io, .rsRegs, .rsCnts, .rsPages, .fe, .ctxs, .ras, .pmu, .trc]
  | .otReadDone _ _ _ | .otWriteAck _ _ =>
    some [.io, .rsRegs, .rsCnts, .rsPages, .fe, .ctxs, .sched, .ras, .pmu, .trc]
  | .ringNop =>
    some [.io, .rsRegs, .rsCnts, .rsPages, .fe, .pmu]
  | .submit =>
    some [.io, .rsRegs, .rsCnts, .rsPages, .fe, .queues, .ctxs, .sqs, .isr, .lanes, .st, .mf, .sched, .tu, .pp, .pmu, .trc]
  | .queueCreate =>
    some [.io, .rsRegs, .rsCnts, .rsPages, .fe, .queues, .pmu]
  | .queueDestroy | .progressTimeout _ | .queueFault _ _ _ _ =>
    some faultParts
  | .queueDestroyDone _ =>
    some (faultParts ++ [.gs, .tbl, .dbg])
  | .queueReset =>
    some [.io, .rsRegs, .rsCnts, .rsPages, .fe, .queues, .ctxs, .pmu]
  | .ctxCreate =>
    some [.io, .rsRegs, .rsCnts, .rsPages, .fe, .ctxs, .sched, .pmu]
  | .ctxDestroy | .partTeardown =>
    some [.io, .rsRegs, .rsCnts, .rsPages, .fe, .ctxs, .st, .mf, .ras, .pmu, .trc]
  | .objCreate | .objFree =>
    some [.io, .rsRegs, .rsCnts, .rsPages, .fe, .ctxs, .pmu]
  | .syncCreate =>
    some [.io, .rsRegs, .rsCnts, .rsPages, .fe, .st, .pmu]
  | .rxqCreate =>
    some [.io, .rsRegs, .rsCnts, .rsPages, .fe, .mf, .pmu]
  | .slotFree =>
    some [.io, .rsRegs, .rsCnts, .rsPages, .fe, .st, .mf, .pmu]
  | .teardownStart =>
    some (faultParts ++ [.ras, .dbg])
  | .teardownEnd _ =>
    some [.io, .rsRegs, .rsCnts, .rsPages, .fe, .ctxs, .gs, .st, .mf, .pmu]
  | .graphLoad | .graphPatch | .graphUnload =>
    some [.io, .rsRegs, .rsCnts, .rsPages, .fe, .ctxs, .gs, .pmu]
  | .graphLoadDone _ _ | .graphPatchCommit _ _ =>
    some [.io, .rsRegs, .rsCnts, .rsPages, .fe, .ctxs, .gs, .marv, .ras, .pmu, .trc, .free]
  | .programFetchDone _ _ _ _ | .initSeqWriteAck _ _ =>
    some [.io, .rsRegs, .rsCnts, .rsPages, .fe, .queues, .ras, .pmu, .trc]
  | .arbitrate _ =>
    some [.io, .fe, .queues, .sqs, .pmu]
  | .programStart _ =>
    some (faultParts ++ [.dbg])
  | .completionWriteAck _ _ =>
    some [.io, .rsRegs, .rsCnts, .rsPages, .queues, .ras, .pmu, .trc]
  | .intmsgAck _ _ =>
    some [.io, .rsRegs, .rsPages, .ras, .trc]
  | .realignPass =>
    some [.io, .rsCnts, .rsPages, .queues, .isr, .st, .sched, .tu, .strm, .pp, .pmu, .trc]
  | .dbgValueLo | .fifoData _ | .regRead _ _ =>
    some [.io, .rsPages, .st, .sched, .ras]
  | .tableFlip =>
    some [.io, .rsCnts, .rsPages, .tu, .tbl, .trc]
  | .dbgAddr _ =>
    some [.io, .rsPages, .st, .sched, .ras, .dbg]
  | .responseWriteAck _ _ =>
    some [.io, .rsRegs, .rsCnts, .rsPages, .fe, .ras, .pmu, .trc]
  | .headWbAck _ =>
    some [.io, .rsRegs, .rsCnts, .rsPages, .ras, .pmu, .trc]
  | .idAreaWriteAck _ _ =>
    some [.io, .rsRegs, .rsPages, .ras, .pmu, .trc]
  | _ => none

/-- The parts that a command of a program or of a queue may change; none for the others. -/
def programWrites : Instr → Option (List Part)
  | .halt _ | .fenceOut _ | .timeoutSet _ | .preemptPoint _ | .nop _ | .launch _ | .launchAt _ | .wait _ | .signal _ | .add _ |
    .patch _ | .ldshape _ | .stshape _ | .sop _ | .jump _ | .branch _ | .badOpcode _ =>
    some (faultParts ++ [.det, .dbg])
  | .ldshapeData _ _ _ =>
    some (faultParts ++ [.ras, .dbg])
  | .stshapeAck _ _ | .tallyWaitRelease _ | .remoteWaitRetry _ =>
    some (faultParts ++ [.dbg])
  | _ => none

/-- The parts that a command of instances, lanes, sync objects, messages, scheduling, routes or streams may change; none for
the others. -/
def taskWrites : Instr → Option (List Part)
  | .rxqClosed _ | .sendRetry _ | .deadlineMiss _ | .routeLand _ _ | .routeAgreed _ _ | .agreeTimeout _ =>
    some faultParts
  | .cookieNotify =>
    some [.io, .rsRegs, .rsPages, .fe, .st, .pmu]
  | .launchAccept | .instanceRetire _ =>
    some (faultParts ++ [.gs, .tbl, .dbg])
  | .compactionDone =>
    some [.io, .isr]
  | .instanceOpen _ =>
    some [.io, .rsRegs, .rsCnts, .rsPages, .fe, .ctxs, .isr, .de, .tbl, .ras, .pmu, .trc]
  | .counterInitEnd _ | .roundRelease _ _ =>
    some (faultParts ++ [.qsc, .det])
  | .route _ | .streamArm _ | .send _ =>
    some (faultParts ++ [.det, .dbg])
  | .mix _ =>
    some (faultParts ++ [.marv, .det, .dbg])
  | .select _ =>
    some (faultParts ++ [.lehr, .det, .dbg])
  | .sendAnswer _ | .syncOpApply | .waiterRelease =>
    some (faultParts ++ [.dbg])
  | .engineCompletion _ _ | .engineFault _ _ =>
    some (faultParts ++ [.engs, .qsc, .tbl, .det, .ras, .dbg])
  | .taskHandoff | .caneCount _ _ | .patchBlockLoad _ _ _ | .contributionAdd _ _ _ _ =>
    some (faultParts ++ [.qsc, .det, .ras])
  | .laneIssue _ =>
    some (faultParts ++ [.engs, .marv, .lkp, .det, .ras])
  | .steal _ =>
    some [.io, .rsCnts, .queues, .lanes, .pmu, .trc]
  | .gangGo =>
    some [.io, .de]
  | .engineWake _ _ =>
    some [.io, .engs, .rsRegs, .rsCnts, .rsPages, .fe, .queues, .ctxs, .isr, .lanes, .sched, .marv, .lkp, .det, .ras, .pmu, .trc]
  | .lehrSample =>
    some [.io, .lehr]
  | .deadlock _ | .livelockSend _ | .livelockRxq _ | .stuckAbort _ _ =>
    some [.io, .rsCnts, .rsPages, .lehr, .pmu]
  | .lehrEscalate =>
    some [.io, .lehr, .rstReq]
  | .dumpWriteAck _ _ =>
    some [.io, .rsRegs, .rsCnts, .rsPages, .lehr, .ras, .pmu, .trc]
  | .messageTake =>
    some (faultParts ++ [.lehr])
  | .recordWriteAck _ _ _ =>
    some [.io, .rsPages, .mf, .pmu]
  | .accountingPeriod =>
    some [.io, .rsCnts, .rsPages, .isr, .sched, .tu, .trc]
  | .launchAtRelease _ =>
    some [.io, .rsCnts, .isr, .de, .tu, .tbl, .trc]
  | .mixAccept =>
    some [.io, .rsCnts, .rsPages, .isr, .marv, .pmu]
  | .chunkRelease _ _ =>
    some [.io, .rsCnts, .isr, .de, .pmu]
  | .bubbleFill _ =>
    some [.io, .rsCnts, .isr, .de, .lanes, .sched, .pmu]
  | .marverAdaptation _ _ _ =>
    some [.io, .rsRegs, .rsCnts, .rsPages, .marv, .tu, .ras, .pmu, .trc, .free]
  | .preemptionSaveWriteAck _ _ | .routeCompute _ _ | .streamEntryCheck _ _ _ | .patchWriteBackAck _ _ =>
    some (faultParts ++ [.ras])
  | .restore _ =>
    some [.io, .fe, .sqs, .sched, .pmu, .trc]
  | .pointLate _ | .preemptWaitPassed _ =>
    some [.io, .rsCnts, .rsPages, .queues, .sqs, .isr, .lanes, .st, .mf, .sched, .tu, .pp, .pmu, .trc]
  | .placementEpoch _ _ =>
    some [.io, .rsRegs, .rsCnts, .rsPages, .tu, .shr, .ras, .pmu, .trc, .free]
  | .proposalApply _ =>
    some [.io, .rsPages, .shr, .pmu]
  | .streamTransfer _ =>
    some [.io, .engs, .rsCnts, .lanes, .sched, .strm, .pmu, .trc]
  | .streamArmEnd _ =>
    some [.io, .st, .strm, .pmu, .free]
  | .cgAckRise _ _ =>
    some [.io, .engs]
  | .costHeaderRead _ _ _ =>
    some [.io, .rsRegs, .rsCnts, .rsPages, .isr, .sched, .ras, .pmu, .trc]
  | .countMessageResend _ _ =>
    some [.io, .rsCnts, .isr, .shr, .pp, .pmu]
  | .restoreReadDone _ _ _ =>
    some (faultParts ++ [.ras, .dbg])
  | _ => none

/-- The parts that a command of the Punty Port, of lock-step, of the RAS unit, of the monitors or of the test ports may
change; none for the others. -/
def dieWrites : Instr → Option (List Part)
  | .hb _ | .heartbeatAlarm | .sequencedFrameReceipt _ | .ack _ | .nak _ | .resetAck _ =>
    some (faultParts ++ [.det, .dbg])
  | .ackTimer _ | .retransmitTimeout _ =>
    some [.io, .rsCnts, .pp, .pmu]
  | .syncOp _ | .syncRel _ | .syncCancel _ | .msg _ | .msgX _ | .msgAns _ | .tblPrep _ =>
    some (faultParts ++ [.dbg])
  | .reset _ =>
    some (faultParts ++ [.dbg, .rstReq])
  | .tblArm _ | .tblDisarm _ | .tblAns _ =>
    some (faultParts ++ [.tbl, .dbg])
  | .castTimeout =>
    some [.io, .rsPages, .pp]
  | .lstep _ =>
    some (faultParts ++ [.qsc, .det, .dbg])
  | .lsFlush =>
    some [.io, .rsCnts, .isr, .pp, .det, .pmu]
  | .lsOrphan _ _ =>
    some [.io, .rsRegs, .rsCnts, .rsPages, .qsc, .isr, .lanes, .pp, .det, .pmu]
  | .sramCorrected _ _ _ _ | .traceWriteAck _ =>
    some [.io, .rsRegs, .rsCnts, .rsPages, .ras, .pmu, .trc]
  | .sramUncorrectable _ _ _ _ =>
    some [.io, .rsRegs, .rsCnts, .rsPages, .fe, .queues, .ctxs, .gs, .marv, .det, .ras, .pmu, .trc, .rstReq, .fatalReq]
  | .containmentHoldEnd =>
    some (faultParts ++ [.qsc, .det, .ras, .dbg])
  | .patrolScrub =>
    some [.io, .rsCnts, .ras]
  | .traceStage =>
    some [.io, .rsRegs, .rsCnts, .rsPages, .trc]
  | .traceFlush =>
    some [.io, .pmu, .trc]
  | _ => none

/-- The parts of the block that a command of a level or of the Tally may change; none for the others. -/
def pinWrites : Instr → Option (List Part)
  | .tallyLoad _ _ | .tallyStep _ _ _ =>
    some [.io, .rsCnts, .rsPages, .queues, .ctxs, .sqs, .isr, .lanes, .st, .lehr, .mf, .sched, .marv, .tu, .pp, .pmu, .trc, .tclk]
  | .lockLost =>
    some [.io, .rsCnts, .rsPages, .tu]
  | .ppLinkDown =>
    some [.io, .pp]
  | .ppLinkResume =>
    some [.io, .rsCnts, .pp, .pmu]
  | _ => none

end Sys2Proof.Machine
end

