-- ==== Sys2Proof/Certificates/Slice0/Obligations.lean ====
section
/-! DEFINITION. The statements about the block. -/

open Sys2Proof Sys2Proof.Machine

/-- A step runs the command at the front of the queue on the state with the queue's rest, and idles on an empty queue (the
model's own choice, log entry 1). -/
def Obligations.StepRunsTheFrontCommand : Prop :=
  (∀ (s : State) (i : Instr) (l : List Instr), s.pending = i :: l → step s = exec i { s with pending := l }) ∧
  (∀ s : State, s.pending = [] → step s = .next s)

/-- Every command answers a next state and leaves the queue of commands alone; no word spells a command (log entries 1, 2). -/
def Obligations.EveryCommandAnswersANextState : Prop :=
  -- The queue of waiting commands is the model's own: every command answers a next state, and none touches the queue.
  (∀ (i : Instr) (s : State), ∃ t, exec i s = .next t ∧ t.pending = s.pending) ∧
  -- No row of the table of commands has bits: no word spells a command, and a fetch word changes nothing (log entry 2).
  (∀ (nbits w : Nat) (s : State), decodeTableWord nbits w = none ∧ s.withFetchWord nbits w = s)

/-- Reset and scan mode gate the commands; a reset clears the whole block, and only its end is counted. -/
def Obligations.ResetAndScanModeGateTheCommands : Prop :=
  -- While the block is in reset, only the two reset inputs and the end of reset change the reset state or the block; the other
  -- commands find every input ignored.
  (∀ (i : Instr) (s t : State), s.rst.active = true → exec i s = .next t → i ≠ .porReset → i ≠ .warmReset →
     (∀ st b0 b1 b2 b3, i ≠ .endOfReset st b0 b1 b2 b3) → t.rst = s.rst ∧ t.core = s.core) ∧
  -- In scan mode outside reset, only the reset inputs, a change of tm_scan_mode and the memory self-test change the block.
  (∀ (i : Instr) (s t : State), s.rst.active = false → s.pins.scan = true → exec i s = .next t → i ≠ .porReset → i ≠ .warmReset →
     (∀ b, i ≠ .scanMode b) → (∀ v, i ≠ .wpMbist v) → t.rst = s.rst ∧ t.core = s.core) ∧
  -- Only an end of reset changes RST_CAUSE, RST_PREV and RST_COUNT.
  (∀ (i : Instr) (s t : State), exec i s = .next t → (∀ st b0 b1 b2 b3, i ≠ .endOfReset st b0 b1 b2 b3) →
     t.rst.cause = s.rst.cause ∧ t.rst.prev = s.rst.prev ∧ t.rst.count = s.rst.count)

/-- Every reset source resets the whole block: whatever command starts a reset, nothing of the block is left but the record of
the beats that it has driven, which is the model's own. -/
def Obligations.EveryResetSourceResetsTheWholeBlock : Prop :=
  ∀ (i : Instr) (s t : State), s.rst.active = false → exec i s = .next t → t.rst.active = true →
    t.core = { resetCore with io := { out := t.core.io.out } }

/-- The invariant `Sound` holds right after power-up. -/
def Obligations.SoundAtReset : Prop := Sound State.reset

/-- Every step keeps the invariant `Sound`: a block in reset holds nothing but the record of its driven beats, bring-up is in
one of its stages, the lanes are released from stage 4 on, an unprogrammed fuse bank reads as zeros, and no request for a reset
is left over. -/
def Obligations.EveryStepKeepsSound : Prop := ∀ s t : State, Sound s → step s = .next t → Sound t

/-- The reset inputs, SOFT_RST and a critical error start a reset of their cause; other SOFT_RST values are ignored. -/
def Obligations.ResetsStart : Prop :=
  -- POR_RESET and WARM_RESET start a reset of their cause, which clears the whole block; in reset only POR changes the cause.
  (∀ s : State,
     (s.rst.active = false →
       exec .porReset s = .next { s with rst := { s.rst with active := true, next := 1 }, core := { io := { out := s.core.io.out } } } ∧
       exec .warmReset s = .next { s with rst := { s.rst with active := true, next := 2 }, core := { io := { out := s.core.io.out } } }) ∧
     (s.rst.active = true →
       exec .porReset s = .next { s with rst := { s.rst with next := 1 } } ∧ exec .warmReset s = .next s)) ∧
  -- SOFT_RST: a write of 0x0000C1A5 is acknowledged and starts a reset of cause 3.
  (∀ s : State, s.runs = true → s.core.fatalReq = none →
     exec (.softRst 0xC1A5) s = .next { s with
       rst := { s.rst with active := true, next := 3 }
       core := { io := { out := .htpWrite 0x3100 .ok :: s.core.io.out } } }) ∧
  -- SOFT_RST: any other value is ignored. The write is acknowledged, and as every write it empties its page's write latch.
  (∀ (s : State) (v : Reg), s.runs = true → s.core.rstReq = none → v ≠ 0xC1A5 →
     ∃ t, exec (.softRst v) s = .next t ∧ Keeps s t [.io, .rsPages] ∧ t.core.io.out = .htpWrite 0x3100 .ok :: s.core.io.out ∧
       (∀ p, getPage t.core p = if p = pgSrst then { getPage s.core p with wrLatch := none } else getPage s.core p)) ∧
  -- CRITICAL_ERROR_RESET: a parity error of critical state, or an uncorrectable error of a die-critical SRAM word, starts a
  -- reset of cause 6 and stores the record that started it, with FATAL set, as the last fatal record.
  (∀ (s : State) (src : BitVec 8) (loc : Reg) (syn : BitVec 8), s.runs = true →
     (0x20 ≤ src.toNat ∧ src.toNat ≤ 0x2B ∨ src.toNat = 0x10 ∨ src.toNat = 0x12) →
     ∃ t, exec (.criticalErrorReset src loc syn) s = .next t ∧
       t.rst = { s.rst with
         active := true
         next := 6
         fatal :=
           let par := decide (0x20 ≤ src.toNat ∧ src.toNat ≤ 0x2B)
           [ joinReg
               (r32 ((if par then 3 else 2) * 2 ^ 24 + src.toNat * 2 ^ 16 + 16) |||
                 r32 ((s.core.ras.logSeq + 1).toNat * 2 ^ 8 + b2n s.core.ras.lost * 32))
               0,
             joinReg loc (r32 ((if par then 0 else syn.toNat) * 2 ^ 24)), joinReg 0 0,
             joinReg (loReg s.core.tu.tally) (hiReg s.core.tu.tally) ] } ∧
       t.core = { resetCore with io := { out := s.core.io.out } } ∧
       t.pending = s.pending ∧ t.pins = s.pins ∧ t.mbist = s.mbist)

/-- The end of reset samples straps and fuses, updates the kept state and begins bring-up; straps hold till the next one. -/
def Obligations.TheEndOfResetSamplesAndCounts : Prop :=
  -- END_OF_RESET: the kept state of Table 3.2 is updated, the straps and the fuse bank that they select are sampled, and
  -- bring-up begins in stage 1; everything else that the block holds is at its reset value.
  (∀ (s : State) (st : Straps) (b0 b1 b2 b3 : BitVec 128), s.rst.active = true →
     ∃ t, exec (.endOfReset st b0 b1 b2 b3) s = .next t ∧ t.pending = s.pending ∧ t.pins = s.pins ∧ t.mbist = s.mbist ∧
       t.rst.active = false ∧ t.rst.cause = s.rst.next ∧
       (s.rst.next = 1 → t.rst.prev = 0 ∧ t.rst.count = 0 ∧ t.rst.fatal = [0, 0, 0, 0]) ∧
       (s.rst.next ≠ 1 → t.rst.prev = (s.rst.prev <<< 4) ||| s.rst.cause.setWidth 16 ∧ t.rst.count = s.rst.count + 1 ∧
         t.rst.fatal = s.rst.fatal ∧ t.rst.epoch = s.rst.epoch + 1) ∧
       SameBut [.bring, .rsRegs, .tu, .pp] resetCore t.core ∧
       t.core.bring.stage = 1 ∧ t.core.bring.straps = st ∧
       (let bank := if st.fusemapSel = 0 then b0 else if st.fusemapSel = 1 then b1 else if st.fusemapSel = 2 then b2 else b3
        (bankTag bank = 0xB7 → t.core.bring.bank = bank ∧ t.core.bring.unprog = false) ∧
        (bankTag bank ≠ 0xB7 → t.core.bring.bank = 0 ∧ t.core.bring.unprog = true)) ∧
       regCur t.core pgDet 0x100 = (if st.repro then 1 else 0) ∧
       t.core.tu = { resetCore.tu with lock := s.pins.lock } ∧
       t.core.pp = { resetCore.pp with linkUp := s.pins.linkUp, ownEpoch := t.rst.epoch }) ∧
  -- The straps that the block acts on are those sampled at the last end of reset: an end of reset takes its straps, and no
  -- other command changes them unless it starts a reset.
  ((∀ (st : Straps) (b0 b1 b2 b3 : BitVec 128) (s t : State), s.rst.active = true →
     exec (.endOfReset st b0 b1 b2 b3) s = .next t → t.core.bring.straps = st) ∧
   (∀ (i : Instr) (s t : State), s.rst.active = false → exec i s = .next t → t.rst.active = false →
     t.core.bring.straps = s.core.bring.straps))

/-- Bring-up stages end in order, and stage 3 waits for the discovery. -/
def Obligations.BringUpStagesEndInOrder : Prop :=
  -- BRINGUP_STAGE_END: bring-up moves to its next stage; the end of stage 2 ends the undefined contents that a self-test left,
  -- the end of stage 3 needs the engine and HBM discovery done and releases the lanes, the end of stage 4 after POR seeds the
  -- partner epoch from Tally bits 47:16, and the end of stage 6 sets IRQ_RAW.BRINGUP_DONE.
  (∀ s : State, s.runs = true → s.core.bring.stage ≤ 6 → (s.core.bring.stage = 3 → s.core.sic.engDone = true) →
     ∃ t, exec .bringupStageEnd s = .next t ∧ t.pending = s.pending ∧ t.pins = s.pins ∧
       t.core.bring = { s.core.bring with stage := s.core.bring.stage + 1 } ∧
       t.rst = (if s.core.bring.stage = 4 ∧ s.rst.cause = 1 then
         { s.rst with epoch := BitVec.ofNat 32 (s.core.tu.tally.toNat / 2 ^ 16) } else s.rst) ∧
       t.mbist = (if s.core.bring.stage = 2 then { s.mbist with undef := false } else s.mbist) ∧
       t.core.lanesUp = (s.core.lanesUp || s.core.bring.stage == 3) ∧
       (s.core.bring.stage = 6 →
         (getPage t.core pgSrst).irqRaw = (getPage s.core pgSrst).irqRaw ||| 4 ∧ isUp t.core = true) ∧
       SameBut [.io, .bring, .engs, .lanesUp, .sic, .rsPages, .tu, .pp, .pmu] s.core t.core) ∧
  -- BRINGUP_STAGE_END changes nothing once bring-up is complete, nor in stage 3 before the engine and HBM discovery are done.
  (∀ s : State, (s.core.bring.stage = 7 ∨ s.core.bring.stage = 3 ∧ s.core.sic.engDone = false) → exec .bringupStageEnd s = .next s)

/-- Identity discovery reports engines, HBM stacks and modules, and its area writes are acknowledged. -/
def Obligations.IdentityDiscoveryReportsWhatItFinds : Prop :=
  -- Identity discovery in stage 3: a word that does not complete a record is kept and the next word asked for; the sixteenth
  -- word gives the engine the status of the checks of Table 3.9, and a word that stays unanswered gives it ABSENT; the lane
  -- goes on to its next position.
  (∀ (s : State) (lane : Fin 64) (w : Reg) (e : Nat), s.runs = true → s.core.qsc.done = false → s.core.bring.stage = 3 →
     lane.val < laneCount s.core → (getIdLane s.core lane.val).pos < 68 →
     engAt lane.val (getIdLane s.core lane.val).pos = some e →
     (let l := getIdLane s.core lane.val
      let nxt := if l.pos = 66 ∧ lane.val % 2 = 1 then 68 else l.pos + 1
      (l.words.length < 15 → ∃ t, exec (.idWordResponse lane w) s = .next t ∧ Keeps s t [.io, .sic] ∧
        getIdLane t.core lane.val = { l with words := l.words ++ [w] } ∧
        t.core.io.out = .idReq lane.val l.pos (l.words.length + 1) :: s.core.io.out) ∧
      (l.words.length = 15 → ∃ t, exec (.idWordResponse lane w) s = .next t ∧ Keeps s t [.io, .engs, .sic, .pmu] ∧
        getIdLane t.core lane.val = { pos := nxt, words := [] } ∧
        (getEng t.core e).status = idCheck (l.words ++ [w]) e (posClass l.pos)) ∧
      (∃ t, exec (.idWordTimeout lane) s = .next t ∧ Keeps s t [.io, .engs, .sic, .pmu] ∧
        getIdLane t.core lane.val = { pos := nxt, words := [] } ∧ (getEng t.core e).status = .absent))) ∧
  -- HBM_RECORD_READ_DONE reports the stack present (1), absent (0) or bad (2) in HBM_STAT and counts its read as returned; a
  -- read that fails, a wrong checksum and a first byte other than 0 and 1 are bad records.
  (∀ (s : State) (k : Fin 8) (st : QStatus) (data : List Word), s.runs = true → st ≠ .poison →
     (∃ r ∈ s.core.io.reqs, r.tag = .hbmRec k.val) →
     ∃ t, exec (.hbmRecordReadDone k st data) s = .next t ∧ Keeps s t [.io, .sic, .pmu] ∧
       fld t.core.sic.hbmStat.toNat (2 * k.val) 2 = hbmResult st data ∧ t.core.sic.hbmLeft.getLsbD k.val = false ∧
       (∀ j : Fin 8, j ≠ k → fld t.core.sic.hbmStat.toNat (2 * j.val) 2 = fld s.core.sic.hbmStat.toNat (2 * j.val) 2) ∧
       (st ≠ .ok → fld t.core.sic.hbmStat.toNat (2 * k.val) 2 = 2)) ∧
  -- A module read that ends reports the module in MOD_STAT: present or bad record by its checks, absent where it did not
  -- acknowledge its address; its read is then no longer left.
  (∀ (s : State) (m : Fin 16) (data : List Word), s.runs = true → modNow s.core = some m.val →
     (let ws := data.take (modBytes m.val / 8)
      ∃ t, exec (.i3cModuleReadDone m data) s = .next t ∧ Keeps s t [.io, .sic, .rsPages, .pmu] ∧
        fld t.core.sic.modStat.toNat (2 * m.val) 2 = modResult m.val ws ∧ t.core.sic.modLeft.getLsbD m.val = false) ∧
     (∃ t, exec (.i3cAddressNack m) s = .next t ∧ Keeps s t [.io, .sic, .rsPages, .pmu] ∧
       fld t.core.sic.modStat.toNat (2 * m.val) 2 = 2 ∧ t.core.sic.modLeft.getLsbD m.val = false)) ∧
  -- ID_AREA_WRITE_ACK: the write is no longer open; a status other than OK is logged with KIND 8.
  (∀ (s : State) (slot : Nat) (st : QStatus) (r : Req) (l : List Req), s.runs = true →
     ltake (fun x => decide (x.tag = .idArea slot)) s.core.io.reqs = some (r, l) → r.op = .write →
     (st = .ok → exec (.idAreaWriteAck slot st) s = .next (s.act (fun c => { c with io := { c.io with reqs := l } }))) ∧
     (st ≠ .ok → exec (.idAreaWriteAck slot st) s = .next (s.act (fun c =>
       logErr { c with io := { c.io with reqs := l } } { kind := 8, source := 5, loc := r.addr % 2 ^ 32, info := r.addr / 2 ^ 32 }))))

/-- The Tally follows its port, alarms that it passes are due, and the levels of pins are followed. -/
def Obligations.TheTallyAndThePins : Prop :=
  -- A tclk: TALLY_LOAD gives the Tally its operand; TALLY_STEP gives it the value on the port in value mode, adds the step in
  -- step mode once a load has come, and leaves it before that. tclk counts one, and a high tally_lock is seen. (No queue here
  -- waits for a full save, which a tclk would take as well.)
  (∀ (s : State) (val : Word) (ns : BitVec 2) (lock : Bool), s.runs = true → (∀ e ∈ s.core.queues, e.2.pointLate = false) →
     (∃ t, exec (.tallyLoad val lock) s = .next t ∧ now t.core = val ∧ t.core.tu.loaded = true ∧
       t.core.tclk = s.core.tclk + 1 ∧ t.core.tu.lock = (s.core.tu.lock || lock) ∧ t.pins = { s.pins with lock := s.pins.lock || lock }) ∧
     (∃ t, exec (.tallyStep ns val lock) s = .next t ∧
       now t.core = (if s.core.bring.straps.tallySrc then val else if s.core.tu.loaded then now s.core + w64 ns.toNat else now s.core) ∧
       t.core.tu.loaded = s.core.tu.loaded ∧ t.core.tclk = s.core.tclk + 1 ∧ t.core.tu.lock = (s.core.tu.lock || lock) ∧
       t.pins = { s.pins with lock := s.pins.lock || lock })) ∧
  -- An alarm fires in the tclk in which the Tally has passed its count: after a tclk no alarm that still waits, with or
  -- without a comparator, has its count behind the Tally, and no alarm that was due is lost.
  (∀ (s t : State) (val : Word) (ns : BitVec 2) (lock : Bool), s.runs = true → (∀ e ∈ s.core.queues, e.2.pointLate = false) →
     (exec (.tallyLoad val lock) s = .next t ∨ exec (.tallyStep ns val lock) s = .next t) →
     (∀ a ∈ t.core.tu.cmps.map (·.2) ++ t.core.tu.wait, geW (now t.core) a.at_ = false) ∧
     (∀ a ∈ s.core.tu.due, a ∈ t.core.tu.due) ∧
     (∀ a ∈ s.core.tu.cmps.map (·.2), geW (now t.core) a.at_ = true → a ∈ t.core.tu.due) ∧
     (∀ a ∈ s.core.tu.wait, geW (now t.core) a.at_ = true → { a with late := true } ∈ t.core.tu.due)) ∧
  -- The levels of pins: the fall of tally_lock is counted in LOCK_LOST_CNT and sets IRQ_RAW bit 2; a pp_link_up that falls or
  -- rises is followed, and its rise has every UP link go back to UNA; scan mode is a level that a fall outside reset ends with
  -- the levels that stand.
  (∀ s : State, s.runs = true →
     (s.core.tu.lock = true → ∃ t, exec .lockLost s = .next t ∧ t.pins = { s.pins with lock := false } ∧
       t.core.tu = { s.core.tu with lock := false } ∧ cntGet t.core pgTu 0x110 = cntGet s.core pgTu 0x110 + 1 ∧
       (getPage t.core pgTu).irqRaw = (getPage s.core pgTu).irqRaw ||| 4 ∧
       SameBut [.io, .rsCnts, .rsPages, .tu] s.core t.core) ∧
     (∃ t, exec .ppLinkDown s = .next t ∧ t.pins = { s.pins with linkUp := false } ∧
       t.core.pp = { s.core.pp with linkUp := false } ∧ SameBut [.io, .pp] s.core t.core) ∧
     (s.core.pp.linkUp = false →
       exec .ppLinkResume s = .next (State.act { s with pins := { s.pins with linkUp := true } }
         (fun c => (upDies c).foldl goBack { c with pp := { c.pp with linkUp := true } }))) ∧
     exec (.scanMode true) s = .next { s with pins := { s.pins with scan := true } } ∧
     exec (.scanMode false) s = .next { s with
       pins := { s.pins with scan := false }
       core := { s.core with tu := { s.core.tu with lock := s.pins.lock }, pp := { s.core.pp with linkUp := s.pins.linkUp } } })

/-- An HTP access whose length is not zero, and a write without every byte enabled, are answered with FAULT; an access to no
page of the directory with NOTARGET, and its read with zero data: none of them acts. Length comes before the byte enables, and
these before the address. -/
def Obligations.BrokenAccessesAreAnsweredAndDoNothing : Prop :=
  ∀ (s : State) (addr : BitVec 22) (len : BitVec 6) (be : BitVec 4) (v : Reg), s.runs = true → s.core.rstReq = none →
    (len ≠ 0 →
      (∃ t, exec (.regRead addr len) s = .next t ∧ Keeps s t [.io] ∧
        t.core.io.out = .htpRead addr.toNat .fault 0 :: s.core.io.out) ∧
      (∃ t, exec (.regWrite addr len be v) s = .next t ∧ Keeps s t [.io] ∧
        t.core.io.out = .htpWrite addr.toNat .fault :: s.core.io.out)) ∧
    (len = 0 → be ≠ 0xF → ∃ t, exec (.regWrite addr len be v) s = .next t ∧ Keeps s t [.io] ∧
      t.core.io.out = .htpWrite addr.toNat .fault :: s.core.io.out) ∧
    (pageOf (addr.toNat / 0x1000) = none → len = 0 →
      (∃ t, exec (.regRead addr len) s = .next t ∧ Keeps s t [.io] ∧
        t.core.io.out = .htpRead addr.toNat .noTarget 0 :: s.core.io.out) ∧
      (be = 0xF → ∃ t, exec (.regWrite addr len be v) s = .next t ∧ Keeps s t [.io] ∧
        t.core.io.out = .htpWrite addr.toNat .noTarget :: s.core.io.out))

/-- A read answers the register, and the two halves of a pair are of one moment. -/
def Obligations.ReadsAnswerTheRegister : Prop :=
  -- REG_READ of a register that is neither the low half of a pair, nor held in the page's read latch, nor a read with an
  -- effect of its own answers its value and changes nothing.
  (∀ (s : State) (p off : Nat) (pt : PageType) (n : Nat), s.runs = true → pageOf p = some (pt, n) → off < 0x1000 → off % 4 = 0 →
     isLo pt.ty off = false → off ≠ 0x300 → ¬(p = pgSt ∧ off = 0x160) → (∀ h v, (getPage s.core p).rdLatch = some (h, v) → h ≠ off) →
     ∃ t, exec (.regRead (BitVec.ofNat 22 (regAddr p off)) 0) s = .next t ∧ Keeps s t [.io] ∧
       t.core.io.out = .htpRead (regAddr p off) .ok (regNow s.rst s.core p off) :: s.core.io.out) ∧
  -- A read of any low half of a pair loads the page's latch with its high half, and a later read of that high half answers the
  -- latch: whatever another command has meanwhile done to the block but the latch, the two reads give the two halves of one
  -- moment.
  (∀ (s s' : State) (p off : Nat) (pt : PageType) (n : Nat), s.runs = true → s'.runs = true → pageOf p = some (pt, n) →
     off + 4 < 0x1000 → off % 4 = 0 → isLo pt.ty off = true → isLo pt.ty (off + 4) = false → off + 4 ≠ 0x300 →
     ¬(p = pgSt ∧ (off = 0x160 ∨ off + 4 = 0x160)) →
     ∃ t, exec (.regRead (BitVec.ofNat 22 (regAddr p off)) 0) s = .next t ∧ Keeps s t [.io, .rsPages] ∧
       t.core.io.out = .htpRead (regAddr p off) .ok (regNow s.rst s.core p off) :: s.core.io.out ∧
       ((getPage s'.core p).rdLatch = (getPage t.core p).rdLatch →
         ∃ t', exec (.regRead (BitVec.ofNat 22 (regAddr p (off + 4))) 0) s' = .next t' ∧ Keeps s' t' [.io] ∧
           t'.core.io.out = .htpRead (regAddr p (off + 4)) .ok (regNow s.rst s.core p (off + 4)) :: s'.core.io.out))

/-- A write follows the class of its register, and a pair is written through the latch. -/
def Obligations.WritesFollowTheirClass : Prop :=
  -- REG_WRITE of a register that only holds what is written, with no low half held: a register of class L, or of class Q while
  -- its unit is stopped, takes the value at once; one of class S takes it in its shadow copy; one of class Q whose unit runs
  -- keeps its value, and the page records the violation. Every register other than the written one keeps its value.
  (∀ (s : State) (p off : Nat) (pt : PageType) (n : Nat) (r : RegRow) (v : Reg), s.runs = true → s.core.rstReq = none →
     pageOf p = some (pt, n) → 0x100 ≤ off → off < 0x1000 → off % 4 = 0 → rowOf pt.ty off = some r → isHeld pt.ty off = false →
     (∀ c lo, unitWrite c p pt.ty n off lo v = none) → (getPage s.core p).wrLatch = none →
     ∃ t, exec (.regWrite (BitVec.ofNat 22 (regAddr p off)) 0 0xF v) s = .next t ∧
       t.core.io.out = .htpWrite (regAddr p off) .ok :: s.core.io.out ∧
       (r.cls = 2 → Keeps s t [.io, .rsShadow, .rsPages] ∧ (getPage t.core p).dirty = true ∧
         tfind t.core.rs.shadow (regAddr p off) =
           some (mergeReg r ((tfind s.core.rs.shadow (regAddr p off)).getD (regCur s.core p off)) v) ∧
         (∀ a, a ≠ regAddr p off → tfind t.core.rs.shadow a = tfind s.core.rs.shadow a)) ∧
       (r.cls ≠ 2 → ¬(r.cls = 3 ∧ unitRun s.core pt.ty n = true) → Keeps s t [.io, .rsRegs, .rsPages] ∧
         regCur t.core p off = mergeReg r (regCur s.core p off) v ∧
         (∀ q o, regAddr q o ≠ regAddr p off → regCur t.core q o = regCur s.core q o)) ∧
       (r.cls = 3 → unitRun s.core pt.ty n = true → Keeps s t [.io, .rsPages] ∧
         ((getPage s.core p).code = 0 →
           (getPage t.core p).code = 0x0A ∧ (getPage t.core p).infoLo = r32 off ∧ (getPage t.core p).infoHi = v) ∧
         ((getPage s.core p).code ≠ 0 → (getPage t.core p).code = (getPage s.core p).code))) ∧
  -- The low half of a class L or Q pair is held in the page's write latch and changes nothing; the write of its high half then
  -- applies both, and with no low half held the high half alone.
  (∀ (s : State) (p off : Nat) (pt : PageType) (n : Nat) (rl rh : RegRow) (v : Reg), s.runs = true → s.core.rstReq = none →
     pageOf p = some (pt, n) → 0x100 ≤ off → off + 4 < 0x1000 → off % 4 = 0 →
     rowOf pt.ty off = some rl → rowOf pt.ty (off + 4) = some rh → rl.cls ≠ 2 → rh.cls ≠ 2 →
     isHeld pt.ty off = true → isHeld pt.ty (off + 4) = false →
     (∀ c lo, unitWrite c p pt.ty n (off + 4) lo v = none) → (isQ pt.ty (off + 4) = true → unitRun s.core pt.ty n = false) →
     (∃ t, exec (.regWrite (BitVec.ofNat 22 (regAddr p off)) 0 0xF v) s = .next t ∧ Keeps s t [.io, .rsPages] ∧
       (getPage t.core p).wrLatch = some (off, v)) ∧
     (∀ x, (getPage s.core p).wrLatch = some (off, x) →
       ∃ t, exec (.regWrite (BitVec.ofNat 22 (regAddr p (off + 4))) 0 0xF v) s = .next t ∧ Keeps s t [.io, .rsRegs, .rsPages] ∧
         regCur t.core p off = mergeReg rl (regCur s.core p off) x ∧
         regCur t.core p (off + 4) = mergeReg rh (regCur s.core p (off + 4)) v ∧ (getPage t.core p).wrLatch = none) ∧
     ((getPage s.core p).wrLatch = none →
       ∃ t, exec (.regWrite (BitVec.ofNat 22 (regAddr p (off + 4))) 0 0xF v) s = .next t ∧ Keeps s t [.io, .rsRegs, .rsPages] ∧
         regCur t.core p off = regCur s.core p off ∧ regCur t.core p (off + 4) = mergeReg rh (regCur s.core p (off + 4)) v))

/-- A commit applies or rejects the shadow set; a discard drops it, and ERR_CLR clears the error. -/
def Obligations.StagedWritesAreCommittedOrDiscarded : Prop :=
  -- STAGE_COMMIT whose check passes: every shadow copy of the page becomes active, SEQ counts one, LAST reads 1, SHADOW_DIRTY
  -- clears and IRQ_RAW.STAGE_DONE is set. (On the PP page this says it of a die that keeps no links.)
  (∀ (s : State) (p : Fin 1024) (pt : PageType) (n : Nat), s.runs = true → pageOf p.val = some (pt, n) → hasS p.val = true →
     agree (shadowApply s.core p.val) p.val = none → (p.val = pgPp → role s.core = 0 ∨ s.core.pp.on = false) →
     ∃ t, exec (.stageCommit p) s = .next t ∧ t.core.io.out.head? = some (.htpWrite (regAddr p.val 0x30) .ok) ∧
       (∀ q o, regCur t.core q o = regCur (shadowApply s.core p.val) q o) ∧
       (∀ a, a / 0x1000 = p.val → tfind t.core.rs.shadow a = none) ∧
       (getPage t.core p.val).seq = (getPage s.core p.val).seq + 1 ∧ (getPage t.core p.val).last = 1 ∧
       (getPage t.core p.val).dirty = false ∧ (getPage t.core p.val).irqRaw.getLsbD 1 = true) ∧
  -- STAGE_COMMIT whose check fails: no active register changes and the shadow set is kept; LAST reads 2, FAIL_OFF holds the
  -- offset of the first failing field, the page records code 0x08, and IRQ_RAW.STAGE_DONE is set.
  (∀ (s : State) (p : Fin 1024) (pt : PageType) (n off reason : Nat), s.runs = true → pageOf p.val = some (pt, n) → hasS p.val = true →
     agree (shadowApply s.core p.val) p.val = some (off, reason) →
     ∃ t, exec (.stageCommit p) s = .next t ∧ (∀ q o, regCur t.core q o = regCur s.core q o) ∧ t.core.rs.shadow = s.core.rs.shadow ∧
       (getPage t.core p.val).last = 2 ∧ (getPage t.core p.val).failOff = BitVec.ofNat 10 (off / 4) ∧
       ((getPage s.core p.val).code = 0 → (getPage t.core p.val).code = 8) ∧
       (getPage t.core p.val).irqRaw.getLsbD 1 = true ∧ (getPage t.core p.val).irqRaw.getLsbD 0 = true) ∧
  -- STAGE_DISCARD copies every active S field over its shadow and clears SHADOW_DIRTY; ERR_CLR clears ERR_CODE and ERR_INFO;
  -- neither changes an active register.
  (∀ (s : State) (p : Fin 1024) (pt : PageType) (n : Nat), s.runs = true → pageOf p.val = some (pt, n) →
     (∃ t, exec (.stageDiscard p) s = .next t ∧ Keeps s t [.io, .rsShadow, .rsPages] ∧
       (∀ a, tfind t.core.rs.shadow a = if a / 0x1000 = p.val then none else tfind s.core.rs.shadow a) ∧
       (∀ q, getPage t.core q = if q = p.val then { getPage s.core q with dirty := false, wrLatch := none } else getPage s.core q)) ∧
     (∃ t, exec (.errClr p) s = .next t ∧ Keeps s t [.io, .rsPages] ∧
       (∀ q, getPage t.core q = if q = p.val then
           { getPage s.core q with code := 0, more := 0, infoLo := 0, infoHi := 0, wrLatch := none } else getPage s.core q)))

/-- An error of a page: the first since the last clear is held, a later one only counts in MORE up to 0xFFFF, and each sets
IRQ_RAW.ERR. -/
def Obligations.PageErrorsHoldTheFirst : Prop :=
  ∀ (c : Core) (p code lo hi : Nat), code < 256 →
    (getPage (pageErr c p code lo hi) p).irqRaw = (getPage c p).irqRaw ||| 1 ∧
    ((getPage c p).code = 0 → (getPage (pageErr c p code lo hi) p).code.toNat = code ∧
      (getPage (pageErr c p code lo hi) p).infoLo = r32 lo ∧ (getPage (pageErr c p code lo hi) p).infoHi = r32 hi ∧
      (getPage (pageErr c p code lo hi) p).more = (getPage c p).more) ∧
    ((getPage c p).code ≠ 0 → (getPage (pageErr c p code lo hi) p).code = (getPage c p).code ∧
      (getPage (pageErr c p code lo hi) p).infoLo = (getPage c p).infoLo ∧
      (getPage (pageErr c p code lo hi) p).infoHi = (getPage c p).infoHi ∧
      (getPage (pageErr c p code lo hi) p).more.toNat = min 0xFFFF ((getPage c p).more.toNat + 1)) ∧
    (∀ q, q ≠ p → getPage (pageErr c p code lo hi) q = getPage c q)

/-- DIGEST_UPDATE: a page whose digest is not up to date takes the CRC-64 of its configuration fields, and a change of a
contributing one asks for a new die digest; the die digest is that of the contributing pages in ascending order. -/
def Obligations.DigestsAreRecomputed : Prop :=
  ∀ (s : State) (p : Fin 1024), s.runs = true →
    ((getPage s.core p.val).digestBusy = true →
      ∃ t, exec (.digestUpdate (some p)) s = .next t ∧ Keeps s t [.io, .rsPages, .rsDigest] ∧
        cfgDigest t.core p.val = pageDigest (regCur s.core p.val) p.val ∧ (getPage t.core p.val).digestBusy = false ∧
        t.core.rs.dieBusy =
          (s.core.rs.dieBusy || contributes s.core p.val && pageDigest (regCur s.core p.val) p.val != cfgDigest s.core p.val) ∧
        t.core.rs.dieDigest = s.core.rs.dieDigest) ∧
    (s.core.rs.dieBusy = true →
      ∃ t, exec (.digestUpdate none) s = .next t ∧ Keeps s t [.io, .rsDigest] ∧
        t.core.rs.dieDigest = some (dieDigestOf s.core) ∧ t.core.rs.dieBusy = false)

/-- Quiescing starts in its mode, is done when the block is quiet, holds what would be driven, and ends. -/
def Obligations.QuiescingStopsAndEnds : Prop :=
  -- QUIESCE_REQ with REQ set starts quiescing in the mode that it gives; during a DRAIN a write with MODE 1 makes it an ABORT,
  -- and a write that would take the MODE of an ABORT back is ignored.
  (∀ (s : State) (v : Reg), s.runs = true → v.getLsbD 0 = true →
     (s.core.qsc.req = false → v.getLsbD 4 = false →
       ∃ t, exec (.quiesceReq v) s = .next t ∧ Keeps s t [.io, .rsRegs, .rsPages, .qsc] ∧
         t.core.qsc = { req := true, abort := false, done := false, at_ := now s.core } ∧ regCur t.core pgQsc 0x100 = 1) ∧
     (s.core.qsc.req = false → v.getLsbD 4 = true →
       ∃ t, exec (.quiesceReq v) s = .next t ∧ Keeps s t [.io, .rsRegs, .rsPages, .qsc, .lanes] ∧
         t.core.qsc = { req := true, abort := true, done := false, at_ := now s.core } ∧ regCur t.core pgQsc 0x100 = 0x11) ∧
     (s.core.qsc.req = true → s.core.qsc.abort = false → v.getLsbD 4 = true →
       ∃ t, exec (.quiesceReq v) s = .next t ∧ Keeps s t [.io, .rsRegs, .rsPages, .qsc, .lanes] ∧
         t.core.qsc = { s.core.qsc with abort := true } ∧ regCur t.core pgQsc 0x100 = 0x11) ∧
     (s.core.qsc.req = true → s.core.qsc.abort = true → v.getLsbD 4 = false →
       ∃ t, exec (.quiesceReq v) s = .next t ∧ Keeps s t [.io, .rsPages])) ∧
  -- QUIESCE_DONE: DONE rises, and with it IRQ_RAW.DONE_RISE, once quiescing is asked for, no issue is without its completion
  -- and no request without its response; until then it does not rise.
  (∀ s : State, s.runs = true →
     (s.core.qsc.req = true → s.core.qsc.done = false → quiet s.core = true →
       ∃ t, exec .quiesceDone s = .next t ∧ Keeps s t [.io, .rsPages, .qsc] ∧ t.core.qsc = { s.core.qsc with done := true } ∧
         (getPage t.core pgQsc).irqRaw = (getPage s.core pgQsc).irqRaw ||| 4) ∧
     (s.core.qsc.req = false ∨ quiet s.core = false → ∃ t, exec .quiesceDone s = .next t ∧ Keeps s t [.io])) ∧
  -- QUIESCE_END: quiescing ends at any step; alarms that fell due meanwhile fire late, the timers of WAITING routes go on, and
  -- the beats and requests that were held are driven in the order in which they were held, before the units resume.
  ((∀ s : State, s.runs = true → s.core.qsc.req = true →
     exec .quiesceEnd s = .next (s.act (fun c =>
       let v := regCur c pgQsc 0x100 &&& 0x10
       let c := regSet (modPage c pgQsc (fun p => { p with wrLatch := none })) pgQsc 0x100 v
       let c := alarmsLate { routeTimers c c.qsc.at_ with qsc := {} }
       let c := unitsResume (heldGo (realignSkipped c))
       { c with io := { c.io with out := .htpWrite 0x2100 .ok :: c.io.out } }))) ∧
   (∀ c : Core, (heldGo c).io.reqs = c.io.reqs ++ c.io.heldReqs ∧ (heldGo c).io.out = c.io.heldOut.reverse ++ c.io.out ∧
     (heldGo c).io.heldReqs = [] ∧ (heldGo c).io.heldOut = [])) ∧
  -- While the block is quiesced, a request and a driven beat are held; otherwise they leave at once.
  (∀ (c : Core) (r : Req) (e : PortEvent),
     (c.qsc.done = true →
       (sendReq c r).io = { c.io with heldReqs := c.io.heldReqs ++ [r] } ∧ (emit c e).io = { c.io with heldOut := c.io.heldOut ++ [e] }) ∧
     (c.qsc.done = false →
       (sendReq c r).io = { c.io with reqs := c.io.reqs ++ [r] } ∧ (emit c e).io = { c.io with out := e :: c.io.out }))

/-- RING_TAIL, FE_CTRL, PART_CTRL and OBJ_SEL act as their rules say. -/
def Obligations.FrontEndRegistersAct : Prop :=
  -- RING_TAIL: a tail within the ring size is taken, and an FE with nothing in hand then reads at most 64 entries that do not
  -- cross a 4 KiB boundary; a tail beyond it is ignored and recorded as RING_OVERRUN.
  (∀ (s : State) (v : Reg), s.runs = true →
     ((v - r32 (regFeRingHead s.core)).toNat ≤ 2 ^ regFeRingSizeLog2 s.core →
       ∃ t, exec (.ringTail v) s = .next t ∧ Keeps s t [.io, .rsRegs, .rsPages, .fe, .pmu] ∧ regFeRingTail t.core = v.toNat ∧
         (∀ h n, h = regFeRingHead s.core →
           n = min (v - r32 h).toNat (64 - h % 2 ^ regFeRingSizeLog2 s.core % 64) → v ≠ r32 h →
           s.core.fe.decoding = true → regFeCtrlEn s.core = true → s.core.fe.ringStop = false → s.core.fe.busy = false →
           s.core.fe.fetch = none → s.core.fe.batch = [] → hasReq s.core .ringFetch = false →
           s.core.qsc.req = false → s.core.qsc.done = false →
           t.core.fe.fetch = some (h, n) ∧
           ∃ l, t.core.io.reqs = s.core.io.reqs ++
             { op := .read, port := .hip, addr := regFeRingBase s.core + 64 * (h % 2 ^ regFeRingSizeLog2 s.core), part := 0,
               len := 64 * n, data := [], tag := .ringFetch } :: l)) ∧
     (2 ^ regFeRingSizeLog2 s.core < (v - r32 (regFeRingHead s.core)).toNat →
       ∃ t, exec (.ringTail v) s = .next t ∧ Keeps s t [.io, .rsPages] ∧
         ((getPage s.core pgFe).code = 0 → (getPage t.core pgFe).code = 0x10 ∧ (getPage t.core pgFe).infoLo = v))) ∧
  -- FE_CTRL_EN: setting EN starts decoding and clears RING_STOP, unless a ring size is out of range, which is recorded as
  -- BAD_RING_CFG; clearing it drops the fetched entries.
  (∀ (s : State) (v : Reg), s.runs = true →
     (v.getLsbD 0 = true → regFeCtrlEn s.core = false → ringLogOk (regFeRingSizeLog2 s.core) = true →
       ringLogOk (regFeRespSizeLog2 s.core) = true →
       ∃ t, exec (.feCtrlEn v) s = .next t ∧ Keeps s t [.io, .rsRegs, .rsPages, .fe, .pmu] ∧ regFeCtrlEn t.core = true ∧
         t.core.fe.ringStop = false ∧ t.core.fe.decoding = true) ∧
     (v.getLsbD 0 = true → regFeCtrlEn s.core = false →
       (ringLogOk (regFeRingSizeLog2 s.core) = false ∨ ringLogOk (regFeRespSizeLog2 s.core) = false) →
       ∃ t, exec (.feCtrlEn v) s = .next t ∧ Keeps s t [.io, .rsPages] ∧
         ((getPage s.core pgFe).code = 0 → (getPage t.core pgFe).code = 0x14)) ∧
     (v.getLsbD 0 = false →
       ∃ t, exec (.feCtrlEn v) s = .next t ∧ Keeps s t [.io, .rsRegs, .rsPages, .fe] ∧ regFeCtrlEn t.core = false ∧
         t.core.fe = { s.core.fe with fetch := none, batch := [], batchReady := false, decoding := s.core.fe.busy })) ∧
  -- PART_CTRL_EN: while no context of the partition stands, EN rises only if the checks of Table 6.3 pass, a failed check is
  -- recorded as PART_BAD with its reason, and a clear is taken at once; while the partition's unit runs the write is
  -- discarded.
  (∀ (s : State) (p : Fin 16) (v : Reg), s.runs = true →
     (unitRun s.core 0x0D p.val = false →
       (v.getLsbD 0 = true → regPartCtrlEn s.core p.val = false → partBad s.core p.val = none →
         ∃ t, exec (.partCtrlEn p v) s = .next t ∧ Keeps s t [.io, .rsRegs, .rsPages] ∧ regPartCtrlEn t.core p.val = true) ∧
       (∀ reason, v.getLsbD 0 = true → regPartCtrlEn s.core p.val = false → partBad s.core p.val = some reason →
         ∃ t, exec (.partCtrlEn p v) s = .next t ∧ Keeps s t [.io, .rsPages] ∧ regPartCtrlEn t.core p.val = false ∧
           ((getPage s.core (pgPart p.val)).code = 0 →
             (getPage t.core (pgPart p.val)).code = 0x10 ∧ (getPage t.core (pgPart p.val)).infoHi = r32 reason)) ∧
       (v.getLsbD 0 = false →
         ∃ t, exec (.partCtrlEn p v) s = .next t ∧ Keeps s t [.io, .rsRegs, .rsPages] ∧ regPartCtrlEn t.core p.val = false)) ∧
     (unitRun s.core 0x0D p.val = true →
       ∃ t, exec (.partCtrlEn p v) s = .next t ∧ Keeps s t [.io, .rsPages] ∧
         ((getPage s.core (pgPart p.val)).code = 0 → (getPage t.core (pgPart p.val)).code = 0x0A))) ∧
  -- OBJ_SEL: the view selector takes the handle and a query of it starts; the block of a handle that is not in hand is read.
  (∀ (s : State) (v : Reg), s.runs = true → s.core.qsc.done = false → s.core.fe.rels = [] →
     tfind s.core.fe.ot (v.toNat % 2 ^ 16 / 8) = none →
     ∃ t, exec (.objSel v) s = .next t ∧ Keeps s t [.io, .rsRegs, .rsPages, .fe, .pmu, .ctxs] ∧
       regCur t.core pgObj 0x10C = v &&& 0xFFFF ∧ t.core.fe.querying = some (v.toNat % 2 ^ 16) ∧ t.core.fe.query = none ∧
       ∃ l, t.core.io.reqs = s.core.io.reqs ++
         { op := .read, port := .mp, addr := regObjOtBase s.core + 256 * (v.toNat % 2 ^ 16 / 8), part := 0, len := 256, data := [],
           tag := .otRead (v.toNat % 2 ^ 16 / 8) } :: l)

/-- FIFO windows, receive-queue registers, CQ_CTRL and GRP_CFG act as their rules say. -/
def Obligations.WindowsAndUnitRegistersAct : Prop :=
  -- The windows of the register FIFOs, on the pages that have one: a read of FIFO_DATA answers the word at RD and moves RD on,
  -- or zero with UNDERRUN where none is left; MARK notes RD, REWIND goes back to the mark, and RELEASE drops the words before
  -- RD.
  (∀ (s : State) (p : Fin 1024), s.runs = true → (p.val = pgRas ∨ p.val = pgSched) →
     ∀ (f : RegFifo) (k : Nat), fifoOf s.core p.val = some (f, k) →
       (∃ t, exec (.fifoData p) s = .next t ∧ Keeps s t [.io, .ras, .sched] ∧
         t.core.io.out = .htpRead (regAddr p.val 0x300) .ok (if f.words.length ≤ f.rd then 0 else f.words.getD f.rd 0) :: s.core.io.out ∧
         fifoOf t.core p.val = some ((if f.words.length ≤ f.rd then { f with underrun := true }
           else { f with rd := f.rd + 1, ue := f.ue || f.bad.contains f.rd }), k)) ∧
       (∃ t, exec (.mark p) s = .next t ∧ Keeps s t [.io, .rsPages, .ras, .sched] ∧
         fifoOf t.core p.val = some ({ f with mark := f.rd }, k)) ∧
       (∃ t, exec (.rewind p) s = .next t ∧ Keeps s t [.io, .rsPages, .ras, .sched] ∧
         fifoOf t.core p.val = some ({ f with rd := f.mark }, k)) ∧
       (∃ t, exec (.release p) s = .next t ∧ Keeps s t [.io, .rsPages, .ras, .sched] ∧
         fifoOf t.core p.val = some ({ f with
           words := f.words.drop f.rd, rd := 0, mark := 0
           bad := (f.bad.filter (fun n => decide (f.rd ≤ n))).map (· - f.rd) }, k))) ∧
  -- A record enters a register FIFO whole, behind the records before it, or is lost whole, and then OVERFLOW is set and
  -- FIFO_LOST counts it.
  (∀ (f : RegFifo) (cap : Nat) (ws : List Reg),
     (f.words.length + ws.length ≤ cap → fifoPush f cap ws = { f with words := f.words ++ ws }) ∧
     (cap < f.words.length + ws.length → fifoPush f cap ws = { f with overflow := true, lost := f.lost + 1 })) ∧
  -- RXQ_CTRL pauses the selected receive queue while it is LIVE; a write of its landing window sets the size, or the base from
  -- both halves; a window that leaves its owner's carve-out gets size zero and is recorded. No write reaches a queue that is
  -- not LIVE.
  (∀ (s : State) (v : Reg), s.runs = true →
     (let q := regMfRxqSelRxq s.core
      let x := getRxq s.core q
      (x.st = .live →
        (∃ t, exec (.rxqCtrl v) s = .next t ∧ Keeps s t [.io, .rsPages, .mf] ∧ getRxq t.core q = { x with pause := v.getLsbD 0 }) ∧
        (∃ t, exec (.landWindowWrite true v) s = .next t ∧ Keeps s t [.io, .rsPages, .mf] ∧
          getRxq t.core q = { x with
            landSize := if rf v 0 24 = 0 ∨ inCarve s.core x.owner x.landBase (rf v 0 24 * 4096) = true then rf v 0 24 else 0 }) ∧
        (∀ lo, (getPage s.core pgMf).wrLatch = some (0x11C, lo) →
          ∃ t, exec (.landWindowWrite false v) s = .next t ∧ Keeps s t [.io, .rsPages, .mf] ∧
            (let b := rf v 0 20 * 2 ^ 32 + rf lo 12 20 * 4096
             getRxq t.core q = { x with
               landBase := b
               landSize := if x.landSize = 0 ∨ inCarve s.core x.owner b (x.landSize * 4096) = true then x.landSize else 0 }))) ∧
      (x.st ≠ .live → ∀ b,
        (∃ t, exec (.rxqCtrl v) s = .next t ∧ Keeps s t [.io, .rsPages]) ∧
        (∃ t, exec (.landWindowWrite b v) s = .next t ∧ Keeps s t [.io, .rsPages])))) ∧
  -- CQ_CTRL_EN: EN moves an OFF combining queue whose checks pass to IDLE and takes its accumulator lines; a failed check is
  -- recorded as CQ_BAD with its reason; clearing EN frees the lines of an IDLE queue, and while a round is open or releasing
  -- the write is discarded.
  (∀ (s : State) (v : Reg), s.runs = true →
     (let n := regCruCqSelCq s.core
      let q := getCq s.core n
      (v.getLsbD 0 = true → q.st = .off → cqCheck s.core n = none →
        ∃ t, exec (.cqCtrlEn v) s = .next t ∧ Keeps s t [.io, .rsPages, .cru] ∧
          getCq t.core n = { q with st := .idle, lines := linesOf (cqFormat q) (cqWords q) } ∧
          t.core.cru.used = s.core.cru.used + linesOf (cqFormat q) (cqWords q)) ∧
      (∀ k, v.getLsbD 0 = true → q.st = .off → cqCheck s.core n = some k →
        ∃ t, exec (.cqCtrlEn v) s = .next t ∧ Keeps s t [.io, .rsPages] ∧
          ((getPage s.core pgCru).code = 0 → (getPage t.core pgCru).code = 0x10 ∧ (getPage t.core pgCru).infoHi = r32 k)) ∧
      (v.getLsbD 0 = false → q.st = .idle →
        ∃ t, exec (.cqCtrlEn v) s = .next t ∧ Keeps s t [.io, .rsPages, .cru] ∧ getCq t.core n = { q with st := .off, lines := 0 } ∧
          t.core.cru.used = s.core.cru.used - q.lines) ∧
      (v.getLsbD 0 = false → (q.st = .open_ ∨ q.st = .releasing) →
        ∃ t, exec (.cqCtrlEn v) s = .next t ∧ Keeps s t [.io, .rsPages] ∧
          ((getPage s.core pgCru).code = 0 → (getPage t.core pgCru).code = 0x0A)))) ∧
  -- GRP_CFG_EN: a write of GRP_CFG reaches the selected group while none of its routes is open; with EN set and a check of
  -- R677 that fails, EN stays 0 and the reason is recorded.
  (∀ (s : State) (v : Reg), s.runs = true →
     (let k := regShrGrpSelGroup s.core
      let g := getGroup s.core k
      (groupBusy s.core k = false → v.getLsbD 31 = false ∨ grpBad s.core g = none →
        ∃ t, exec (.grpCfgEn v) s = .next t ∧ Keeps s t [.io, .rsPages, .shr] ∧ getGroup t.core k = { g with cfg := v &&& 0x80FF0FFF }) ∧
      (∀ n, groupBusy s.core k = false → v.getLsbD 31 = true → grpBad s.core g = some n →
        ∃ t, exec (.grpCfgEn v) s = .next t ∧ Keeps s t [.io, .rsPages, .shr] ∧
          getGroup t.core k = { g with cfg := v &&& 0x00FF0FFF } ∧
          ((getPage s.core pgShr).code = 0 → (getPage t.core pgShr).code = 0x10 ∧ (getPage t.core pgShr).infoHi = r32 n)) ∧
      (groupBusy s.core k = true →
        ∃ t, exec (.grpCfgEn v) s = .next t ∧ Keeps s t [.io, .rsPages] ∧
          ((getPage s.core pgShr).code = 0 → (getPage t.core pgShr).code = 0x0A))))

/-- The shadow table is sealed, armed and flipped, and EPOCH_LOAD needs an idle table. -/
def Obligations.TablesAreSealedArmedAndFlipped : Prop :=
  -- TBL_CTRL on a die that casts no flip, outside a cast: SEAL seals an OPEN shadow, or leaves it SEALING while an update
  -- transfer is open; UNSEAL opens a SEALED one; ARM arms a SEALED one for a FLIP_AT that lies ahead of the Tally, with an
  -- alarm of its count; DISARM takes the alarm back. A bit that Table 13.6 does not list for the state is recorded and changes
  -- nothing else.
  (∀ s : State, s.runs = true → s.core.pp.cast = none → castsFlip s.core = false →
     (s.core.tbl.shadow = .opened →
       ∃ t, exec .seal s = .next t ∧ Keeps s t [.io, .rsPages, .tbl] ∧
         t.core.tbl = { s.core.tbl with shadow := if updateOpen s.core = true then .sealing else .sealed }) ∧
     (s.core.tbl.shadow = .sealed →
       ∃ t, exec .unseal s = .next t ∧ Keeps s t [.io, .rsPages, .tbl] ∧ t.core.tbl = { s.core.tbl with shadow := .opened }) ∧
     (s.core.tbl.shadow = .sealed → aheadOf s.core (flipAt s.core) = true →
       ∃ t, exec .arm s = .next t ∧ Keeps s t [.io, .rsPages, .tu, .tbl] ∧ t.core.tbl = { s.core.tbl with shadow := .armed } ∧
         (s.core.tu.cmps = [] → s.core.tu.wait = [] →
           t.core.tu.cmps = [(0, { at_ := flipAt s.core, kind := 1, holder := 0 })])) ∧
     (s.core.tbl.shadow = .sealed → aheadOf s.core (flipAt s.core) = false →
       ∃ t, exec .arm s = .next t ∧ Keeps s t [.io, .rsPages] ∧
         ((getPage s.core pgTbl).code = 0 → (getPage t.core pgTbl).code = 0x11)) ∧
     (s.core.tbl.shadow = .armed →
       ∃ t, exec .disarm s = .next t ∧ Keeps s t [.io, .rsPages, .tu, .tbl] ∧ t.core.tbl = { s.core.tbl with shadow := .sealed } ∧
         (∀ a ∈ t.core.tu.cmps.map (·.2) ++ t.core.tu.wait ++ t.core.tu.due, alarmIs 1 0 a = false)) ∧
     (∀ i, (i = .seal ∧ s.core.tbl.shadow ≠ .opened) ∨ (i = .unseal ∧ s.core.tbl.shadow ≠ .sealed) ∨
         (i = .arm ∧ s.core.tbl.shadow ≠ .sealed) ∨ (i = .disarm ∧ s.core.tbl.shadow ≠ .armed) →
       ∃ t, exec i s = .next t ∧ Keeps s t [.io, .rsPages] ∧
         ((getPage s.core pgTbl).code = 0 → (getPage t.core pgTbl).code = 0x13))) ∧
  -- TABLE_FLIP: a due flip alarm fires, and in one step TABLE_EPOCH counts one, the leases of the table that was live become
  -- those of the previous one, and the shadow is OPEN, or BUSY while such leases stand; a late flip is recorded with its
  -- lateness.
  (∀ (s : State) (a : Alarm) (l : List Alarm), s.runs = true → s.core.qsc.req = false →
     ltake (alarmIs 1 0) s.core.tu.due = some (a, l) →
     ∃ t, exec .tableFlip s = .next t ∧ Keeps s t [.io, .rsCnts, .rsPages, .tu, .tbl, .trc] ∧ t.core.tu = { s.core.tu with due := l } ∧
       t.core.tbl = { s.core.tbl with
         epoch := s.core.tbl.epoch + 1, livePrev := s.core.tbl.liveCur, liveCur := 0, lastFlip := now s.core
         shadow := if s.core.tbl.liveCur = 0 then .opened else .busy
         lateNs := if a.late then now s.core - a.at_ else s.core.tbl.lateNs } ∧
       cntGet t.core pgTbl 0x130 = cntGet s.core pgTbl 0x130 + 1 ∧ (getPage t.core pgTbl).irqRaw.getLsbD 2 = true ∧
       (a.late = true → (getPage s.core pgTbl).code = 0 → (getPage t.core pgTbl).code = 0x12)) ∧
  -- EPOCH_LOAD sets TABLE_EPOCH while no lease stands and no flip is armed or seals; otherwise it changes nothing and is
  -- recorded.
  (∀ (s : State) (v : Reg), s.runs = true →
     (s.core.tbl.liveCur = 0 → s.core.tbl.livePrev = 0 →
       (s.core.tbl.shadow = .busy ∨ s.core.tbl.shadow = .opened ∨ s.core.tbl.shadow = .sealed) →
       ∃ t, exec (.epochLoad v) s = .next t ∧ Keeps s t [.io, .rsPages, .tbl] ∧
         t.core.tbl = { s.core.tbl with epoch := v, shadow := .opened }) ∧
     (¬(s.core.tbl.liveCur = 0 ∧ s.core.tbl.livePrev = 0) ∨ s.core.tbl.shadow = .sealing ∨ s.core.tbl.shadow = .armed →
       ∃ t, exec (.epochLoad v) s = .next t ∧ Keeps s t [.io, .rsPages] ∧
         ((getPage s.core pgTbl).code = 0 → (getPage t.core pgTbl).code = 0x10)))

/-- The monitor commands and the trace: control, marks, staging and writes. -/
def Obligations.CountersAndTraceWork : Prop :=
  -- SNAP copies every counter, CLEAR zeroes them, and UQ_SEL takes a context's engine time, its memory and its open issues at
  -- once.
  (∀ (s : State) (v : Reg), s.runs = true →
     (∃ t, exec .snap s = .next t ∧ Keeps s t [.io, .rsPages, .pmu] ∧ t.core.pmu = { s.core.pmu with snap := s.core.pmu.cnt }) ∧
     (∃ t, exec .clear s = .next t ∧ Keeps s t [.io, .rsPages, .pmu] ∧ t.core.pmu = { s.core.pmu with cnt := [] }) ∧
     (let x := v.toNat % 2 ^ 8
      ∃ t, exec (.uqSel v) s = .next t ∧ Keeps s t [.io, .rsRegs, .rsPages, .pmu] ∧ regCur t.core pgPmu 0x110 = v &&& 0xFF ∧
        t.core.pmu = { s.core.pmu with
          uqValid := true
          uq := [now s.core, (getCtx s.core x).engTime, (getCtx s.core x).memBytes, (getCtx s.core x).dyingBytes]
          uqOpen := [r32 (openOf s.core x 1 * 2 ^ 16 + openOf s.core x 2), r32 (openOf s.core x 3 * 2 ^ 16 + openOf s.core x 4)] })) ∧
  -- TRC_CTRL_EN starts capture only with the ring's size, base and writeback address set, and otherwise records it; TRC_MARK
  -- captures a record with the written value, if capture is on and its kind is enabled.
  (∀ (s : State) (v : Reg), s.runs = true →
     (let ok := 16 ≤ regTrcSizeLog2 s.core ∧ regTrcSizeLog2 s.core ≤ 30 ∧ regTrcBase s.core ≠ 0 ∧ regTrcWb s.core ≠ 0
      (v.getLsbD 0 = false ∨ ok →
        ∃ t, exec (.trcCtrlEn v) s = .next t ∧ Keeps s t [.io, .rsRegs, .rsPages] ∧ regTrcCtrlEn t.core = v.getLsbD 0) ∧
      (v.getLsbD 0 = true → ¬ok →
        ∃ t, exec (.trcCtrlEn v) s = .next t ∧ Keeps s t [.io, .rsRegs, .rsPages] ∧ regTrcCtrlEn t.core = false ∧
          ((getPage s.core pgTrc).code = 0 → (getPage t.core pgTrc).code = 0x11))) ∧
     (∃ t, exec (.trcMark v) s = .next t ∧ Keeps s t [.io, .rsPages, .trc] ∧
       t.core.trc.cand = s.core.trc.cand ++
         (if regTrcCtrlEn s.core = true ∧ (r32 (regTrcKinds s.core)).getLsbD 0x11 = true then
           [{ tally := now s.core, w1 := w64 (0x11 * 2 ^ 56 + dieId s.core * 2 ^ 50), a := 0, b := v }] else []))) ∧
  -- TRACE_STAGE with no record lost before it, no stop armed and room: the first four captured records in order of kind are
  -- staged with consecutive TRC_SEQ, and the rest are counted as dropped.
  (∀ s : State, s.runs = true → s.core.trc.dropped = 0 → regTrcStopArm s.core = false → s.core.trc.trig = false →
     s.core.trc.staged.length + 4 ≤ 2048 →
     ∃ t, exec .traceStage s = .next t ∧ Keeps s t [.io, .rsCnts, .trc] ∧ t.core.trc.cand = [] ∧
       (let l := (sortBy recKind s.core.trc.cand).take 4
        t.core.trc.staged = s.core.trc.staged ++
          (List.range l.length).map (fun i =>
            let r := l.getD i {}
            [r.tally, r.w1, r.a, joinReg (s.core.trc.seq + 1 + r32 i) r.b]) ∧
        t.core.trc.seq = s.core.trc.seq + r32 l.length) ∧
       t.core.trc.dropped = w64 (s.core.trc.cand.length - 4) ∧
       cntGet t.core pgTrc 0x140 = cntGet s.core pgTrc 0x140 + w64 (s.core.trc.cand.length - 4)) ∧
  -- TRACE_FLUSH writes at most eight staged records, up to the end of a 256 B unit of the ring, if the ring has room for them;
  -- TRACE_WRITE_ACK moves WPTR past them and writes it to TRC_WB, whose acknowledgement leaves the unit free again.
  (∀ s : State, s.runs = true → s.core.qsc.done = false →
     (let n := min s.core.trc.staged.length ((256 - s.core.trc.wptr.toNat % 256) / 32)
      s.core.trc.writing = none → s.core.trc.wb = 0 → n ≠ 0 → trcRoom s.core (32 * n) = true →
        ∃ t l, exec .traceFlush s = .next t ∧ Keeps s t [.io, .pmu, .trc] ∧
          t.core.trc = { s.core.trc with staged := s.core.trc.staged.drop n, writing := some (32 * n) } ∧
          t.core.io.reqs = s.core.io.reqs ++
            { op := .write, port := .mp, addr := regTrcBase s.core + s.core.trc.wptr.toNat % 2 ^ regTrcSizeLog2 s.core, part := 0,
              len := 8 * ((s.core.trc.staged.take n).flatten).length, data := (s.core.trc.staged.take n).flatten,
              tag := .trace } :: l) ∧
     (∀ r q n, ltake (fun x => decide (x.tag = .trace)) s.core.io.reqs = some (r, q) → r.op = .write →
       s.core.trc.writing = some n →
       ∃ t l, exec (.traceWriteAck .ok) s = .next t ∧ Keeps s t [.io, .rsCnts, .pmu, .trc] ∧
         t.core.trc = { s.core.trc with writing := none, wptr := s.core.trc.wptr + r32 n, wb := s.core.trc.wb + 1 } ∧
         cntGet t.core pgTrc 0x138 = cntGet s.core pgTrc 0x138 + w64 (n / 32) ∧
         t.core.io.reqs = q ++
           { op := .write, port := .mp, addr := regTrcWb s.core, part := 0, len := 8,
             data := [w64 (s.core.trc.wptr + r32 n).toNat], tag := .trace } :: l) ∧
     (∀ r q, ltake (fun x => decide (x.tag = .trace)) s.core.io.reqs = some (r, q) → r.op = .write → s.core.trc.writing = none →
       ∃ t, exec (.traceWriteAck .ok) s = .next t ∧ Keeps s t [.io, .trc] ∧
         t.core.trc = { s.core.trc with wb := s.core.trc.wb - 1 }))

/-- Halt, resume, step, shape writes, the test access port, the sync debug window and the memory self-test. -/
def Obligations.DebugAndTestWork : Prop :=
  -- HALT_REQ halts the sequencers that it names and ends a step of them; RESUME lets halted ones go on past the breakpoint
  -- that halted them, and STEP for one command. (A RESUME here finds no sequencer in a command that waits, where a full save
  -- may be owed.)
  (∀ (s : State) (v : Reg), s.runs = true →
     (∃ t, exec (.haltReq v) s = .next t ∧ Keeps s t [.io, .rsPages, .sqs] ∧
       ∀ n < 32, getSq t.core n = if v.getLsbD n = true then { getSq s.core n with halted := true, stepping := false } else getSq s.core n) ∧
     ((∀ n < 32, v.getLsbD n = true → (getSq s.core n).stall = .none) →
       ∃ t, exec (.resume v) s = .next t ∧ Keeps s t [.io, .rsPages, .sqs] ∧
         ∀ n < 32, getSq t.core n = if v.getLsbD n = true ∧ (getSq s.core n).halted = true then
           { getSq s.core n with halted := false, stepping := false, bpPass := true } else getSq s.core n) ∧
     (∃ t, exec (.step v) s = .next t ∧ Keeps s t [.io, .rsPages, .sqs] ∧
       ∀ n < 32, getSq t.core n = if v.getLsbD n = true ∧ (getSq s.core n).halted = true then
         { getSq s.core n with stepping := true } else getSq s.core n)) ∧
  -- SHAPE_WR_HI writes a shape register of a halted sequencer, with DEBUG_FORCE in effect; otherwise the operation is refused
  -- with its reason and recorded.
  (∀ (s : State) (v : Reg), s.runs = true →
     (let sq := regDbgShapeWrSelSq s.core
      (debugForce s.core = true → sqHeld s.core sq = true →
        ∃ t, exec (.shapeWrHi v) s = .next t ∧ Keeps s t [.io, .rsPages, .sqs, .dbg] ∧
          tget (getSq t.core sq).s 0 (regDbgShapeWrSelReg s.core) = joinReg s.core.dbg.shapeLo v ∧
          t.core.dbg = { s.core.dbg with done := true, refused := 0 }) ∧
      (debugForce s.core = false ∨ sqHeld s.core sq = false →
        ∃ t, exec (.shapeWrHi v) s = .next t ∧ Keeps s t [.io, .rsPages, .dbg] ∧
          t.core.dbg = { s.core.dbg with done := false, refused := if debugForce s.core = true then 2 else 1 } ∧
          ((getPage s.core pgDbg).code = 0 → (getPage t.core pgDbg).code = 0x10)))) ∧
  -- The test access port: DBG_ADDR with WRITE 0 reads a register of the map and DBG_DATA after a DBG_ADDR with WRITE 1 writes
  -- one, which needs DEBUG_FORCE; an address in no page gives an error.
  (∀ (s : State) (dr : BitVec 23) (d : BitVec 34), s.runs = true → s.core.rstReq = none →
     (dr.getLsbD 22 = true →
       ∃ t, exec (.dbgAddr dr) s = .next t ∧ Keeps s t [.io, .dbg] ∧ t.core.dbg = { s.core.dbg with tapAddr := dr }) ∧
     (∀ p off pt n, dr.toNat = regAddr p off → pageOf p = some (pt, n) → off < 0x1000 → off % 4 = 0 →
       isLo pt.ty off = false → off ≠ 0x300 → ¬(p = pgSt ∧ off = 0x160) →
       (∀ h v, (getPage s.core p).rdLatch = some (h, v) → h ≠ off) →
       ∃ t, exec (.dbgAddr dr) s = .next t ∧ Keeps s t [.io, .dbg] ∧
         t.core.dbg = { s.core.dbg with
           tapAddr := dr, tapDone := true, tapErr := false
           tapData := regNow s.rst { s.core with dbg := { s.core.dbg with tapAddr := dr } } p off }) ∧
     (dr.getLsbD 22 = false → pageOf (dr.toNat / 0x1000) = none →
       ∃ t, exec (.dbgAddr dr) s = .next t ∧ Keeps s t [.io, .dbg] ∧
         t.core.dbg = { s.core.dbg with tapAddr := dr, tapDone := true, tapErr := true, tapData := 0 }) ∧
     (∀ p off, s.core.dbg.tapAddr.toNat = 2 ^ 22 + regAddr p off → (pageOf p).isSome = true → off < 0x1000 → off % 4 = 0 →
       debugForce s.core = true → (writeReg s.core p off (d.setWidth 32)).rstReq = none →
       exec (.dbgData d) s = .next (s.act (fun c =>
         let c := writeReg c p off (d.setWidth 32)
         { c with dbg := { c.dbg with tapData := 0, tapDone := true, tapErr := false } }))) ∧
     (s.core.dbg.tapAddr.getLsbD 22 = true → debugForce s.core = false →
       ∃ t, exec (.dbgData d) s = .next t ∧ Keeps s t [.io, .rsPages, .dbg] ∧
         t.core.dbg = { s.core.dbg with done := false, refused := 3, tapData := 0, tapDone := true, tapErr := true })) ∧
  -- The debug window of the Sync Table: a read of DBG_VALUE_LO takes the value, the state and the waiters of the selected
  -- object in one moment and latches the high half of the value; a write of FORCE_VAL_HI queues a force of the joined value on
  -- a LIVE object, with DEBUG_FORCE in effect, and is refused with its reason otherwise.
  (∀ (s : State) (v : Reg), s.runs = true →
     (let h := regStDbgSelHandle s.core
      let o := getObj s.core h
      (∃ t, exec .dbgValueLo s = .next t ∧ Keeps s t [.io, .rsPages, .st] ∧
        t.core.io.out = .htpRead 0xD0160 .ok (loReg o.value) :: s.core.io.out ∧
        (getPage t.core pgSt).rdLatch = some (0x164, hiReg o.value) ∧
        t.core.st = { s.core.st with dbg := [o.value, stWord1 o, w64 (localWaiters o)] }) ∧
      (debugForce s.core = true → o.st = .live → s.core.st.fifo = [] → s.core.st.offered = [] → s.core.ras.hold = false →
        ∃ t, exec (.forceValHi v) s = .next t ∧ Keeps s t [.io, .rsPages, .st] ∧
          t.core.st = { s.core.st with forceDone := false, forceRef := 0, fifo := [.force h (joinReg s.core.st.forceLo v)] }) ∧
      (debugForce s.core = false ∨ o.st ≠ .live →
        ∃ t, exec (.forceValHi v) s = .next t ∧ Keeps s t [.io, .rsPages, .st] ∧
          t.core.st = { s.core.st with forceDone := false, forceRef := if debugForce s.core = true then 2 else 1 }))) ∧
  -- WP_MBIST in scan mode reports the failing structures and leaves the SRAM contents undefined, while what flops hold stays;
  -- outside scan mode it changes nothing.
  (∀ (s : State) (v : Reg),
     (s.pins.scan = true →
       ∃ t, exec (.wpMbist v) s = .next t ∧ t.mbist = { stat := (v &&& 0x000FFFFE) ||| 1, undef := true } ∧
         t.rst = s.rst ∧ t.pins = s.pins ∧ t.pending = s.pending ∧ (s.rst.active = true → t.core = s.core) ∧
         SameBut [.sqs, .gs, .isr, .lanes, .st, .mf, .cru, .sched, .marv, .pp, .det, .ras, .trc, .free] s.core t.core) ∧
     (s.pins.scan = false → exec (.wpMbist v) s = .next s))

/-- Injection, scrubbing, SRAM errors and the hold of a containment. -/
def Obligations.ErrorsAreCountedAndContained : Prop :=
  -- INJ arms an injection with DEBUG_FORCE in effect, and is refused and recorded otherwise; the patrol scrubber reads the
  -- next word, and counts a pass at the last one.
  (∀ (s : State) (v : Reg), s.runs = true →
     (debugForce s.core = true →
       ∃ t, exec (.inj v) s = .next t ∧ Keeps s t [.io, .rsPages, .ras] ∧
         t.core.ras = { s.core.ras with inj := s.core.ras.inj ++ [(v.toNat % 2 ^ 8, v.getLsbD 8)] }) ∧
     (debugForce s.core = false →
       ∃ t, exec (.inj v) s = .next t ∧ Keeps s t [.io, .rsPages] ∧
         ((getPage s.core pgRas).code = 0 → (getPage t.core pgRas).code = 0x10)) ∧
     (regRasCfgScrubEn s.core = true → 3 ≤ s.core.bring.stage →
       ∃ t, exec .patrolScrub s = .next t ∧ Keeps s t [.io, .rsCnts, .ras] ∧
         t.core.ras = { s.core.ras with scrub := if s.core.ras.scrub + 1 < 3145728 then s.core.ras.scrub + 1 else 0 } ∧
         cntGet t.core pgRas 0x138 = cntGet s.core pgRas 0x138 + (if s.core.ras.scrub + 1 < 3145728 then 0 else 1))) ∧
  -- SRAM errors: a corrected one is counted for its structure; an uncorrectable one is counted and sets IRQ_RAW.UE; one of a
  -- word without an owner is only recorded, and one of a LIVE context's word begins the hold of its teardown.
  (∀ (s : State) (src : BitVec 8) (owner : Nat) (loc : Reg) (syn : BitVec 8), s.runs = true → s.core.rstReq = none →
     sramSource src.toNat = true →
     (∃ t, exec (.sramCorrected src owner loc syn) s = .next t ∧
       Keeps s t [.io, .rsRegs, .rsCnts, .rsPages, .ras, .pmu, .trc] ∧
       cntGet t.core pgRas 0x110 = cntGet s.core pgRas 0x110 + 1 ∧
       tget t.core.ras.ce 0 src.toNat = tget s.core.ras.ce 0 src.toNat + 1) ∧
     (critSram src.toNat = false → maskSram s.core src.toNat owner loc.toNat = none → sramOwner s.core src.toNat owner = none →
       ∃ t, exec (.sramUncorrectable src owner loc syn) s = .next t ∧
         Keeps s t [.io, .rsRegs, .rsCnts, .rsPages, .gs, .ras, .trc] ∧
         cntGet t.core pgRas 0x118 = cntGet s.core pgRas 0x118 + 1 ∧
         (getPage t.core pgRas).irqRaw.getLsbD 2 = true ∧
         t.core.ras.ue = tmod s.core.ras.ue 0 src.toNat (· + 1) ∧ t.core.ras.hold = s.core.ras.hold) ∧
     (∀ o, critSram src.toNat = false → maskSram s.core src.toNat owner loc.toNat = none → sramOwner s.core src.toNat owner = some o →
       s.core.ras.hold = false → s.core.ras.queue = [] → (getCtx s.core o.ctx).st = .live →
       ∃ t, exec (.sramUncorrectable src owner loc syn) s = .next t ∧
         Keeps s t [.io, .rsRegs, .rsCnts, .rsPages, .fe, .gs, .ras, .pmu] ∧
         t.core.ras.hold = true ∧ t.core.ras.stepped = false ∧ t.core.ras.holdAt = s.core.tclk ∧
         t.core.ras.queue.map (·.ctx) = [o.ctx] ∧ t.core.ras.ue = tmod s.core.ras.ue 0 src.toNat (· + 1))) ∧
  -- CONTAINMENT_HOLD_END: once the first step of a teardown is done and no other teardown waits, the hold ends, its length is
  -- kept, and the units go on.
  (∀ (s : State) (k : Contain), s.runs = true → s.core.ras.hold = true → s.core.ras.stepped = true → s.core.ras.queue = [k] →
     ∃ t, exec .containmentHoldEnd s = .next t ∧ t.core.ras.hold = false ∧ t.core.ras.stepped = false ∧ t.core.ras.queue = [] ∧
       t.core.ras.lastHold = r32 (min (s.core.tclk - s.core.ras.holdAt) 0xFFFFFFFF) ∧
       Keeps s t [.io, .rsRegs, .rsCnts, .rsPages, .qsc, .fe, .queues, .ctxs, .sqs, .isr, .de, .lanes, .st, .mf, .cru, .sched, .tu, .shr,
         .strm, .pp, .det, .ras, .pmu, .trc, .dbg, .free])

/-- Ring entries are fetched, decoded, checked and answered. -/
def Obligations.TheRingIsFetchedDecodedAndAnswered : Prop :=
  -- RING_FETCH_DONE: the entries read become the FE's batch, in ring order; a failed fetch stops decoding with RING_STOP and
  -- is recorded.
  (∀ (s : State) (st : QStatus) (data : List Word) (r : Req) (c : Core) (i n : Nat), s.runs = true →
     takeReq s.core .ringFetch = some (r, c) → s.core.fe.fetch = some (i, n) →
     (st = .ok →
       ∃ t, exec (.ringFetchDone st data) s = .next t ∧ t.core.fe.fetch = none ∧
         t.core.fe.batch = (List.range n).map (fun k =>
           { index := (i + k) % 2 ^ 32, w := (List.range 8).map (fun j => wat data (8 * k + j)) }) ∧
         (n ≠ 0 → (∀ e ∈ t.core.fe.batch, entryHandles e = []) → t.core.fe.batchReady = true)) ∧
     (st ≠ .ok →
       ∃ t, exec (.ringFetchDone st data) s = .next t ∧ t.core.fe.ringStop = true ∧ t.core.fe.decoding = false ∧
         t.core.fe.batch = [] ∧ (getPage t.core pgFe).irqRaw.getLsbD 2 = true ∧
         ((getPage s.core pgFe).code = 0 → (getPage t.core pgFe).code = 0x13 ∧ (getPage t.core pgFe).infoLo = r32 i))) ∧
  -- An entry with a reserved bit set, and one of an opcode that the table does not list, is consumed and answered BAD_ENTRY; a
  -- NOP is answered OK.
  (∀ (s : State) (op : Nat) (e : Entry) (rest : List Entry) (i : Instr), s.runs = true → FeDecodes s.core op e rest →
     (op = 0 ∧ i = .ringNop ∨ op = 1 ∧ i = .submit ∨ op = 2 ∧ i = .queueCreate ∨ op = 3 ∧ i = .queueDestroy ∨
       op = 4 ∧ i = .queueReset ∨ op = 0x10 ∧ i = .ctxCreate ∨ op = 0x11 ∧ i = .ctxDestroy ∨ op = 0x12 ∧ i = .objCreate ∨
       op = 0x13 ∧ i = .objFree ∨ op = 0x14 ∧ i = .syncCreate ∨ op = 0x15 ∧ i = .rxqCreate ∨ op = 0x16 ∧ i = .slotFree ∨
       op = 0x17 ∧ i = .partTeardown ∨ op = 0x18 ∧ i = .graphLoad ∨ op = 0x19 ∧ i = .graphPatch ∨ op = 0x1A ∧ i = .graphUnload ∨
       entryMask op = none ∧ i = .ringNop) →
     (entryOk e.w = false →
       ∃ t, exec i s = .next t ∧
         Answered s.core t.core e 1 0 (if op = 1 then wat e.w 3 else 0) (if op = 1 then bytesAt e.w 20 4 else 0)) ∧
     (op = 0 → entryOk e.w = true → ∃ t, exec i s = .next t ∧ Answered s.core t.core e 0)) ∧
  -- SUBMIT: the checks are made in their order and the first that fails is answered; an accepted submission waits at the end
  -- of its queue with what its entry says, an IDLE queue is READY, SUBMIT_CNT counts it, and a reference is taken on an object
  -- that it lists.
  (∀ (s : State) (e : Entry) (rest : List Entry), s.runs = true → FeDecodes s.core 1 e rest → entryOk e.w = true →
     let h := hdrOf e
     let c := consume s.core e rest
     (∀ st, submitCheck c h e.w = some st →
       ∃ t, exec .submit s = .next t ∧ Answered s.core t.core e st 0 (wat e.w 3) (bytesAt e.w 20 4)) ∧
     (submitCheck c h e.w = none →
       ∃ t, exec .submit s = .next t ∧ Answered s.core t.core e 0 0 (wat e.w 3) (bytesAt e.w 20 4) ∧
         cntGet t.core pgFe 0x140 = cntGet s.core pgFe 0x140 + 1 ∧
         (∃ x, (getQ t.core h.queue).wait.getLast? = some x ∧ x.progAddr = (wat e.w 1).toNat ∧ x.progWords = bytesAt e.w 16 2 ∧
           x.patchCount = byteAt e.w 18 ∧ x.patchAddr = (wat e.w 4).toNat ∧ x.objs = submitObjs e.w ∧ x.seq = wat e.w 3 ∧
           x.cookie = bytesAt e.w 20 4 ∧ x.int = wbit (wat e.w 0) 8) ∧
         (getQ t.core h.queue).wait.length = (getQ s.core h.queue).wait.length + 1 ∧
         ((getSq s.core (getQ s.core h.queue).sq).q = none → (getQ s.core h.queue).st = .idle →
           (getQ t.core h.queue).st = .ready) ∧
         (∀ n x w, submitObjs e.w = [n] → tfind s.core.fe.ot (n / 8) = some x → x.w = some w → w.length = 32 →
           otEntry t.core n = (otEntry s.core n).map (fun o => otWith o (wf (wat o 2) 0 8) (otRefs o + 1)))))

/-- QUEUE_CREATE, QUEUE_DESTROY and QUEUE_RESET. -/
def Obligations.QueuesAreMadeResetAndDestroyed : Prop :=
  -- QUEUE_CREATE sets the slot from its entry and writes INIT_SEQ; the write's acknowledgement moves the queue to IDLE and
  -- answers the entry, if its context is still LIVE.
  ((∀ (s : State) (e : Entry) (rest : List Entry), s.runs = true → FeDecodes s.core 2 e rest → entryOk e.w = true →
     let h := hdrOf e
     let c := consume s.core e rest
     (∀ st, createCheck c h e.w = some st → ∃ t, exec .queueCreate s = .next t ∧ Answered s.core t.core e st) ∧
     (createCheck c h e.w = none →
       ∃ t, exec .queueCreate s = .next t ∧ regFeRingHead t.core = (r32 (e.index + 1)).toNat ∧ t.core.fe.busy = true ∧
         getQ t.core h.queue = { ctx := h.ctx, sq := wf (wat e.w 2) 0 5, prio := wf (wat e.w 0) 40 3, cplAddr := (wat e.w 1).toNat,
                                 timeout := clampUs (bytesAt e.w 20 4), creating := some h } ∧
         (∃ q, (q ∈ t.core.io.reqs ∨ q ∈ t.core.io.heldReqs) ∧ q.op = .write ∧ q.tag = .initSeq h.queue ∧
           q.addr = (wat e.w 1).toNat ∧ q.data = [wat e.w 3]))) ∧
   (∀ (s : State) (q : Fin 512) (st : QStatus) (r : Req) (c : Core) (h : Hdr), s.runs = true →
     takeReq s.core (.initSeq q.val) = some (r, c) → (getQ s.core q.val).creating = some h →
     ∃ t, exec (.initSeqWriteAck q st) s = .next t ∧ t.core.fe.busy = false ∧
       ((getCtx s.core h.ctx).st = .live →
         getQ t.core q.val = { getQ s.core q.val with st := .idle, lastSeq := wat r.data 0, creating := none } ∧
         Recorded s.core t.core { kind := h.op, tag := h.tag, index := h.index, queue := h.queue, ctx := h.ctx }) ∧
       ((getCtx s.core h.ctx).st ≠ .live →
         getQ t.core q.val = {} ∧
         Recorded s.core t.core { kind := h.op, status := 0x11, tag := h.tag, index := h.index, queue := h.queue, ctx := h.ctx }) ∧
       (st ≠ .ok → (getPage s.core pgFe).code = 0 → (getPage t.core pgFe).code = 0x11))) ∧
  -- QUEUE_DESTROY of a queue of the entry's context moves it to DESTROYING, without the submissions that wait; once nothing of
  -- it is left to complete, its slot is FREE and the entry's record gives the numbers discarded and aborted. A queue that
  -- cannot be destroyed is answered with the status that says why.
  ((∀ (s : State) (e : Entry) (rest : List Entry), s.runs = true → FeDecodes s.core 3 e rest → entryOk e.w = true →
     let h := hdrOf e
     let x := getQ s.core h.queue
     (x.st = .free ∨ x.ctx ≠ h.ctx ∨ x.st = .destroying →
       ∃ t, exec .queueDestroy s = .next t ∧
         Answered s.core t.core e (if x.st = .free then 2 else if x.ctx ≠ h.ctx then 8 else 5)) ∧
     (x.st ≠ .free → x.ctx = h.ctx → x.st ≠ .destroying →
       ∃ t, exec .queueDestroy s = .next t ∧ regFeRingHead t.core = (r32 (e.index + 1)).toNat ∧
         (getQ t.core h.queue).st = .destroying ∧ (getQ t.core h.queue).destroyHdr = some h ∧ (getQ t.core h.queue).wait = [] ∧
         (getQ t.core h.queue).nDiscard = x.wait.length ∧ (getQ t.core h.queue).held = false)) ∧
   (∀ (s : State) (q : Fin 512), s.runs = true → destroyDue s.core q.val = true → queueInsts s.core q.val = [] →
     let x := getQ s.core q.val
     ∃ t, exec (.queueDestroyDone q) s = .next t ∧ getQ t.core q.val = {} ∧
       (∀ h, x.destroyHdr = some h → Recorded s.core t.core
         { kind := h.op, tag := h.tag, index := h.index, queue := h.queue, ctx := h.ctx, detail := detail2 x.nDiscard x.nAbort }) ∧
       (x.destroyHdr = none → s.core.fe.waiting = [] → respFree s.core ≠ 0 → Recorded s.core t.core
         { kind := 0x81, index := 0xFFFFFFFF, queue := q.val, ctx := x.ctx, detail := detail2 x.nDiscard x.nAbort }))) ∧
  -- QUEUE_RESET of a GUILTY queue that is held: the fault is cleared, and the queue continues with its parked program or its
  -- next submission; asked to discard, what waits is dropped first. Any other queue is answered with the status that says why.
  (∀ (s : State) (e : Entry) (rest : List Entry), s.runs = true → FeDecodes s.core 4 e rest → entryOk e.w = true →
     let h := hdrOf e
     let x := getQ s.core h.queue
     (¬(x.st = .guilty ∧ x.held = true) ∨ x.ctx ≠ h.ctx →
       ∃ t, exec .queueReset s = .next t ∧
         Answered s.core t.core e (if x.st = .free then 2 else if x.ctx ≠ h.ctx then 8 else if x.st = .destroying then 5 else 0x0D)) ∧
     (x.st = .guilty → x.held = true → x.ctx = h.ctx →
       ∃ t, exec .queueReset s = .next t ∧ Answered s.core t.core e 0 ∧ (getQ t.core h.queue).held = false ∧
         (getQ t.core h.queue).fSource = 0 ∧ (getQ t.core h.queue).fCode = 0 ∧ (getQ t.core h.queue).parked = false ∧
         (getQ t.core h.queue).wait = (if wbit (wat e.w 0) 8 then [] else x.wait) ∧
         (x.parked = false → (getQ t.core h.queue).st = (if (getQ t.core h.queue).wait = [] then .idle else .ready)) ∧
         (x.parked = true → (getQ t.core h.queue).st = .running ∨ (getQ t.core h.queue).st = .blocked)))

/-- CTX_CREATE, CTX_DESTROY, PART_TEARDOWN and the steps of a teardown. -/
def Obligations.ContextsAreMadeAndTornDown : Prop :=
  -- CTX_CREATE makes its context LIVE with the next generation and its save area, or, at the wrap of the generation, begins to
  -- rewrite the Object Table. CTX_DESTROY calls for the teardown of a LIVE context, joins one that is under way, and frees a
  -- DEAD one at once. Each entry that fails a check is answered with its status.
  ((∀ (s : State) (e : Entry) (rest : List Entry), s.runs = true → FeDecodes s.core 0x10 e rest → entryOk e.w = true →
     let h := hdrOf e
     let p := wf (wat e.w 0) 40 4
     (∀ st, ctxCheck s.core h e.w = some st → ∃ t, exec .ctxCreate s = .next t ∧ Answered s.core t.core e st) ∧
     (ctxCheck s.core h e.w = none → (getCtx s.core h.ctx).gen ≠ 0xFFFFFFFF →
       ∃ t, exec .ctxCreate s = .next t ∧ Answered s.core t.core e 0 ∧
         getCtx t.core h.ctx = { st := .live, part := p, gen := (getCtx s.core h.ctx).gen + 1, saveSize := wat e.w 2,
                                 saveAddr := w64 (regPartCarveBase s.core p + regPartSaveOff s.core p + (wat e.w 1).toNat) }) ∧
     (ctxCheck s.core h e.w = none → (getCtx s.core h.ctx).gen = 0xFFFFFFFF → otWords s.core 0 = none →
       ∃ t, exec .ctxCreate s = .next t ∧ regFeRingHead t.core = (r32 (e.index + 1)).toNat ∧ t.core.fe.busy = true ∧
         t.core.fe.wrap = some (h, e.w, 0) ∧ (tfind t.core.fe.ot 0).isSome = true)) ∧
   (∀ (s : State) (e : Entry) (rest : List Entry), s.runs = true → FeDecodes s.core 0x11 e rest → entryOk e.w = true →
     let h := hdrOf e
     let x := getCtx s.core h.ctx
     (x.st = .free → ∃ t, exec .ctxDestroy s = .next t ∧ Answered s.core t.core e 3) ∧
     (x.st = .live → s.core.ras.queue = [] →
       ∃ t, exec .ctxDestroy s = .next t ∧ regFeRingHead t.core = (r32 (e.index + 1)).toNat ∧ t.core.fe.busy = true ∧
         (getCtx t.core h.ctx).called = true ∧ t.core.ras.hold = true ∧
         t.core.ras.queue = [{ ctx := h.ctx, cause := 1, hdr := some h }]) ∧
     (x.st = .teardown →
       ∃ t, exec .ctxDestroy s = .next t ∧ getCtx t.core h.ctx = { x with cause := 1, hdrs := x.hdrs ++ [h] }) ∧
     (x.st = .dead →
       ∃ t, exec .ctxDestroy s = .next t ∧ Answered s.core t.core e 0 (w64 ((freeSlots s.core h.ctx).2 % 2 ^ 16 * 2 ^ 16)) ∧
         (getCtx t.core h.ctx).st = .free ∧ (getCtx t.core h.ctx).gen = x.gen))) ∧
  -- TEARDOWN_START: in its hold, a LIVE context moves to TEARDOWN and each of its queues to DESTROYING. TEARDOWN_END: with no
  -- hold and no queue left, a context that an entry tears down is FREE and its entry answered; one that a fault tears down is
  -- DEAD, and the record says so.
  ((∀ (s : State) (k : Contain) (l : List Contain), s.runs = true → s.core.ras.queue = k :: l → s.core.ras.hold = true →
     s.core.ras.stepped = false → (getCtx s.core k.ctx).st = .live →
     ∃ t, exec .teardownStart s = .next t ∧ (getCtx t.core k.ctx).st = .teardown ∧ t.core.ras.stepped = true ∧
       (s.core.st.fifo = [] → ∀ q, (getQ s.core q).st ≠ .free → (getQ s.core q).ctx = k.ctx →
         (getQ t.core q).st = .destroying)) ∧
   (∀ (s : State) (x : Fin 256), s.runs = true → (getCtx s.core x.val).st = .teardown → s.core.ras.hold = false →
     s.core.queues.any (fun e => e.2.st != .free && e.2.ctx == x.val) = false → s.core.gs.imgs = [] → s.core.gs.ops = [] →
     s.core.fe.partTd = [] →
     let y := getCtx s.core x.val
     (y.cause = 1 ∨ y.cause = 2 →
       ∃ t, exec (.teardownEnd x) s = .next t ∧ (getCtx t.core x.val).st = .free ∧ (getCtx t.core x.val).gen = y.gen ∧
         (∀ h, y.hdrs = [h] → Recorded s.core t.core
           { kind := h.op, tag := h.tag, index := h.index, queue := h.queue, ctx := h.ctx, detail := tearDetail y })) ∧
     (y.cause ≠ 1 → y.cause ≠ 2 →
       ∃ t, exec (.teardownEnd x) s = .next t ∧ (getCtx t.core x.val).st = .dead ∧
         (getPage t.core (pgCtx x.val)).irqRaw.getLsbD 2 = true ∧
         (s.core.fe.waiting = [] → respFree s.core ≠ 0 →
           Recorded s.core t.core { kind := 0x83, index := 0xFFFFFFFF, ctx := x.val, detail := tearDetail y })))) ∧
  -- PART_TEARDOWN of a partition that is off is answered PART_OFF; it calls for the teardown of every LIVE context of the
  -- partition, joins each that is under way and frees each DEAD one; with none of them left it is answered at once.
  (∀ (s : State) (e : Entry) (rest : List Entry), s.runs = true → FeDecodes s.core 0x17 e rest → entryOk e.w = true →
     let p := wf (wat e.w 0) 40 4
     (regPartCtrlEn s.core p = false → ∃ t, exec .partTeardown s = .next t ∧ Answered s.core t.core e 0x0E) ∧
     (regPartCtrlEn s.core p = true → s.core.ras.queue = [] →
       ∃ t, exec .partTeardown s = .next t ∧ regFeRingHead t.core = (r32 (e.index + 1)).toNat ∧
         (∀ x, x < 256 → (getCtx s.core x).part = p →
           ((getCtx s.core x).st = .live → (getCtx t.core x).called = true ∧ (getCtx t.core x).st = .live) ∧
           ((getCtx s.core x).st = .teardown →
             getCtx t.core x = { getCtx s.core x with cause := joinCause (getCtx s.core x).cause 2 }) ∧
           ((getCtx s.core x).st = .dead → (getCtx t.core x).st = .free)) ∧
         ((∀ x, x < 256 → (getCtx s.core x).part = p → (getCtx s.core x).st = .free) → s.core.fe.partTd = [] →
           Answered s.core t.core e 0)))

/-- OBJ_CREATE, OBJ_FREE and the accesses to the Object Table. -/
def Obligations.ObjectsAreMadeFreedAndKept : Prop :=
  -- OBJ_CREATE writes a LIVE entry of its context's partition and generation, without references, into its Object Table block;
  -- OBJ_FREE makes an unreferenced object FREE at once, and a referenced one DYING. Each entry that fails a check is answered
  -- with its status.
  ((∀ (s : State) (e : Entry) (rest : List Entry) (m : OtImg) (w : List Word), s.runs = true → FeDecodes s.core 0x12 e rest →
     entryOk e.w = true → tfind s.core.fe.ot (bytesAt e.w 8 2 / 8) = some m → m.w = some w → w.length = 32 →
     let h := hdrOf e
     let x := getCtx s.core h.ctx
     (∀ st, objCheck s.core h e.w = some st → ∃ t, exec .objCreate s = .next t ∧ Answered s.core t.core e st) ∧
     (objCheck s.core h e.w = none →
       ∃ t, exec .objCreate s = .next t ∧ Answered s.core t.core e 0 ∧
         otEntry t.core (bytesAt e.w 8 2) =
           some (otMake (wat e.w 2).toNat (wat e.w 3).toNat 1 h.ctx x.part 0 x.gen.toNat 0) ∧
         getCtx t.core h.ctx = { x with objLive := x.objLive + 1 })) ∧
   (∀ (s : State) (e : Entry) (rest : List Entry) (m : OtImg) (w : List Word), s.runs = true → FeDecodes s.core 0x13 e rest →
     entryOk e.w = true → tfind s.core.fe.ot (bytesAt e.w 8 2 / 8) = some m → m.w = some w → w.length = 32 →
     let h := hdrOf e
     let n := bytesAt e.w 8 2
     (∀ st, liveCheck s.core h.ctx = some st → ∃ t, exec .objFree s = .next t ∧ Answered s.core t.core e st) ∧
     (liveCheck s.core h.ctx = none → objSeen s.core h.ctx n ≠ 1 →
       ∃ t, exec .objFree s = .next t ∧ Answered s.core t.core e (if objSeen s.core h.ctx n = 2 then 0x0A else 9)) ∧
     (∀ o, liveCheck s.core h.ctx = none → objSeen s.core h.ctx n = 1 → otEntry s.core n = some o →
       ∃ t, exec .objFree s = .next t ∧ Answered s.core t.core e 0 (w64 (otRefs o)) ∧
         otEntry t.core n = some (if otRefs o = 0 then otWith o 0 0
           else [wat o 0, wat o 1, wat (otWith o 2 (otRefs o)) 2, w64 (otGen o + h.index * 2 ^ 32)]) ∧
         (getCtx t.core h.ctx).objLive = (getCtx s.core h.ctx).objLive - 1 ∧
         (otRefs o ≠ 0 → (getCtx t.core h.ctx).objDying = (getCtx s.core h.ctx).objDying + 1)))) ∧
  -- OT_READ_DONE brings a block's words into its image, and answers the query that waits for it; a failed read is recorded and
  -- its image given up. OT_WRITE_ACK counts the bytes of what the write created and freed, and posts OBJ_GONE; a failed write
  -- makes the table suspect.
  ((∀ (s : State) (b : Fin 8192) (st : QStatus) (data : List Word) (r : Req) (c : Core) (x : OtImg), s.runs = true →
     takeReq s.core (.otRead b.val) = some (r, c) → tfind s.core.fe.ot b.val = some x → s.core.fe.wrap = none → s.core.fe.rels = [] →
     (st = .ok → x.batch = true →
       ∃ t, exec (.otReadDone b st data) s = .next t ∧ otWords t.core b.val = some ((List.range 32).map (wat data))) ∧
     (∀ h, st = .ok → s.core.fe.querying = some h → h / 8 = b.val →
       ∃ t, exec (.otReadDone b st data) s = .next t ∧ t.core.fe.querying = none ∧
         (getPage t.core pgObj).irqRaw.getLsbD 2 = true ∧
         let e := (((List.range 32).map (wat data)).drop (4 * (h % 8))).take 4
         t.core.fe.query = some [w64 (otState s.core e), w64 (otOwner e), w64 (wf (wat e 2) 16 4), w64 (otRefs e), w64 (otBase e),
           w64 (otSize e), w64 (otGen e)]) ∧
     (st ≠ .ok →
       ∃ t, exec (.otReadDone b st data) s = .next t ∧ tfind t.core.fe.ot b.val = none ∧
         ((getPage s.core pgObj).code = 0 →
           (getPage t.core pgObj).code = 0x11 ∧ (getPage t.core pgObj).infoLo = r32 (8 * b.val)) ∧
         (x.batch = true → s.core.fe.batch ≠ [] → s.core.fe.batchReady = false →
           t.core.fe.ringStop = true ∧ t.core.fe.batch = []))) ∧
   (∀ (s : State) (b : Fin 8192) (st : QStatus) (r : Req) (c : Core) (x : OtImg), s.runs = true →
     takeReq s.core (.otWrite b.val) = some (r, c) → tfind s.core.fe.ot b.val = some x →
     ∃ t, exec (.otWriteAck b st) s = .next t ∧
       (st ≠ .ok → t.core.fe.suspect = true ∧ ((getPage s.core pgObj).code = 0 → (getPage t.core pgObj).code = 0x10)) ∧
       (∀ k n, x.owed = [.created k n] → s.core.fe.wrap = none →
         (getCtx t.core k).memBytes = (getCtx s.core k).memBytes + w64 n) ∧
       (∀ k n, x.owed = [.freed k n] → s.core.fe.wrap = none →
         (getCtx t.core k).memBytes = (getCtx s.core k).memBytes - w64 n) ∧
       (∀ k n, x.owed = [.dying k n] → s.core.fe.wrap = none →
         (getCtx t.core k).dyingBytes = (getCtx s.core k).dyingBytes + w64 n) ∧
       (∀ k n h i, x.owed = [.gone k n h i] → st = .ok → s.core.fe.wrap = none →
         (getCtx t.core k).memBytes = (getCtx s.core k).memBytes - w64 n ∧
         (getCtx t.core k).dyingBytes = (getCtx s.core k).dyingBytes - w64 n ∧
         (s.core.fe.waiting = [] → respFree s.core ≠ 0 →
           Recorded s.core t.core { kind := 0x82, index := i, ctx := k, detail := w64 h }))))

/-- SYNC_CREATE and the SLOT_FREE of a sync object are offered to the ST as one operation each, and the FE waits for it;
RXQ_CREATE makes a LIVE receive queue, and its SLOT_FREE closes it; once it is quiet it is FREE, and the entry is answered. Each
entry that fails a check is answered with its status. -/
def Obligations.SlotsAreMadeAndFreed : Prop :=
  (∀ (s : State) (e : Entry) (rest : List Entry), s.runs = true → FeDecodes s.core 0x14 e rest → entryOk e.w = true →
    let h := hdrOf e
    let n := bytesAt e.w 8 2
    let bad := match liveCheck s.core h.ctx with
      | some st => some st
      | none => if newSync h e.w = none then some 0x0C else if (getObj s.core n).st ≠ .free then some 0x0F else none
    (∀ st, bad = some st → ∃ t, exec .syncCreate s = .next t ∧ Answered s.core t.core e st) ∧
    (∀ o, bad = none → newSync h e.w = some o →
      ∃ t, exec .syncCreate s = .next t ∧ regFeRingHead t.core = (r32 (e.index + 1)).toNat ∧ t.core.fe.busy = true ∧
        StOp.create h n o ∈ t.core.st.fifo ++ t.core.st.offered)) ∧
  (∀ (s : State) (e : Entry) (rest : List Entry), s.runs = true → FeDecodes s.core 0x15 e rest → entryOk e.w = true →
    let h := hdrOf e
    let n := wf (wat e.w 1) 0 12
    let base := (wat e.w 2).toNat
    let len := bytesAt e.w 24 4
    let bad := match liveCheck s.core h.ctx with
      | some st => some st
      | none =>
        if 2 < byteAt e.w 5 ∨ base % 256 ≠ 0 ∨ len % 256 ≠ 0 ∨ len < 4096 ∨ 2 ^ 26 < len then some 0x0C
        else if inCarve s.core h.ctx base len = false then some 0x10
        else if (getRxq s.core n).st ≠ .free then some 0x0F else none
    (∀ st, bad = some st → ∃ t, exec .rxqCreate s = .next t ∧ Answered s.core t.core e st) ∧
    (bad = none →
      ∃ t, exec .rxqCreate s = .next t ∧ Answered s.core t.core e 0 ∧
        getRxq t.core n = { st := .live, access := byteAt e.w 5, owner := h.ctx, base := base, bytes := len })) ∧
  (∀ (s : State) (e : Entry) (rest : List Entry), s.runs = true → FeDecodes s.core 0x16 e rest → entryOk e.w = true →
    let h := hdrOf e
    let n := bytesAt e.w 8 2
    let mine := match byteAt e.w 5 with
      | 1 => decide ((getObj s.core n).st = .live ∧ (getObj s.core n).owner = h.ctx)
      | _ => decide ((getRxq s.core n).st = .live ∧ (getRxq s.core n).owner = h.ctx)
    (∀ st, liveCheck s.core h.ctx = some st → ∃ t, exec .slotFree s = .next t ∧ Answered s.core t.core e st) ∧
    (liveCheck s.core h.ctx = none → byteAt e.w 5 ≠ 1 → byteAt e.w 5 ≠ 2 →
      ∃ t, exec .slotFree s = .next t ∧ Answered s.core t.core e 0x0C) ∧
    (liveCheck s.core h.ctx = none → byteAt e.w 5 = 1 ∨ byteAt e.w 5 = 2 → mine = false →
      ∃ t, exec .slotFree s = .next t ∧ Answered s.core t.core e 9) ∧
    (liveCheck s.core h.ctx = none → byteAt e.w 5 = 1 → mine = true →
      ∃ t, exec .slotFree s = .next t ∧ t.core.fe.busy = true ∧ StOp.freeSlot h n ∈ t.core.st.fifo ++ t.core.st.offered) ∧
    (liveCheck s.core h.ctx = none → byteAt e.w 5 = 2 → mine = true →
      ∃ t, exec .slotFree s = .next t ∧ getRxq t.core n = { getRxq s.core n with st := .closing, freeHdr := some h })) ∧
  (∀ (s : State) (n : Fin 4096), s.runs = true → (getRxq s.core n.val).st = .closing → rxQuiet (getRxq s.core n.val) = true →
    ∃ t, exec (.rxqClosed n) s = .next t ∧ getRxq t.core n.val = {} ∧
      (∀ h, (getRxq s.core n.val).freeHdr = some h → (∀ k, (getSq s.core k).stall = .none) → Recorded s.core t.core
        { kind := h.op, tag := h.tag, index := h.index, queue := h.queue, ctx := h.ctx }))

/-- GRAPH_LOAD, GRAPH_PATCH and GRAPH_UNLOAD: with nothing queued before it, a load makes its graph LOADING, takes a reference
on the object and reads the header, and one whose header is misplaced is answered GRAPH_BAD; a patch reads its list; and an
unload frees a graph whose versions no instance uses at once, or leaves it UNLOADING. Each entry that fails a check is answered
with its status. -/
def Obligations.GraphEntriesBeginTheirOperations : Prop :=
  (∀ (s : State) (e : Entry) (rest : List Entry), s.runs = true → FeDecodes s.core 0x18 e rest → entryOk e.w = true →
    let h := hdrOf e
    let g := wf (wat e.w 1) 0 12
    let n := bytesAt e.w 10 2
    let a := (wat e.w 2).toNat
    let bad := match liveCheck s.core h.ctx with
      | some st => some st
      | none => if (getImg s.core g).st ≠ .free then some 0x15 else if objSeen s.core h.ctx n ≠ 1 then some 9
        else if 1 < byteAt e.w 5 then some 0x0C else none
    let o := (otEntry s.core n).getD []
    (∀ st, bad = some st → ∃ t, exec .graphLoad s = .next t ∧ Answered s.core t.core e st) ∧
    (bad = none → s.core.gs.ops = [] → hasReq s.core (.pgi g) = false →
      (a % 256 = 0 ∧ otBase o ≤ a ∧ a + 256 ≤ otBase o + otSize o →
        ∃ t, exec .graphLoad s = .next t ∧ regFeRingHead t.core = (r32 (e.index + 1)).toNat ∧
          getImg t.core g = { st := .loading, owner := h.ctx, access := byteAt e.w 5, obj := n } ∧
          t.core.gs.ops = [{ hdr := h, graph := g, access := byteAt e.w 5, obj := n, objBase := otBase o, objSize := otSize o
                             addr := a }] ∧
          (∃ q, (q ∈ t.core.io.reqs ∨ q ∈ t.core.io.heldReqs) ∧ q.op = .read ∧ q.port = .mp ∧ q.addr = a ∧ q.len = 256 ∧
            q.part = (getCtx s.core h.ctx).part ∧ q.tag = .pgi g)) ∧
      (¬(a % 256 = 0 ∧ otBase o ≤ a ∧ a + 256 ≤ otBase o + otSize o) →
        ∃ t, exec .graphLoad s = .next t ∧ Answered s.core t.core e 0x14 4 ∧ getImg t.core g = {} ∧ t.core.gs.ops = []))) ∧
  (∀ (s : State) (e : Entry) (rest : List Entry), s.runs = true → FeDecodes s.core 0x19 e rest → entryOk e.w = true →
    let h := hdrOf e
    let g := wf (wat e.w 1) 0 12
    let a := (wat e.w 2).toNat
    let n := bytesAt e.w 24 2
    let bad := match liveCheck s.core h.ctx with
      | some st => some st
      | none => if graphMine s.core g h.ctx = false then some 0x18 else if a % 256 ≠ 0 ∨ n = 0 ∨ 1024 < n then some 0x0C
        else if inCarve s.core h.ctx a (64 * n) = false then some 0x10 else none
    (∀ st, bad = some st → ∃ t, exec .graphPatch s = .next t ∧ Answered s.core t.core e st) ∧
    (bad = none → s.core.gs.ops = [] → hasReq s.core (.pgi g) = false →
      ∃ t, exec .graphPatch s = .next t ∧ regFeRingHead t.core = (r32 (e.index + 1)).toNat ∧
        t.core.gs.ops = [{ hdr := h, load := false, graph := g, addr := a, count := n }] ∧
        (∃ q, (q ∈ t.core.io.reqs ∨ q ∈ t.core.io.heldReqs) ∧ q.op = .read ∧ q.port = .mp ∧ q.addr = a ∧ q.len = 64 * n ∧
          q.tag = .pgi g))) ∧
  (∀ (s : State) (e : Entry) (rest : List Entry), s.runs = true → FeDecodes s.core 0x1A e rest → entryOk e.w = true →
    let h := hdrOf e
    let g := wf (wat e.w 1) 0 12
    (∀ st, (liveCheck s.core h.ctx = some st ∨ liveCheck s.core h.ctx = none ∧ graphMine s.core g h.ctx = false ∧ st = 0x18) →
      ∃ t, exec .graphUnload s = .next t ∧ Answered s.core t.core e st) ∧
    (liveCheck s.core h.ctx = none → graphMine s.core g h.ctx = true → ((getImg s.core g).versions.map (·.num)).Nodup →
      ∃ t, exec .graphUnload s = .next t ∧ regFeRingHead t.core = (r32 (e.index + 1)).toNat ∧
        ((∀ v ∈ (getImg s.core g).versions, v.insts = 0) → getImg t.core g = {}) ∧
        (∀ v ∈ (getImg s.core g).versions, v.insts ≠ 0 → (getImg t.core g).st = .unloading ∧
          (getImg t.core g).unload = some h ∧ v.num ∈ (getImg t.core g).versions.map (·.num))))

/-- GRAPH_LOAD_DONE and GRAPH_PATCH_COMMIT, for the one operation queued: a failed read ends it with its record; a header that
passes its checks is kept and the task table read; with the last table in, the first check that fails is answered, and a graph
that passes is LOADED with version 1. A patch list whose entries all keep the rules is followed by the read of the cost table,
and then the next version is made current, unless the graph has as many as it may. -/
def Obligations.GraphOperationsComplete : Prop :=
  (∀ (s : State) (st : QStatus) (data : List Word) (o : GsOp) (r : Req) (c : Core), s.runs = true → s.core.gs.ops = [o] →
    o.load = true → takeReq s.core (.pgi o.graph) = some (r, c) → hasReq c (.pgi o.graph) = false →
    let ended (t : State) (status : Nat) (detail : Word) := Recorded s.core t.core
      { kind := o.hdr.op, status := status, tag := o.hdr.tag, index := o.hdr.index, ctx := o.hdr.ctx, detail := detail }
    let hd := (List.range 32).map (wat data)
    (st ≠ .ok →
      ∃ t, exec (.graphLoadDone st data) s = .next t ∧ t.core.gs.ops = [] ∧ getImg t.core o.graph = {} ∧ ended t 0x17 0) ∧
    (∀ reason, st = .ok → o.head = [] → headBad o hd = some reason →
      ∃ t, exec (.graphLoadDone st data) s = .next t ∧ t.core.gs.ops = [] ∧ getImg t.core o.graph = {} ∧
        ended t 0x14 (w64 reason)) ∧
    (st = .ok → o.head = [] → headBad o hd = none →
      ∃ t, exec (.graphLoadDone st data) s = .next t ∧ t.core.gs.ops = [{ o with head := hd }] ∧
        (∃ q, (q ∈ t.core.io.reqs ∨ q ∈ t.core.io.heldReqs) ∧ q.op = .read ∧ q.tag = .pgi o.graph ∧ q.addr = o.addr + pgOff hd 0 ∧
          q.len = 32 * pgTasks hd)) ∧
    (∀ k, st = .ok → o.head ≠ [] → nextTable o.head (o.head.length - 32) = some k →
      let all := o.head ++ (List.range ((pgWords o.head).getD k 0)).map (wat data)
      nextTable all (all.length - 32) = none →
      let o' := { o with head := all.take 32 }
      (∀ reason, tablesBad s.core o' o'.head (all.drop 32) = some reason →
        ∃ t, exec (.graphLoadDone st data) s = .next t ∧ getImg t.core o.graph = {} ∧ ended t 0x14 (w64 reason)) ∧
      (tablesBad s.core o' o'.head (all.drop 32) = none →
        (takeRoom s.core (2 + (pgTasks o'.head + 59) / 60) (pgEdges o'.head / 64)).isSome = true → o.gone = false →
        ∃ t, exec (.graphLoadDone st data) s = .next t ∧ t.core.gs.ops = [] ∧ (getImg t.core o.graph).st = .loaded ∧
          (getImg t.core o.graph).cur = 1 ∧ (getImg t.core o.graph).owner = (getImg s.core o.graph).owner ∧
          cntGet t.core pgGs 0x120 = cntGet s.core pgGs 0x120 + 1 ∧
          ended t 0 (w64 (1 + (2 + (pgTasks o'.head + 59) / 60) * 2 ^ 16))))) ∧
  (∀ (s : State) (st : QStatus) (data : List Word) (o : GsOp) (r : Req) (c : Core), s.runs = true → s.core.gs.ops = [o] →
    o.load = false → takeReq s.core (.pgi o.graph) = some (r, c) → hasReq c (.pgi o.graph) = false →
    graphMine s.core o.graph o.hdr.ctx = true →
    let ended (t : State) (status : Nat) (detail : Word) := Recorded s.core t.core
      { kind := o.hdr.op, status := status, tag := o.hdr.tag, index := o.hdr.index, ctx := o.hdr.ctx, detail := detail }
    let x := getImg s.core o.graph
    let l := (List.range (8 * o.count)).map (wat data)
    let keeps := (List.range o.count).all (patchRecOk s.core o (curVersion s.core o.graph) l)
    (st ≠ .ok →
      ∃ t, exec (.graphPatchCommit st data) s = .next t ∧ t.core.gs.ops = [] ∧ ended t 0x17 0 ∧ getImg t.core o.graph = x) ∧
    (st = .ok → o.head = [] → keeps = false →
      ∃ t, exec (.graphPatchCommit st data) s = .next t ∧ t.core.gs.ops = [] ∧ ended t 0x16 0 ∧ getImg t.core o.graph = x) ∧
    (st = .ok → o.head = [] → keeps = true → o.count ≠ 0 →
      ∃ t, exec (.graphPatchCommit st data) s = .next t ∧ t.core.gs.ops = [{ o with head := l }] ∧
        (∃ q, (q ∈ t.core.io.reqs ∨ q ∈ t.core.io.heldReqs) ∧ q.op = .read ∧ q.tag = .pgi o.graph ∧
          q.addr = x.pgiAddr + x.costOff ∧ q.len = 64 + 8 * x.costs)) ∧
    (st = .ok → o.head ≠ [] → max 1 (regGsCfgVersionLimit s.core) ≤ x.versions.length →
      ∃ t, exec (.graphPatchCommit st data) s = .next t ∧ t.core.gs.ops = [] ∧ ended t 0x13 0 ∧ getImg t.core o.graph = x) ∧
    (let touched := ((List.range o.count).map (fun i => ptTask o.head i / 60)).dedup
     st = .ok → o.head ≠ [] → x.versions.length < max 1 (regGsCfgVersionLimit s.core) →
      (takeRoom s.core (1 + touched.length) 0).isSome = true →
      ∃ t, exec (.graphPatchCommit st data) s = .next t ∧ t.core.gs.ops = [] ∧ (getImg t.core o.graph).cur = nextVersion x ∧
        (getImg t.core o.graph).st = .loaded ∧ cntGet t.core pgGs 0x128 = cntGet s.core pgGs 0x128 + 1 ∧
        ended t 0 (w64 (nextVersion x + (1 + touched.length) * 2 ^ 16))))

/-- A program comes to run in three steps: the fetch of its words and patch list returns into its submission; the FE gives the
free sequencer to the queue that it chooses; and the program of the queue's first submission starts, if it is READY in the
cache, or is fetched first, or faults its queue with the code of the failed fetch. -/
def Obligations.ProgramsAreFetchedGrantedAndStarted : Prop :=
  (∀ (s : State) (sub q : Nat) (list : Bool) (st : QStatus) (data : List Word) (r : Req) (c : Core), s.runs = true →
    takeReq s.core (if list then .patchList sub else .prog sub) = some (r, c) → waitQueue s.core sub = some q →
    (∀ x ∈ (getQ s.core q).wait, x.sid = sub → x.fetch = .fetching) →
    ∃ t, exec (.programFetchDone sub list st data) s = .next t ∧
      (∀ x ∈ (getQ s.core q).wait, x.sid = sub → fetchReturned list st data x ∈ (getQ t.core q).wait) ∧
      (∀ x ∈ (getQ s.core q).wait, x.sid = sub → list = false → st = .ok → x.patchCount = 0 → 0 < x.progWords →
        x.patch = none → { x with words := (List.range x.progWords).map (wat data), fetch := .ready } ∈ (getQ t.core q).wait)) ∧
  (∀ (s : State) (n : Fin 32) (q p : Nat), s.runs = true → mayStart s.core = true → (getSq s.core n.val).q = none →
    sqHeld s.core n.val = false → chooseQueue (prefetch s.core n.val) n.val = some (q, p) → (getQ s.core q).st = .ready →
    ∃ t, exec (.arbitrate n) s = .next t ∧ (getSq t.core n.val).q = some q ∧ rotOf t.core n.val p = q) ∧
  (∀ (s : State) (n : Fin 32) (q : Nat) (x : Sub) (rest : List Sub), s.runs = true → mayStart s.core = true →
    (getSq s.core n.val).q = some q → sqHeld s.core n.val = false → (getQ s.core q).st = .ready → (getQ s.core q).wait = x :: rest →
    (x.fetch = .ready →
      ∃ t, exec (.programStart n) s = .next t ∧ (getQ t.core q).st = .running ∧ (getQ t.core q).cur = some x.sid ∧
        (getSq t.core n.val).q = some q ∧ (getSq t.core n.val).words = x.words ∧ (getSq t.core n.val).pc = 0 ∧
        (getSq t.core n.val).s = startShapes x ∧ (getSq t.core n.val).steps = 0 ∧
        cntGet t.core (pgSq n.val) 0x128 = cntGet s.core (pgSq n.val) 0x128 + 1) ∧
    (x.fetch = .none →
      ∃ t, exec (.programStart n) s = .next t ∧ (getQ t.core q).st = .ready ∧
        (∀ y ∈ (getQ t.core q).wait, y.sid = x.sid → y.fetch = .fetching) ∧
        (∃ r, (r ∈ t.core.io.reqs ∨ r ∈ t.core.io.heldReqs) ∧ r.op = .read ∧ r.tag = .prog x.sid ∧ r.addr = x.progAddr ∧
          r.len = 8 * x.progWords)) ∧
    (∀ code, startFault x.fetch = some code → regFeqQCfgPolicy s.core (q / 32) (q % 32) = true →
      ∃ t, exec (.programStart n) s = .next t ∧ (getQ t.core q).st = .guilty ∧ (getQ t.core q).fSource = 1 ∧
        (getQ t.core q).fCode = code))

/-- A faulty command, a timeout and an instance fault make their queue guilty. -/
def Obligations.QueuesFault : Prop :=
  -- PROGRESS_TIMEOUT and QUEUE_FAULT: a queue that holds its faults is GUILTY with the source and the code of the fault, its
  -- program is stopped, and FEQ_FAULT and the page's interrupt say so.
  ((∀ (s : State) (q : Fin 512) (sid : Nat), s.runs = true → (getQ s.core q.val).cur = some sid →
     (getQ s.core q.val).st = .running ∨ (getQ s.core q.val).st = .blocked →
     passedUs s.core (getQ s.core q.val).progAt (getQ s.core q.val).timeout = true →
     regFeqQCfgPolicy s.core (q.val / 32) (q.val % 32) = true →
     ∃ t, exec (.progressTimeout q) s = .next t ∧ (getQ t.core q.val).st = .guilty ∧ (getQ t.core q.val).fSource = 1 ∧
       (getQ t.core q.val).fCode = 1 ∧ (getQ t.core q.val).fWord = (getSq s.core (getQ s.core q.val).sq).pc ∧
       (getPage t.core (pgFeq q.val)).irqRaw.getLsbD 2 = true) ∧
   (∀ (s : State) (q : Fin 512) (source : BitVec 4) (code : BitVec 8) (word : BitVec 16), s.runs = true →
     let x := getQ s.core q.val
     (x.cur.isSome = true ∨ x.subs ++ x.wait ≠ []) → x.st ≠ .free → x.st ≠ .destroying → x.st ≠ .guilty →
     regFeqQCfgPolicy s.core (q.val / 32) (q.val % 32) = true →
     ∃ t, exec (.queueFault q source code word) s = .next t ∧ (getQ t.core q.val).st = .guilty ∧
       (getQ t.core q.val).fSource = source.toNat ∧ (getQ t.core q.val).fCode = code.toNat ∧
       (getQ t.core q.val).fWord = word.toNat ∧ (getPage t.core (pgFeq q.val)).irqRaw.getLsbD 2 = true ∧
       (x.sq < 32 → (getSq t.core x.sq).q ≠ some q.val))) ∧
  -- A command whose word fails a check before it takes effect, and a word whose opcode is not listed, make their queue GUILTY
  -- with source 2, the code of the first check that fails and the PC.
  (∀ (s : State) (n : Fin 32) (op q code : Nat) (w : Word) (i : Instr), s.runs = true → SqBegins s.core n.val op q w →
     headFault s.core n.val = some code → HoldsFaults s.core q →
     (op = 0x01 ∧ i = .halt n ∨ op = 0x02 ∧ i = .fenceOut n ∨ op = 0x03 ∧ i = .timeoutSet n ∨ op = 0x04 ∧ i = .preemptPoint n ∨
       op = 0x05 ∧ i = .nop n ∨ op = 0x10 ∧ i = .launch n ∨ op = 0x11 ∧ i = .launchAt n ∨ op = 0x20 ∧ i = .wait n ∨
       op = 0x21 ∧ i = .signal n ∨ op = 0x22 ∧ i = .add n ∨ op = 0x30 ∧ i = .patch n ∨ op = 0x31 ∧ i = .ldshape n ∨
       op = 0x32 ∧ i = .stshape n ∨ op = 0x33 ∧ i = .sop n ∨ op = 0x38 ∧ i = .jump n ∨ op = 0x39 ∧ i = .branch n ∨
       op = 0x40 ∧ i = .route n ∨ op = 0x41 ∧ i = .mix n ∨ op = 0x42 ∧ i = .streamArm n ∨ op = 0x48 ∧ i = .select n ∨
       op = 0x49 ∧ i = .send n ∨ listedBits op = none ∧ i = .badOpcode n) →
     ∃ t, exec i s = .next t ∧ Guilty t.core q 2 code (getSq s.core n.val).pc ∧
       (getPage t.core (pgSq n.val)).irqRaw.getLsbD 2 = true ∧ (listedBits op = none → code = 1))

/-- COMPLETION_WRITE_ACK: Q_LAST_SEQ takes the completed SEQ, an enabled interrupt is raised, and the next completion of the
queue is written; a failed write is recorded and leaves Q_LAST_SEQ. INTMSG_ACK, RESPONSE_WRITE_ACK and HEAD_WB_ACK take their
requests back, and record one that failed; COOKIE_NOTIFY posts the record of a fence that is due. -/
def Obligations.CompletionsAreAcknowledged : Prop :=
  (∀ (s : State) (q : Fin 512) (st : QStatus) (r : Req) (c : Core) (x : Cpl) (l : List Cpl), s.runs = true →
    takeReq s.core (.cpl q.val) = some (r, c) → (getQ s.core q.val).cpls = x :: l →
    ∃ t, exec (.completionWriteAck q st) s = .next t ∧
      getQ t.core q.val = { getQ s.core q.val with cpls := l, lastSeq := if st = .ok then x.seq else (getQ s.core q.val).lastSeq } ∧
      (st = .ok → cntGet t.core pgFe 0x150 = cntGet s.core pgFe 0x150 + 1) ∧
      (st = .ok → x.int = true → regFeqQCfgIntEn s.core (q.val / 32) (q.val % 32) = true →
        ∃ m, (m ∈ t.core.io.reqs ∨ m ∈ t.core.io.heldReqs) ∧ m.op = .intmsg ∧
          m.addr = regFeqQCfgVector s.core (q.val / 32) (q.val % 32) ∧ m.data = [w64 x.cookie]) ∧
      (st ≠ .ok → (getPage s.core pgFe).code = 0 →
        (getPage t.core pgFe).code = 0x11 ∧ (getPage t.core pgFe).infoLo = r32 q.val) ∧
      (∀ y l', l = y :: l' → ∃ m, (m ∈ t.core.io.reqs ∨ m ∈ t.core.io.heldReqs) ∧ m.op = .write ∧ m.tag = .cpl q.val ∧
        m.addr = (getQ s.core q.val).cplAddr ∧ m.data = [y.seq])) ∧
  (∀ (s : State) (n : Nat) (r : Req), s.runs = true → (s.core.io.reqs.filter (fun (r : Req) => r.op == .intmsg))[n]? = some r →
    (∃ t, exec (.intmsgAck n .ok) s = .next t ∧ Keeps s t [.io] ∧ t.core.io.reqs = s.core.io.reqs.erase r) ∧
    (∀ st, st ≠ .ok → ∃ t, exec (.intmsgAck n st) s = .next t ∧ t.core.io.reqs = s.core.io.reqs.erase r ∧
      t.core.ras = (logErr s.core { kind := 7, source := pageTy pgFe, vec := r.addr, info := (wat r.data 0).toNat }).ras)) ∧
  (∀ (s : State) (h : Nat) (l : List Nat), s.runs = true → s.core.st.notify = h :: l →
    ∃ t, exec .cookieNotify s = .next t ∧ t.core.st.notify = l ∧ (getObj t.core h).npend = false ∧
      ((getObj s.core h).st = .live → s.core.fe.waiting = [] → respFree s.core ≠ 0 →
        Recorded s.core t.core { kind := 0x84, index := 0xFFFFFFFF, seq := (getObj s.core h).value, cookie := (getObj s.core h).cookie,
                                 ctx := (getObj s.core h).owner, detail := w64 h })) ∧
  (∀ (s : State) (idx : Nat) (st : QStatus) (r : Req) (c : Core), s.runs = true → takeReq s.core (.resp idx) = some (r, c) →
    ∃ t, exec (.responseWriteAck idx st) s = .next t ∧ tfind t.core.fe.last idx = none ∧
      (st ≠ .ok → (getPage s.core pgFe).code = 0 →
        (getPage t.core pgFe).code = 0x11 ∧ (getPage t.core pgFe).infoLo = r32 idx) ∧
      (∀ k, st = .ok → tfind s.core.fe.last idx = some k → regStCtrlCookieIrq s.core = true →
        ∃ m, (m ∈ t.core.io.reqs ∨ m ∈ t.core.io.heldReqs) ∧ m.op = .intmsg ∧ m.addr = regStCtrlCookieVec s.core ∧
          m.data = [w64 k])) ∧
  (∀ (s : State) (st : QStatus) (r : Req) (c : Core), s.runs = true → takeReq s.core .headWb = some (r, c) →
    ∃ t, exec (.headWbAck st) s = .next t ∧ (st = .ok → Keeps s t [.io, .pmu]) ∧
      (st ≠ .ok → (getPage s.core pgFe).code = 0 → (getPage t.core pgFe).code = 0x12))

/-- Commands that need no other unit take effect and move on; launches are offered. -/
def Obligations.PlainCommandsMoveOn : Prop :=
  -- NOP, JUMP, BRANCH, SOP, PATCH and TIMEOUT_SET have their effect on the shape registers, the staging block, the queue's
  -- timeout or the PC, and the program goes on inside its words; a division by zero and a timeout out of range fault.
  (∀ (s : State) (n : Fin 32) (op q : Nat) (w : Word), s.runs = true → SqBegins s.core n.val op q w → headFault s.core n.val = none →
     let x := getSq s.core n.val
     let a := srcOperand x.s w
     (op = 0x05 → x.pc + 1 < x.words.length → ∃ t, exec (.nop n) s = .next t ∧ MovesTo s.core t.core n.val (x.pc + 1) ∧
       (getSq t.core n.val).s = x.s ∧ (getSq t.core n.val).steps = x.steps + (if x.counted then 0 else 1) ∧
       cntGet t.core (pgSq n.val) 0x130 = cntGet s.core (pgSq n.val) 0x130 + (if x.counted then 0 else 1)) ∧
     (op = 0x38 → ∃ t, exec (.jump n) s = .next t ∧ MovesTo s.core t.core n.val (wf w 0 11)) ∧
     (op = 0x39 → branchCond (wf w 51 3) (tget x.s 0 (wf w 47 4)) (a 32) = true →
       ∃ t, exec (.branch n) s = .next t ∧ MovesTo s.core t.core n.val (wf w 32 11)) ∧
     (op = 0x39 → branchCond (wf w 51 3) (tget x.s 0 (wf w 47 4)) (a 32) = false → x.pc + 1 < x.words.length →
       ∃ t, exec (.branch n) s = .next t ∧ MovesTo s.core t.core n.val (x.pc + 1)) ∧
     (∀ v, op = 0x33 → sopValue (wf w 50 4) (tget x.s 0 (wf w 42 4)) (a 32) = some v → x.pc + 1 < x.words.length →
       ∃ t, exec (.sop n) s = .next t ∧ MovesTo s.core t.core n.val (x.pc + 1) ∧
         (∀ r, tget (getSq t.core n.val).s 0 r = if r = wf w 46 4 then v else tget x.s 0 r)) ∧
     (op = 0x33 → sopValue (wf w 50 4) (tget x.s 0 (wf w 42 4)) (a 32) = none → HoldsFaults s.core q →
       ∃ t, exec (.sop n) s = .next t ∧ Guilty t.core q 2 7 x.pc) ∧
     (op = 0x30 → x.pc + 1 < x.words.length → ∃ t, exec (.patch n) s = .next t ∧ MovesTo s.core t.core n.val (x.pc + 1) ∧
       (∀ r, tget (getSq t.core n.val).staging 0 r = if r = wf w 48 6 then a 48 else tget x.staging 0 r)) ∧
     (op = 0x03 → (a 26).toNat ≤ 60000000 → x.pc + 1 < x.words.length →
       ∃ t, exec (.timeoutSet n) s = .next t ∧ MovesTo s.core t.core n.val (x.pc + 1) ∧
         regCur t.core (pgFeq q) (0x104 + 0x40 * (q % 32)) = r32 (clampUs (a 26).toNat)) ∧
     (op = 0x03 → 60000000 < (a 26).toNat → HoldsFaults s.core q →
       ∃ t, exec (.timeoutSet n) s = .next t ∧ Guilty t.core q 2 3 x.pc)) ∧
  -- LAUNCH and LAUNCH_AT offer a launch of a loaded graph to the DE, behind those offered before, and wait; one of a graph
  -- that the program may not launch faults.
  (∀ (s : State) (n : Fin 32) (q : Nat) (w : Word), s.runs = true →
     let x := getSq s.core n.val
     let w1 := wat x.words (x.pc + 1)
     let bad := badGraph s.core (wf w 40 12) (wf w 24 16) (getQ s.core q).ctx
     let room := s.core.isr.offers.any (·.room)
     (SqBegins s.core n.val 0x10 q w → headFault s.core n.val = none → bad = false →
       ∃ t, exec (.launch n) s = .next t ∧ (getSq t.core n.val).stall = .launch ∧
         t.core.isr = { s.core.isr with offers := s.core.isr.offers ++ [
           { sq := n.val, graph := wf w 40 12, ver := wf w 24 16, dl := wf w 0 24, chain := wbit w 54, room := room }] }) ∧
     (SqBegins s.core n.val 0x11 q w → headFault s.core n.val = none → bad = false →
       ∃ t, exec (.launchAt n) s = .next t ∧ (getSq t.core n.val).stall = .launch ∧
         t.core.isr = { s.core.isr with offers := s.core.isr.offers ++ [
           { sq := n.val, graph := wf w 40 12, ver := wf w 24 16, dl := wf w 0 24, chain := wbit w 54, sync := wbit w 53
             at_ := some (if wbit w 52 then tget x.s 0 (wf w1 0 4) else w1), room := room }] }) ∧
     (headFault s.core n.val = none → bad = true → HoldsFaults s.core q →
       (SqBegins s.core n.val 0x10 q w → ∃ t, exec (.launch n) s = .next t ∧ Guilty t.core q 2 9 x.pc) ∧
       (SqBegins s.core n.val 0x11 q w → ∃ t, exec (.launchAt n) s = .next t ∧ Guilty t.core q 2 9 x.pc)))

/-- HALT ends the program without a completion; FENCE_OUT hands its SEQ over and ends it, at once or, asked to drain, when every
instance that the program launched has retired; PREEMPT_POINT goes on where no demand stands, records a held credit, and
otherwise preempts its queue behind the point. -/
def Obligations.ProgramsEndAndArePreempted : Prop :=
  ∀ (s : State) (n : Fin 32) (q : Nat) (w : Word), s.runs = true →
    let x := getSq s.core n.val
    let ended (t : State) := (getSq t.core n.val).q = none ∧ (getQ t.core q).cur = none ∧
      (getQ t.core q).st = (if (getQ s.core q).wait = [] then .idle else .ready)
    (SqBegins s.core n.val 0x01 q w → headFault s.core n.val = none →
      ∃ t, exec (.halt n) s = .next t ∧ ended t ∧ (getQ t.core q).cpls = (getQ s.core q).cpls) ∧
    (∀ sid sub, SqBegins s.core n.val 0x02 q w ∧ headFault s.core n.val = none ∧ (wbit w 54 = false ∨ drained s.core q = true) ∨
        x.q = some q ∧ x.stall = .drain ∧ sqRuns s.core n.val = true ∧ drained s.core q = true →
      (getQ s.core q).cur = some sid → findSub s.core q sid = some sub →
      ∃ t, exec (.fenceOut n) s = .next t ∧ ended t ∧
        (getQ t.core q).cpls = (getQ s.core q).cpls ++ [{ seq := sub.seq, cookie := sub.cookie, int := sub.int }] ∧
        ((getQ s.core q).cpls = [] → Made t.core (fun r => r.op = .write ∧ r.tag = .cpl q ∧ r.addr = (getQ s.core q).cplAddr ∧
          r.data = [sub.seq]))) ∧
    (SqBegins s.core n.val 0x02 q w → headFault s.core n.val = none → wbit w 54 = true → drained s.core q = false →
      ∃ t, exec (.fenceOut n) s = .next t ∧ (getSq t.core n.val).stall = .drain ∧ (getSq t.core n.val).pc = x.pc) ∧
    (SqBegins s.core n.val 0x04 q w → headFault s.core n.val = none → x.pc + 1 < x.words.length →
      let credit := holdsCredit s.core q
      let demand := demandOn s.core q && !x.halted
      (credit = true → ∃ t, exec (.preemptPoint n) s = .next t ∧ MovesTo s.core t.core n.val (x.pc + 1) ∧
        ((getPage s.core (pgSq n.val)).code = 0 → (getPage t.core (pgSq n.val)).code = 0x10)) ∧
      (credit = false → demand = false → ∃ t, exec (.preemptPoint n) s = .next t ∧ MovesTo s.core t.core n.val (x.pc + 1) ∧
        (getQ t.core q).pointLate = false) ∧
      (credit = false → demand = true → mateInPhase s.core q = true →
        ∃ t, exec (.preemptPoint n) s = .next t ∧ MovesTo s.core t.core n.val (x.pc + 1) ∧
          cntGet t.core pgSched 0x180 = cntGet s.core pgSched 0x180 + 1) ∧
      (∀ sets, credit = false → demand = true → mateInPhase s.core q = false →
        pointSets s.core q n.val (wf w 0 16) = .ok sets →
        ∃ t, exec (.preemptPoint n) s = .next t ∧ (getQ t.core q).st = .preempted ∧ (getSq t.core n.val).pc = x.pc + 1 ∧
          (getPre t.core q).phase = .draining ∧ (getPre t.core q).sets = sets ∧
          cntGet t.core pgSched 0x168 = cntGet s.core pgSched 0x168 + 1))

/-- LDSHAPE and STSHAPE move shape registers from and to the scratch at once, and from and to device memory by a read or write
whose answer completes the command or faults it; an operand out of range or outside the carve-out faults. -/
def Obligations.ShapesAreLoadedAndStored : Prop :=
  ∀ (s : State) (n : Fin 32) (q : Nat) (w : Word), s.runs = true →
    let x := getSq s.core n.val
    let first := wf w 49 4
    let k := wf w 45 4 + 1
    (∀ idx, SqBegins s.core n.val 0x31 q w → headFault s.core n.val = none → shapePlace s.core n.val q w = .scratch idx →
      x.pc + 1 < x.words.length →
      ∃ t, exec (.ldshape n) s = .next t ∧ MovesTo s.core t.core n.val (x.pc + 1) ∧
        (∀ r, tget (getSq t.core n.val).s 0 r =
          if first ≤ r ∧ r < first + k then tget x.scratch 0 (idx + (r - first)) else tget x.s 0 r)) ∧
    (∀ a, SqBegins s.core n.val 0x31 q w → headFault s.core n.val = none → shapePlace s.core n.val q w = .device a →
      ∃ t, exec (.ldshape n) s = .next t ∧ (getSq t.core n.val).stall = .ldshape first k ∧
        Made t.core (fun r => r.op = .read ∧ r.port = .mp ∧ r.tag = .shapeRd n.val ∧ r.addr = a ∧ r.len = 256)) ∧
    (∀ idx, SqBegins s.core n.val 0x32 q w → headFault s.core n.val = none → shapePlace s.core n.val q w = .scratch idx →
      x.pc + 1 < x.words.length →
      ∃ t, exec (.stshape n) s = .next t ∧ MovesTo s.core t.core n.val (x.pc + 1) ∧
        (∀ r, tget (getSq t.core n.val).scratch 0 r =
          if idx ≤ r ∧ r < idx + k then tget x.s 0 (first + (r - idx)) else tget x.scratch 0 r)) ∧
    (∀ a, SqBegins s.core n.val 0x32 q w → headFault s.core n.val = none → shapePlace s.core n.val q w = .device a →
      ∃ t, exec (.stshape n) s = .next t ∧ (getSq t.core n.val).stall = .stshape ∧
        Made t.core (fun r => r.op = .write ∧ r.port = .mp ∧ r.tag = .shapeWr n.val ∧ r.addr = a ∧
          r.data = (List.range k).map (fun i => tget x.s 0 (first + i)))) ∧
    (∀ code, HoldsFaults s.core q → headFault s.core n.val = none → shapePlace s.core n.val q w = .bad code →
      (SqBegins s.core n.val 0x31 q w → ∃ t, exec (.ldshape n) s = .next t ∧ Guilty t.core q 2 code x.pc) ∧
      (SqBegins s.core n.val 0x32 q w → ∃ t, exec (.stshape n) s = .next t ∧ Guilty t.core q 2 code x.pc)) ∧
    (∀ f m st data r c, takeReq s.core (.shapeRd n.val) = some (r, c) → hasReq c (.shapeRd n.val) = false →
      x.q = some q → x.stall = .ldshape f m → f + m ≤ 16 → x.pc + headLen s.core n.val < x.words.length →
      (st = .ok → ∃ t, exec (.ldshapeData n st data) s = .next t ∧
        MovesTo s.core t.core n.val (x.pc + headLen s.core n.val) ∧
        (∀ i, tget (getSq t.core n.val).s 0 i = if f ≤ i ∧ i < f + m then wat data (i - f) else tget x.s 0 i)) ∧
      (st ≠ .ok → HoldsFaults s.core q → (getQ s.core q).st = .running →
        ∃ t, exec (.ldshapeData n st data) s = .next t ∧ Guilty t.core q 2 0x0E x.pc)) ∧
    (∀ st r c, takeReq s.core (.shapeWr n.val) = some (r, c) → hasReq c (.shapeWr n.val) = false →
      x.q = some q → x.stall = .stshape → x.pc + headLen s.core n.val < x.words.length →
      (st = .ok → ∃ t, exec (.stshapeAck n st) s = .next t ∧
        MovesTo s.core t.core n.val (x.pc + headLen s.core n.val) ∧ (getSq t.core n.val).s = x.s) ∧
      (st ≠ .ok → HoldsFaults s.core q → (getQ s.core q).st = .running →
        ∃ t, exec (.stshapeAck n st) s = .next t ∧ Guilty t.core q 2 0x0E x.pc))

/-- WAIT registers its condition and waits: on an object with the ST, or with the die that holds it; on a count of the Tally
with an alarm; on the current instance until it has retired. A due alarm releases the wait on the Tally, and a remote wait whose
retry is due is sent again. SIGNAL and ADD are offered to the ST, or to the link of the die that holds the object: they move on
once it accepts their frame. -/
def Obligations.WaitsAndSignalsAreOffered : Prop :=
  ∀ (s : State) (n : Fin 32) (q : Nat) (w : Word), s.runs = true →
    let x := getSq s.core n.val
    let h := wf w 32 16
    let v := srcOperand x.s w 26
    (SqBegins s.core n.val 0x20 q w → headFault s.core n.val = none → (getQ s.core q).pointLate = false →
      (wf w 50 3 = 0 → remoteDie s.core (wbit w 53) (wf w 26 6) = .ok none →
        ∃ t, exec (.wait n) s = .next t ∧ (getSq t.core n.val).stall = .waitObj h v ∧
          StOp.wait n.val q h v ∈ t.core.st.fifo ++ t.core.st.offered) ∧
      (∀ die, wf w 50 3 = 0 → remoteDie s.core (wbit w 53) (wf w 26 6) = .ok (some die) →
        ∃ t, exec (.wait n) s = .next t ∧ (getSq t.core n.val).stall = .waitRemote die h v false) ∧
      (∀ code, wf w 50 3 = 0 ∧ remoteDie s.core (wbit w 53) (wf w 26 6) = .error code ∨
          wf w 50 3 = 3 ∧ x.inst = none ∧ code = 8 → HoldsFaults s.core q →
        ∃ t, exec (.wait n) s = .next t ∧ Guilty t.core q 2 code x.pc) ∧
      (wf w 50 3 = 1 ∨ wf w 50 3 = 2 →
        let at_ := if wf w 50 3 = 1 then v else now s.core + w64 (wf w 0 26 * 1000)
        ∃ t, exec (.wait n) s = .next t ∧ (getSq t.core n.val).stall = .waitTally at_ ∧
          (∃ a ∈ t.core.tu.cmps.map (·.2) ++ t.core.tu.wait ++ t.core.tu.due, alarmIs 3 n.val a = true ∧ a.at_ = at_)) ∧
      (∀ r, wf w 50 3 = 3 → x.inst = some r →
        (instLive s.core r = true → ∃ t, exec (.wait n) s = .next t ∧ (getSq t.core n.val).stall = .waitInst r.1) ∧
        (instLive s.core r = false → x.pc + 1 < x.words.length →
          ∃ t, exec (.wait n) s = .next t ∧ MovesTo s.core t.core n.val (x.pc + 1)))) ∧
    (∀ i r, x.stall = .waitInst i → x.inst = some r → sqRuns s.core n.val = true → instLive s.core r = false →
      x.pc + headLen s.core n.val < x.words.length →
      ∃ t, exec (.wait n) s = .next t ∧ MovesTo s.core t.core n.val (x.pc + headLen s.core n.val)) ∧
    (∀ at_ a l, x.stall = .waitTally at_ → sqRuns s.core n.val = true → ltake (alarmIs 3 n.val) s.core.tu.due = some (a, l) →
      x.pc + headLen s.core n.val < x.words.length →
      ∃ t, exec (.tallyWaitRelease n) s = .next t ∧ MovesTo s.core t.core n.val (x.pc + headLen s.core n.val) ∧
        cntGet t.core pgTu 0x130 = cntGet s.core pgTu 0x130 + 1) ∧
    (∀ die u y, x.q = some q → x.stall = .waitRemote die u y true → mayStart s.core = true →
      (linkUpTo s.core die = true →
        ∃ t, exec (.remoteWaitRetry n) s = .next t ∧ (getSq t.core n.val).stall = .waitRemote die u y false) ∧
      (linkUpTo s.core die = false → HoldsFaults s.core q → (getQ s.core q).st = .blocked →
        ∃ t, exec (.remoteWaitRetry n) s = .next t ∧ Guilty t.core q 2 0x0F x.pc)) ∧
    (headFault s.core n.val = none → remoteDie s.core (wbit w 53) (wf w 26 6) = .ok none →
      (SqBegins s.core n.val 0x21 q w →
        ∃ t, exec (.signal n) s = .next t ∧ (getSq t.core n.val).stall = .sig ∧
          StOp.signal (.cmd n.val q) h v ∈ t.core.st.fifo ++ t.core.st.offered) ∧
      (SqBegins s.core n.val 0x22 q w →
        ∃ t, exec (.add n) s = .next t ∧ (getSq t.core n.val).stall = .sig ∧
          StOp.add (.cmd n.val q) h v ∈ t.core.st.fifo ++ t.core.st.offered)) ∧
    (∀ (die k : Nat) (i : Instr), headFault s.core n.val = none → remoteDie s.core (wbit w 53) (wf w 26 6) = .ok (some die) →
      s.core.pp.accepted = [] → SqBegins s.core n.val 0x21 q w ∧ k = 0 ∧ i = .signal n ∨ SqBegins s.core n.val 0x22 q w ∧ k = 1 ∧ i = .add n →
      ((getPeer s.core die).held = [] → linkRoom s.core die 1 = true → x.pc + 1 < x.words.length →
        ∃ t, exec i s = .next t ∧ MovesTo s.core t.core n.val (x.pc + 1)) ∧
      ((getPeer s.core die).held ≠ [] →
        ∃ t, exec i s = .next t ∧ (getSq t.core n.val).stall = .sig ∧
          (getPeer t.core die).held = (getPeer s.core die).held ++ [(.sq n.val, [frSyncOp k 1 h 0 q v])])) ∧
    (∀ code, headFault s.core n.val = none → remoteDie s.core (wbit w 53) (wf w 26 6) = .error code → HoldsFaults s.core q →
      (SqBegins s.core n.val 0x21 q w → ∃ t, exec (.signal n) s = .next t ∧ Guilty t.core q 2 code x.pc) ∧
      (SqBegins s.core n.val 0x22 q w → ∃ t, exec (.add n) s = .next t ∧ Guilty t.core q 2 code x.pc))

/-- SELECT takes a record; SEND is answered and retried. -/
def Obligations.MessagesAreSelectedAndSent : Prop :=
  -- SELECT releases the record taken before, takes the record of the queue that it picks and shows it in its register, or,
  -- without one, writes all ones or waits until one has come.
  (∀ (s : State) (n : Fin 32) (q : Nat) (w : Word), s.runs = true →
     let x := getSq s.core n.val
     let took (t : State) (c : Core) (base i dst : Nat) (r : RingRec) :=
       (getSq t.core n.val).taken = some (base + i, r.n) ∧ headRec (getRxq c (base + i)).recs = some r ∧
       tget (getSq t.core n.val).s 0 dst =
         w64 (base + i + wf (wat r.words 1) 46 2 * 2 ^ 12 + wf (wat r.words 1) 48 16 * 2 ^ 16 + r.off * 2 ^ 32) ∧
       MovesTo s.core t.core n.val (x.pc + headLen s.core n.val)
     (SqBegins s.core n.val 0x48 q w → headFault s.core n.val = none → x.pc + 1 < x.words.length →
       let base := wf w 29 12
       let mask := wf w 41 8
       let dst := wf w 49 4
       let c := rxGiveBack s.core n.val
       (∀ code, selFault s.core (getQ s.core q).ctx (selQueues base mask) = some code → HoldsFaults s.core q →
         ∃ t, exec (.select n) s = .next t ∧ Guilty t.core q 2 code x.pc) ∧
       (∀ i r, selFault s.core (getQ s.core q).ctx (selQueues base mask) = none →
         selPick c base mask (wbit w 54) x.rot = some i → headRec (getRxq c (base + i)).recs = some r →
         ∃ t, exec (.select n) s = .next t ∧ took t c base i dst r) ∧
       (selFault s.core (getQ s.core q).ctx (selQueues base mask) = none → selPick c base mask (wbit w 54) x.rot = none →
         (wbit w 53 = true → ∃ t, exec (.select n) s = .next t ∧ MovesTo s.core t.core n.val (x.pc + 1) ∧
           tget (getSq t.core n.val).s 0 dst = w64 (2 ^ 64 - 1) ∧ (getSq t.core n.val).taken = none) ∧
         (wbit w 53 = false → (getQ s.core q).pointLate = false →
           ∃ t, exec (.select n) s = .next t ∧ (getSq t.core n.val).stall = .select base mask (wbit w 54) dst ∧
             (getSq t.core n.val).taken = none))) ∧
     (∀ base mask rot dst i r, x.stall = .select base mask rot dst → sqRuns s.core n.val = true →
       selPick s.core base mask rot x.rot = some i → headRec (getRxq s.core (base + i)).recs = some r →
       x.pc + headLen s.core n.val < x.words.length →
       ∃ t, exec (.select n) s = .next t ∧ took t s.core base i dst r)) ∧
  -- SEND hands its message to the MF of its die, or to the Punty Port for another die, and waits; its answer writes 0 or the
  -- cause to the status register, or, retried by itself after a cause that allows it, waits and is sent again.
  (∀ (s : State) (n : Fin 32) (q : Nat) (w : Word), s.runs = true →
     let x := getSq s.core n.val
     (SqBegins s.core n.val 0x49 q w → headFault s.core n.val = none →
       let m : Msg := { rxq := wf w 35 12, tag := wf w 11 16, land := tget x.s 0 (wf w 27 4)
                        words := (List.range (wf w 53 2 + 1)).map (fun i => tget x.s 0 (wf w 31 4 + i))
                        srcDie := dieId s.core, srcKind := 0, srcId := q, ctx := (getQ s.core q).ctx }
       let dest := remoteDie s.core (wbit w 5) (wf w 47 6)
       (dest = .ok none →
         ∃ t, exec (.send n) s = .next t ∧ (getSq t.core n.val).stall = .send m none (wf w 6 4) (wbit w 10) 0 ∧
           t.core.mf = { s.core.mf with inbox := s.core.mf.inbox ++ [(.sq n.val, m)] }) ∧
       (∀ die, dest = .ok (some die) →
         ∃ t, exec (.send n) s = .next t ∧ (getSq t.core n.val).stall = .send m (some die) (wf w 6 4) (wbit w 10) 0 ∧
           (s.core.pp.msgHeld ≠ [] → t.core.pp.msgHeld = s.core.pp.msgHeld ++ [(.sq n.val, die, m)]) ∧
           (s.core.pp.msgHeld = [] → s.core.pp.msgs.length < 256 →
             t.core.pp.msgs = s.core.pp.msgs ++ [{ mid := s.core.pp.ansNext % 2 ^ 16, die := die, src := .sq n.val }])) ∧
       (∀ code, dest = .error code → HoldsFaults s.core q → ∃ t, exec (.send n) s = .next t ∧ Guilty t.core q 2 code x.pc)) ∧
     (∀ m die stat auto tries code l, x.q = some q → x.stall = .send m die stat auto tries → sqRuns s.core n.val = true →
       ltake (fun e => e.1 == n.val) s.core.mf.answers = some ((n.val, code), l) →
       x.pc + headLen s.core n.val < x.words.length →
       (code = 0 ∨ auto = false ∨ retryable code = false →
         ∃ t, exec (.sendAnswer n) s = .next t ∧ MovesTo s.core t.core n.val (x.pc + headLen s.core n.val) ∧
           tget (getSq t.core n.val).s 0 stat = (if code = 0 then 0 else w64 (2 ^ 63 + code)) ∧ t.core.mf.answers = l) ∧
       (code ≠ 0 → auto = true → retryable code = true →
         ∃ t, exec (.sendAnswer n) s = .next t ∧ (getSq t.core n.val).stall = .sendBackoff m die stat auto (tries + 1) ∧
           (getSq t.core n.val).pc = x.pc)) ∧
     (∀ m stat auto tries, x.stall = .sendBackoff m none stat auto tries → sqRuns s.core n.val = true →
       ∃ t, exec (.sendRetry n) s = .next t ∧ (getSq t.core n.val).stall = .send m none stat auto tries ∧
         t.core.mf = { s.core.mf with inbox := s.core.mf.inbox ++ [(.sq n.val, m)] } ∧
         cntGet t.core (pgSq n.val) 0x148 = cntGet s.core (pgSq n.val) 0x148 + 1) ∧
     (∀ m die stat auto tries, x.q = some q → x.stall = .sendBackoff m (some die) stat auto tries → sqRuns s.core n.val = true →
       linkUpTo s.core die = false → HoldsFaults s.core q →
       ∃ t, exec (.sendRetry n) s = .next t ∧ Guilty t.core q 2 0x0F x.pc))

/-- ROUTE, MIX and STREAM_ARM enter their units for the program's current instance, or for the stream, and the program goes on;
a full Shears or Marver leaves the command waiting at its head until it is tried again, and a request that a check refuses
faults. -/
def Obligations.RequestsEnterTheirUnits : Prop :=
  ∀ (s : State) (n : Fin 32) (q : Nat) (w : Word), s.runs = true →
    let x := getSq s.core n.val
    let enters (op : Nat) := SqBegins s.core n.val op q w ∧ headFault s.core n.val = none ∨
      x.q = some q ∧ x.stall = .enter ∧ sqRuns s.core n.val = true ∧ wat x.words x.pc = w ∧ opOf w = op
    x.pc + 1 < x.words.length →
    (enters 0x40 →
      let slot := wf w 53 2
      let desc := wf w 0 44 * 256
      let k := (tget x.s 0 (wf w 48 4)).toNat * 2 ^ wf w 44 4
      (curInst s.core n.val = none → HoldsFaults s.core q →
        ∃ t, exec (.route n) s = .next t ∧ Guilty t.core q 2 8 x.pc) ∧
      (∀ i, curInst s.core n.val = some i →
        let bad := if wbit w 52 = true ∧ 8192 < k then some 3
          else if tget (getInst s.core i).rslots .empty slot ≠ .empty then some 0x10
          else if inCarve s.core (getQ s.core q).ctx desc 256 = false then some 0x0D else none
        (∀ code, bad = some code → HoldsFaults s.core q →
          ∃ t, exec (.route n) s = .next t ∧ Guilty t.core q 2 code x.pc) ∧
        (bad = none → 4 ≤ routesOpen s.core →
          ∃ t, exec (.route n) s = .next t ∧ (getSq t.core n.val).stall = .enter ∧ (getSq t.core n.val).pc = x.pc) ∧
        (bad = none → routesOpen s.core < 4 →
          ∃ t, exec (.route n) s = .next t ∧ MovesTo s.core t.core n.val (x.pc + 1) ∧
            tget (getInst t.core i).rslots .empty slot = .requested ∧
            (∃ r ∈ t.core.shr.routes, r.id = s.core.shr.next ∧ r.inst = i ∧ r.slot = slot ∧ r.desc = desc ∧ r.q = q ∧
              r.tokens = (if wbit w 52 then some k else none))))) ∧
    (enters 0x41 →
      let k := (tget x.s 0 (wf w 49 4)).toNat
      let base := wf w 0 44 * 256
      (∀ i, curInst s.core n.val = some i →
        let bad := if k = 0 ∨ 16777216 < k then some 3
          else if inCarve s.core (getQ s.core q).ctx base 1 = false then some 0x0D else none
        (∀ code, bad = some code → HoldsFaults s.core q → ∃ t, exec (.mix n) s = .next t ∧ Guilty t.core q 2 code x.pc) ∧
        (bad = none → 16 ≤ s.core.marv.reqs.length →
          ∃ t, exec (.mix n) s = .next t ∧ (getSq t.core n.val).stall = .enter ∧ (getSq t.core n.val).pc = x.pc) ∧
        (bad = none → s.core.marv.reqs.length < 16 →
          ∃ t, exec (.mix n) s = .next t ∧ MovesTo s.core t.core n.val (x.pc + 1) ∧
            t.core.marv = { s.core.marv with reqs := s.core.marv.reqs ++ [
              { inst := i, serial := (getInst s.core i).serial, slot := wf w 53 2, len := k, chunk := wf w 45 4, base := base }] })) ∧
      (curInst s.core n.val = none → HoldsFaults s.core q → ∃ t, exec (.mix n) s = .next t ∧ Guilty t.core q 2 8 x.pc)) ∧
    (SqBegins s.core n.val 0x42 q w → headFault s.core n.val = none →
      let k := wf w 32 16
      let a : Arm := { gen := s.core.strm.armSeq, q := q, pc := x.pc, sid := (getQ s.core q).cur.getD 0, ctx := (getQ s.core q).ctx
                       epoch := armEpoch s.core n.val }
      ((getStream s.core k).st = .idle → slotsUsed s.core < 512 →
        ∃ t, exec (.streamArm n) s = .next t ∧ MovesTo s.core t.core n.val (x.pc + 1) ∧
          getStream t.core k = { st := .loading, cur := a } ∧ t.core.strm.armSeq = s.core.strm.armSeq + 1 ∧
          (wbit w 54 = true → tget (getSq t.core n.val).s 0 (wf w 50 4) = s.core.strm.armSeq) ∧
          Made t.core (fun r => r.op = .read ∧ r.tag = .strmEntry k a.gen.toNat ∧ r.addr = regStrmBase s.core + 64 * k ∧
            r.len = 64)) ∧
      ((getStream s.core k).st ≠ .idle → (getStream s.core k).cur.ctx = a.ctx →
        ∃ t, exec (.streamArm n) s = .next t ∧ MovesTo s.core t.core n.val (x.pc + 1) ∧ (getStream t.core k).pend = some a ∧
          (getStream t.core k).cur = (getStream s.core k).cur) ∧
      (HoldsFaults s.core q → (getStream s.core k).st = .idle ∧ 512 ≤ slotsUsed s.core ∨
          (getStream s.core k).st ≠ .idle ∧ (getStream s.core k).cur.ctx ≠ a.ctx →
        ∃ t, exec (.streamArm n) s = .next t ∧
          Guilty t.core q 8 (if (getStream s.core k).st = .idle then 6 else 7) x.pc))

/-- A launch is accepted, its instance opens and retires. -/
def Obligations.InstancesAreAcceptedOpenedAndRetired : Prop :=
  -- LAUNCH_ACCEPT: the first offer that stands takes the next free instance number and a run of counters, is bound to its
  -- version, and its program goes on; without a number or enough counters it waits, and where only compaction helps,
  -- compaction begins. COMPACTION_DONE slides the runs to counter 0 and ends it.
  ((∀ (s : State) (o : Offer) (q : Nat) (v : Version), s.runs = true → mayStart s.core = true → s.core.isr.compacting = false →
     s.core.isr.offers.find? (offerStands s.core) = some o → (getSq s.core o.sq).q = some q →
     badGraph s.core o.graph o.ver (getQ s.core q).ctx = false → versionOf s.core o.graph o.ver = some v →
     let x := getSq s.core o.sq
     (∀ i, nextInst s.core = some i → 32 * ctrUnits v.tasks ≤ freeCtrs s.core →
       (takeRun s.core (32 * ctrUnits v.tasks)).isSome = true → o.sync = false ∨ gateFail s.core (o.at_.getD 0) = none →
       x.pc + headLen s.core o.sq < x.words.length →
       ∃ t, exec .launchAccept s = .next t ∧ MovesTo s.core t.core o.sq (x.pc + headLen s.core o.sq) ∧
         (getSq t.core o.sq).inst = some (i, s.core.isr.serial) ∧ (getSq t.core o.sq).pred = x.inst ∧
         t.core.isr.next = (i + 1) % 16384 ∧ (∀ p ∈ t.core.isr.offers, p.sq ≠ o.sq) ∧
         (let y := getInst t.core i
          y.graph = o.graph ∧ y.ver = v.num ∧ y.ctx = (getQ s.core q).ctx ∧ y.q = q ∧ y.opening = true ∧ y.tasks = v.tasks ∧
          y.left = v.tasks ∧ y.crun = 32 * ctrUnits v.tasks ∧ y.serial = s.core.isr.serial ∧ y.stage = stagingWords x ∧
          (y.st = .held ↔ (o.chain = true ∧ x.inst.any (instLive s.core) = true) ∨ ∃ a, o.at_ = some a ∧ geW (now s.core) a = false) ∧
          (y.st = .held ∨ y.st = .running)) ∧
         Made t.core (fun r => r.op = .read ∧ r.tag = .cost i s.core.isr.serial ∧ r.len = 64)) ∧
     (nextInst s.core = none →
       ∃ t, exec .launchAccept s = .next t ∧ t.core.isr.insts = s.core.isr.insts ∧ (∀ p ∈ t.core.isr.offers, p.room = true) ∧
         t.core.isr.compacting = false) ∧
     (∀ i, nextInst s.core = some i → 32 * ctrUnits v.tasks ≤ freeCtrs s.core → takeRun s.core (32 * ctrUnits v.tasks) = none →
       ∃ t, exec .launchAccept s = .next t ∧ t.core.isr.insts = s.core.isr.insts ∧ t.core.isr.compacting = true)) ∧
   (∀ s : State, s.runs = true → s.core.isr.compacting = true →
     ∃ t, exec .compactionDone s = .next t ∧ Keeps s t [.io, .isr] ∧ t.core.isr.compacting = false ∧
       (∀ i x, s.core.isr.insts = [(i, x)] → x.st ≠ .free → 0 < x.crun → (s.core.isr.ctrs.map (·.1)).Nodup →
         (getInst t.core i).cbase = 0 ∧ ∀ k, k < x.crun → tget t.core.isr.ctrs 0 k = tget s.core.isr.ctrs 0 (x.cbase + k)))) ∧
  -- INSTANCE_OPEN places the staging block in the patch cache and makes the roots of a RUNNING instance due; COUNTER_INIT_END
  -- ends the initialisation; INSTANCE_RETIRE frees an instance with nothing left, and what is chained to it no longer waits
  -- for it.
  ((∀ (s : State) (i : Fin 16384), s.runs = true → s.core.qsc.done = false → (getInst s.core i.val).opening = true →
     (getInst s.core i.val).st = .running ∨ (getInst s.core i.val).st = .held → s.core.gs.poison = [] →
     let x := getInst s.core i.val
     ∃ t, exec (.instanceOpen i) s = .next t ∧ (getInst t.core i.val).opening = false ∧ (getInst t.core i.val).init = true ∧
       tfind t.core.isr.patch i.val = some x.stage ∧
       (∀ k, x.st = .running → k < x.roots → rcCane (taskRec s.core i.val k) = false →
         ∃ e ∈ t.core.de.due, e.inst = i.val ∧ e.task = k) ∧
       (∀ k, x.st = .running → k < x.roots → rcCane (taskRec s.core i.val k) = true → k ∈ (getInst t.core i.val).waitCanes)) ∧
   (∀ (s : State) (i : Fin 16384), s.runs = true → (getInst s.core i.val).init = true → s.core.ras.hold = false →
     (getInst s.core i.val).heldCpl = [] →
     ∃ t, exec (.counterInitEnd i) s = .next t ∧ Keeps s t [.io, .isr] ∧
       getInst t.core i.val = { getInst s.core i.val with init := false }) ∧
   (∀ (s : State) (i : Fin 16384), s.runs = true → retireDue (getInst s.core i.val) = true →
     let x := getInst s.core i.val
     ∃ t, exec (.instanceRetire i) s = .next t ∧ getInst t.core i.val = {} ∧ tfind t.core.isr.patch i.val = none ∧
       (∀ j, j ≠ i.val → (getInst s.core j).chain = some (i.val, x.serial) → (getInst s.core j).st ≠ .free →
         (getInst t.core j).chain = none)))

/-- The reads of an instance return, and its alarms fire. -/
def Obligations.InstanceReadsAndAlarms : Prop :=
  -- The answers that an instance waits for: PATCH_BLOCK_LOAD brings its block into the patch cache, PATCH_WRITE_BACK_ACK lets
  -- a waiting walk read it back, and a failed one of either is recorded; COST_HEADER_READ gives it its prediction.
  ((∀ (s : State) (i : Fin 16384) (st : QStatus) (data : List Word) (r : Req) (c : Core), s.runs = true →
     takeReq s.core (.blkLoad i.val) = some (r, c) → s.core.isr.loading.contains i.val = true →
     (st = .ok → (∀ w ∈ s.core.de.walks, w.1 ≠ i.val) → (getInst s.core i.val).heldCpl = [] → s.core.cru.cqs = [] →
       s.core.shr.routes = [] →
       ∃ t, exec (.patchBlockLoad i st data) s = .next t ∧ tfind t.core.isr.patch i.val = some (data.take 64) ∧
         t.core.isr.loading.contains i.val = false) ∧
     (st ≠ .ok → (getPage s.core pgIsr).code = 0 →
       ∃ t, exec (.patchBlockLoad i st data) s = .next t ∧ (getPage t.core pgIsr).code = 0x10 ∧
         (getPage t.core pgIsr).infoLo = r32 i.val)) ∧
   (∀ (s : State) (i : Fin 16384) (st : QStatus) (r : Req) (c : Core), s.runs = true →
     takeReq s.core (.blkWb i.val) = some (r, c) → hasReq c (.blkWb i.val) = false →
     (st = .ok → walkWaits s.core i.val = false → ∃ t, exec (.patchWriteBackAck i st) s = .next t ∧ Keeps s t [.io, .pmu]) ∧
     (st = .ok → walkWaits s.core i.val = true → patchIn s.core i.val = false → s.core.isr.loading.contains i.val = false →
       hasReq s.core (.blkLoad i.val) = false →
       ∃ t, exec (.patchWriteBackAck i st) s = .next t ∧ t.core.isr.loading = s.core.isr.loading ++ [i.val] ∧
         Made t.core (fun r => r.op = .read ∧ r.tag = .blkLoad i.val ∧ r.len = 512)) ∧
     (st ≠ .ok → (getPage s.core pgIsr).code = 0 →
       ∃ t, exec (.patchWriteBackAck i st) s = .next t ∧ (getPage t.core pgIsr).code = 0x10)) ∧
   (∀ (s : State) (i : Fin 16384) (st : QStatus) (data : List Word) (r : Req) (c : Core), s.runs = true →
     let x := getInst s.core i.val
     takeReq s.core (.cost i.val x.serial) = some (r, c) → x.st ≠ .free →
     (∀ q ∈ s.core.io.reqs, ∀ k, q.tag = .cost i.val k → k = x.serial) →
     (costGood st data = true →
       ∃ t, exec (.costHeaderRead i st data) s = .next t ∧ (getInst t.core i.val).crit = wf (wat data 1) 0 32 ∧
         (getInst t.core i.val).predict = some (x.start + w64 (wf (wat data 1) 0 32 * x.slowF / 256))) ∧
     (costGood st data = false →
       ∃ t, exec (.costHeaderRead i st data) s = .next t ∧ (getInst t.core i.val) = x ∧
         ((getPage s.core pgSched).code = 0 →
           (getPage t.core pgSched).code = 0x10 ∧ (getPage t.core pgSched).infoLo = r32 x.graph)))) ∧
  -- DEADLINE_MISS marks the instance MISSED, counts it and, if set so, faults its queue; LAUNCH_AT_RELEASE takes its count
  -- away and releases an open instance that nothing else holds.
  (∀ (s : State) (i : Fin 16384) (a : Alarm) (l : List Alarm), s.runs = true → s.core.ras.hold = false → s.core.qsc.req = false →
     let x := getInst s.core i.val
     (ltake (alarmIs 9 i.val) s.core.tu.due = some (a, l) →
       ∃ t, exec (.deadlineMiss i) s = .next t ∧ (getInst t.core i.val).missed = true ∧
         cntGet t.core pgSched 0x160 = cntGet s.core pgSched 0x160 + 1 ∧ (getPage t.core pgSched).irqRaw.getLsbD 3 = true ∧
         (regSchedCtrlMissAct s.core = true → (getQ s.core x.q).st = .running ∨ (getQ s.core x.q).st = .blocked →
           HoldsFaults s.core x.q → Guilty t.core x.q 6 1 0)) ∧
     (ltake (alarmIs 2 i.val) s.core.tu.due = some (a, l) →
       ∃ t, exec (.launchAtRelease i) s = .next t ∧ (getInst t.core i.val).at_ = none ∧ t.core.tu.due = l ∧
         (x.st = .held → x.opening = false → x.chain.any (instLive s.core) = false → (getInst t.core i.val).st = .running) ∧
         (x.st = .held → x.opening = true → (getInst t.core i.val).st = .held)))

/-- Lanes issue their picks, steal, start gangs and close their issues. -/
def Obligations.LanesIssueAndClose : Prop :=
  -- A lane's issue opportunity: a pick of one engine that runs is issued there, with an issue entry and a beat; one whose
  -- engine is gated waits for its wake; a gang reserves its run.
  (∀ (s : State) (k : Fin 64) (e : Ready) (p : Place), s.runs = true → mayStart s.core = true → s.core.lanesUp = true →
     k.val < lanesOn s.core → saveTurn s.core k.val = none → laneYields s.core k.val = false → (getLane s.core k.val).wakes = [] →
     s.core.de.gangs = [] → (getLane s.core k.val).resv = none → s.core.de.coord = [] →
     lanePick (askPatches s.core k.val) k.val = some (e, p) →
     (∀ g, p = .engine g → gated s.core g = false → taskPoisoned s.core e.inst e.task = false →
       (freeId s.core (busOf k.val (rcClass (taskRec s.core e.inst e.task)))).isSome = true →
       ∃ t id y, exec (.laneIssue k) s = .next t ∧
         tfind (getLane t.core (busOf k.val (rcClass (taskRec s.core e.inst e.task)))).issues id = some y ∧
         tfind (getLane s.core (busOf k.val (rcClass (taskRec s.core e.inst e.task)))).issues id = none ∧
         y.inst = e.inst ∧ y.task = e.task ∧ y.copy = e.copy ∧ y.eng = g ∧ y.span = 1 ∧ y.kind = .task ∧
         (getInst t.core e.inst).openN = (getInst s.core e.inst).openN + 1 ∧
         (∃ m, PortEvent.issue (busOf k.val (rcClass (taskRec s.core e.inst e.task))) m ∈ t.core.io.out ++ t.core.io.heldOut) ∧
         cntGet t.core (pgDl k.val) 0x110 = cntGet s.core (pgDl k.val) 0x110 + 1) ∧
     (∀ g, p = .engine g → gated s.core g = true →
       ∃ t, exec (.laneIssue k) s = .next t ∧ (getEng t.core g).cgLow = true ∧
         (getLane t.core k.val).wakes = [{ eng := (engPlace g).2, entry := firstCopy e }]) ∧
     (∀ lo n, p = .run lo n →
       ∃ t tag, exec (.laneIssue k) s = .next t ∧ (getLane t.core k.val).resv = some (firstCopy e, lo, n, tag))) ∧
  -- STEAL moves the entry that it finds, or the upper half of its copies, to the thief's queue; GANG_GO pulses go_valid on a
  -- gang's lanes once all their beats have transferred; CG_ACK_RISE and ENGINE_WAKE stop and start an engine's clock.
  ((∀ (s : State) (k : Fin 64) (v : Nat) (e : Ready), s.runs = true → mayStart s.core = true → s.core.lanesUp = true →
     k.val < lanesOn s.core → stealFind s.core k.val = some (v, e) →
     ∃ t, exec (.steal k) s = .next t ∧ (getLane t.core k.val).ready = (getLane s.core k.val).ready ++ [(stealSplit e).1] ∧
       (getLane t.core v).ready = (getLane s.core v).ready.flatMap (fun x => if x = e then (stealSplit e).2 else [x]) ∧
       cntGet t.core (pgDl k.val) 0x118 = cntGet s.core (pgDl k.val) 0x118 + 1 ∧
       cntGet t.core (pgDl v) 0x120 = cntGet s.core (pgDl v) 0x120 + 1) ∧
   (∀ (s : State) (g : Gang), s.runs = true → s.core.qsc.done = false →
     s.core.de.gangs.find? (fun (g : Gang) => g.left.isEmpty && !g.gone) = some g →
     ∃ t, exec .gangGo s = .next t ∧ Keeps s t [.io, .de] ∧ PortEvent.go g.lanes g.tag ∈ t.core.io.out ∧
       (∀ x ∈ t.core.de.gangs, x.tag = g.tag → x.gone = true)) ∧
   (∀ (s : State) (k : Fin 64) (pos : Fin 68) (e : Nat), s.runs = true → engAt k.val pos.val = some e →
     (reqHigh s.core e pos.val = true → engHolds s.core e = false →
       ∃ t, exec (.cgAckRise k pos) s = .next t ∧ Keeps s t [.io, .engs] ∧ (getEng t.core e).cgAck = true) ∧
     ((getEng s.core e).cgAck = true → (getEng s.core e).cgLow = true →
       ∃ t, exec (.engineWake k pos) s = .next t ∧ (getEng t.core e).cgAck = false ∧
         (mayStart s.core = false → Keeps s t [.io, .engs])))) ∧
  -- A completion beat of a running lane that matches no open issue is counted and recorded; one that leaves its issue's span
  -- incomplete joins it; the last one closes the issue, and its instance has one open issue less.
  (∀ (s : State) (k : Fin 64) (b : BitVec 128), s.runs = true → cplReady s.core k.val b = true →
     (cplMatch s.core k.val b = none →
       ∃ t, exec (.engineCompletion k b) s = .next t ∧ Keeps s t [.io, .rsCnts, .rsPages] ∧
         cntGet t.core (pgDl k.val) 0x128 = cntGet s.core (pgDl k.val) 0x128 + 1 ∧
         ((getPage s.core (pgDl k.val)).code = 0 → (getPage t.core (pgDl k.val)).code = 0x10)) ∧
     (∀ x, cplMatch s.core k.val b = some x → (cplJoin x b).got.length < (cplJoin x b).span →
       ∃ t, exec (.engineCompletion k b) s = .next t ∧ Keeps s t [.io, .lanes] ∧
         tfind (getLane t.core k.val).issues (cplId b) = some (cplJoin x b)) ∧
     (∀ x, cplMatch s.core k.val b = some x → (cplJoin x b).span ≤ (cplJoin x b).got.length →
       ∃ t, exec (.engineCompletion k b) s = .next t ∧
         tfind (getLane t.core k.val).issues (cplId b) = none ∧
         (x.kind = .task → (getInst s.core x.inst).st = .running → 0 < (getInst s.core x.inst).openN →
           (getInst t.core x.inst).openN = (getInst s.core x.inst).openN - 1)) ∧
     (∀ x, cplMatch s.core k.val b = some x → cplFaults s.core k.val b = true →
       ∃ t, exec (.engineFault k b) s = .next t ∧ tfind (getLane t.core k.val).issues (cplId b) = none ∧
         (x.kind ≠ .task ∨ (getInst s.core x.inst).st ≠ .aborting → ∃ e n, failedEngine (cplJoin x b) = some (e, n) ∧
           (getEng t.core e).faults = min 0xFFFF ((getEng s.core e).faults + 1) ∧
           cntGet t.core pgRas 0x128 = cntGet s.core pgRas 0x128 + 1)))

/-- TASK_HANDOFF: the oldest due copy goes to the lane that the placement rule chooses, at the end of its ready queue;
CANE_COUNT: a Cane takes its count from its source, and its copies are due; PREEMPT_WAIT_PASSED: a starved entry's demand stands
against the queues of lower priority. -/
def Obligations.TasksAreHandedOn : Prop :=
  (∀ (s : State) (e : Ready) (l : List Ready) (k : Nat), s.runs = true → s.core.ras.hold = false → s.core.de.hold = [] →
    s.core.de.due = e :: l → taskPoisoned s.core e.inst e.task = false →
    let r := taskRec s.core e.inst e.task
    rcCane r = false → rcClass r ≠ 1 ∨ rcGang r ≤ 64 → allowed s.core e.inst e.task ≠ [] → placeable s.core e.inst e.task ≠ [] →
    regDetCtrlRepro s.core = false → chooseLane s.core (placeable s.core e.inst e.task) = some k →
    ∃ t, exec .taskHandoff s = .next t ∧ t.core.de.due = restCopies e ++ l ∧ t.core.de.hold = [] ∧
      t.core.de.rr = (k + 1) % lanesOn s.core ∧
      (∃ z, (getLane t.core k).ready.getLast? = some z ∧ z.inst = e.inst ∧ z.task = e.task ∧ z.copy + z.runm1 = e.copy) ∧
      cntGet t.core pgDe 0x118 = cntGet s.core pgDe 0x118 + 1) ∧
  (∀ (s : State) (i : Fin 16384) (task : BitVec 16) (n : Nat), s.runs = true → s.core.ras.hold = false →
    (getInst s.core i.val).st = .running → (getInst s.core i.val).waitCanes.contains task.toNat = true →
    taskPoisoned s.core i.val task.toNat = false →
    let r := taskRec s.core i.val task.toNat
    caneN s.core i.val r = some n → rcCsrc r ≠ 3 → s.core.cru.cqs = [] →
    (0 < n → n ≤ rcMaxRepl r →
      ∃ t, exec (.caneCount i task) s = .next t ∧ task.toNat ∉ (getInst t.core i.val).waitCanes ∧
        ctrOf t.core i.val task.toNat = n ∧
        t.core.de.due = s.core.de.due ++ [{ inst := i.val, task := task.toNat, runm1 := n - 1 }] ∧
        cntGet t.core pgDe 0x128 = cntGet s.core pgDe 0x128 + 1) ∧
    (rcMaxRepl r < n → (getQ s.core (getInst s.core i.val).q).st = .running → HoldsFaults s.core (getInst s.core i.val).q →
      ∃ t, exec (.caneCount i task) s = .next t ∧ Guilty t.core (getInst s.core i.val).q 4 3 task.toNat)) ∧
  (∀ (s : State) (k : Fin 64) (e : Ready) (q : Nat), s.runs = true → e ∈ (getLane s.core k.val).ready → entryStarved s.core e = true →
    (getQ s.core q).st = .running ∨ (getQ s.core q).st = .blocked → entryPresses s.core e q = true →
    (∀ v, (getQ s.core v).pointLate = false) →
    ∃ t, exec (.preemptWaitPassed k) s = .next t ∧ Keeps s t [.io, .queues] ∧ (getQ t.core q).demand = true)

/-- Signals and adds are applied; sync objects are made, freed and realigned. -/
def Obligations.SyncOperationsAreApplied : Prop :=
  -- SYNC_OP_APPLY of one SIGNAL or ADD of a program to a live object that it may access: a counter and a cookie take the count
  -- or the sum, an older SIGNAL is counted as out of order, and the waiters whose condition now holds are released; a
  -- semaphore gains its units; the program goes on. One that may not, and one to a FREE object, fault.
  (∀ (s : State) (k q h : Nat) (x : Word) (isAdd : Bool), s.runs = true → s.core.st.offered = [] → s.core.strm.slots = [] →
     s.core.st.releases = [] → s.core.st.fifo = [if isAdd then .add (.cmd k q) h x else .signal (.cmd k q) h x] →
     (getSq s.core k).q = some q → (getSq s.core k).stall = .sig →
     (getSq s.core k).pc + headLen s.core k < (getSq s.core k).words.length →
     let o := getObj s.core h
     let allowed := accessOk s.core o.access o.owner (getQ s.core q).ctx
     (o.st = .free ∨ allowed = false → HoldsFaults s.core q → (getQ s.core q).st = .running ∨ (getQ s.core q).st = .blocked →
       ∃ t, exec .syncOpApply s = .next t ∧
         Guilty t.core q 2 (if o.st = .free then 0x0B else 0x0A) (getSq s.core k).pc) ∧
     (o.st = .live → allowed = true → o.ty = .counter ∨ o.ty = .cookie →
       let v := if isAdd then o.value + x else if geW x o.value then x else o.value
       ∃ t, exec .syncOpApply s = .next t ∧ MovesTo s.core t.core k ((getSq s.core k).pc + headLen s.core k) ∧
         (getObj t.core h).value = v ∧ (getObj t.core h).waits = o.waits.filter (fun w => !geW v (w64 w.x)) ∧
         (isAdd = false → geW x o.value = false → (getObj t.core h).ooo = min 255 (o.ooo + 1) ∧
           cntGet t.core pgSt 0x128 = cntGet s.core pgSt 0x128 + 1) ∧
         (∀ w ∈ o.waits, ∀ j, w.who = .sq j → geW v (w64 w.x) = true → ∃ r ∈ t.core.st.releases, r.sq = j ∧ r.h = h) ∧
         t.core.st.fifo = [] ∧ cntGet t.core pgSt 0x118 = cntGet s.core pgSt 0x118 + 1) ∧
     (o.st = .live → allowed = true → o.ty = .semaphore → o.waits = [] →
       ∃ t, exec .syncOpApply s = .next t ∧ MovesTo s.core t.core k ((getSq s.core k).pc + headLen s.core k) ∧
         (getObj t.core h).value = w64 (min (o.value.toNat + x.toNat) (2 ^ 64 - 1)) ∧
         (getObj t.core h).holder = (if o.holder = some q then none else o.holder))) ∧
  -- SYNC_OP_APPLY of a creation or a freeing makes or frees the object and answers the entry; REALIGN_PASS, on its alarm,
  -- counts a pass, or, before the block is up, a skipped one.
  ((∀ (s : State) (hd : Hdr) (h : Nat) (o : SyncObj), s.runs = true → s.core.st.offered = [] → s.core.strm.slots = [] →
     s.core.st.releases = [] →
     (s.core.st.fifo = [.create hd h o] → o.waits = [] → o.st = .live →
       ∃ t, exec .syncOpApply s = .next t ∧ getObj t.core h = o ∧ t.core.fe.busy = false ∧ Recorded s.core t.core
         { kind := hd.op, tag := hd.tag, index := hd.index, queue := hd.queue, ctx := hd.ctx }) ∧
     (s.core.st.fifo = [.freeSlot hd h] → (getObj s.core h).waits = [] →
       ∃ t, exec .syncOpApply s = .next t ∧ getObj t.core h = {} ∧ t.core.fe.busy = false ∧ Recorded s.core t.core
         { kind := hd.op, tag := hd.tag, index := hd.index, queue := hd.queue, ctx := hd.ctx })) ∧
   (∀ (s : State) (a : Alarm) (l : List Alarm), s.runs = true → s.core.ras.hold = false → s.core.qsc.req = false →
     ltake (alarmIs 5 0) s.core.tu.due = some (a, l) →
     ∃ t, exec .realignPass s = .next t ∧
       cntGet t.core pgSt 0x190 = cntGet s.core pgSt 0x190 + (if isUp s.core then 1 else 0) ∧
       cntGet t.core pgSt 0x198 = cntGet s.core pgSt 0x198 + (if isUp s.core then 0 else 1)))

/-- SYNC_OP_APPLY of one WAIT of a program: met at once, it is released, a semaphore giving its units and naming its holder;
else it is registered behind the others. A barrier counts the arrival, and the one that completes its parties releases all. A
due release moves its program on. -/
def Obligations.WaitsAreRegisteredAndReleased : Prop :=
  (∀ (s : State) (k q h : Nat) (x : Word), s.runs = true → s.core.st.offered = [] → s.core.strm.slots = [] →
    s.core.st.releases = [] → s.core.st.fifo = [.wait k q h x] →
    let o := getObj s.core h
    let allowed := accessOk s.core o.access o.owner (getQ s.core q).ctx
    let w : Wait := { who := .sq k, x := x.toNat, opd := x, q := q }
    (o.st = .free ∨ allowed = false ∨ o.st = .abandoned → (getSq s.core k).q = some q → HoldsFaults s.core q →
      (getQ s.core q).st = .running ∨ (getQ s.core q).st = .blocked →
      ∃ t, exec .syncOpApply s = .next t ∧
        Guilty t.core q 2 (if o.st = .free then 0x0B else if allowed = false then 0x0A else 0x0C) (getSq s.core k).pc) ∧
    (o.st = .live → allowed = true → o.ty = .counter ∨ o.ty = .cookie →
      ∃ t, exec .syncOpApply s = .next t ∧ (getObj t.core h).value = o.value ∧
        (geW o.value x = true → ∃ r ∈ t.core.st.releases, r.sq = k ∧ r.h = h) ∧
        (geW o.value x = false → (∀ y ∈ o.waits, geW o.value (w64 y.x) = false) → (getObj t.core h).waits = o.waits ++ [w])) ∧
    (o.st = .live → allowed = true → o.ty = .semaphore → x ≠ 0 → o.waits = [] →
      ∃ t, exec .syncOpApply s = .next t ∧
        (x.toNat ≤ o.value.toNat → (getObj t.core h).value = o.value - x ∧ (getObj t.core h).holder = some q ∧
          (getObj t.core h).waits = [] ∧ ∃ r ∈ t.core.st.releases, r.sq = k ∧ r.h = h) ∧
        (o.value.toNat < x.toNat → (getObj t.core h).value = o.value ∧ (getObj t.core h).waits = [w])) ∧
    (o.st = .live → allowed = true → o.ty = .barrier → x = 0 → 1 ≤ o.parties → o.value.toNat + 1 < 2 ^ 64 →
      (∀ y ∈ o.waits, y.x = (o.value.toNat / o.parties + 1) * o.parties) →
      ∃ t, exec .syncOpApply s = .next t ∧ (getObj t.core h).value = o.value + 1 ∧
        ((o.value.toNat + 1) % o.parties = 0 → (getObj t.core h).waits = [] ∧
          (∃ r ∈ t.core.st.releases, r.sq = k ∧ r.h = h) ∧
          (∀ y ∈ o.waits, ∀ j, y.who = .sq j → ∃ r ∈ t.core.st.releases, r.sq = j ∧ r.h = h)) ∧
        ((o.value.toNat + 1) % o.parties ≠ 0 → (getObj t.core h).waits.length = o.waits.length + 1))) ∧
  (∀ (s : State) (r : Release) (l : List Release), s.runs = true → ltake (fun r => sqRuns s.core r.sq) s.core.st.releases = some (r, l) →
    (∃ v, (getSq s.core r.sq).stall = .waitObj r.h v) ∨ (∃ d v b, (getSq s.core r.sq).stall = .waitRemote d r.h v b) →
    (getSq s.core r.sq).pc + headLen s.core r.sq < (getSq s.core r.sq).words.length →
    ∃ t, exec .waiterRelease s = .next t ∧ MovesTo s.core t.core r.sq ((getSq s.core r.sq).pc + headLen s.core r.sq))

/-- The Lehr samples, reports, escalates and dumps. -/
def Obligations.TheLehrReportsEscalatesAndDumps : Prop :=
  -- LEHR_SAMPLE, with the Lehr on, notes what has stalled since the last sample; DEADLOCK, LIVELOCK_SEND, LIVELOCK_RXQ and
  -- STUCK_ABORT report once when their condition has lasted, with their kind, interrupt bit and count.
  (∀ s : State, s.runs = true → regLehrCtrlEn s.core = true →
     let reported (t : State) (kind part : Nat) := t.core.lehr.lastKind = kind ∧ t.core.lehr.lastPart = part ∧
       (getPage t.core pgLehr).irqRaw.getLsbD (lehrBit kind) = true ∧
       cntGet t.core pgLehr (lehrCnt kind) = cntGet s.core pgLehr (lehrCnt kind) + 1 ∧
       t.core.lehr.reports = s.core.lehr.reports ++ [{ kind := kind, at_ := now s.core }]
     (∃ t, exec .lehrSample s = .next t ∧ Keeps s t [.io, .lehr] ∧ t.core.lehr.moved = 0 ∧ t.core.lehr.dieMoved = false ∧
       (∀ p, p < 16 → t.core.lehr.stall.getLsbD p = (!s.core.lehr.moved.getLsbD p && partStill s.core false p))) ∧
     (∀ (p : Fin 16) since, tfind s.core.lehr.since p.val = some since → s.core.lehr.told.getLsbD p.val = false →
       passedUs s.core since (regLehrWin s.core) = true →
       ∃ t, exec (.deadlock (some p)) s = .next t ∧ reported t 1 p.val ∧ t.core.lehr.told.getLsbD p.val = true) ∧
     (∀ since, s.core.lehr.dieSince = some since → s.core.lehr.dieTold = false → passedUs s.core since (regLehrWin s.core) = true →
       ∃ t, exec (.deadlock none) s = .next t ∧ reported t 1 0xFF ∧ t.core.lehr.dieTold = true) ∧
     (∀ (n : Fin 32) q k, (getSq s.core n.val).q = some q → sendTries (getSq s.core n.val).stall = some k → k ≠ 0 →
       regLehrLimRetryLimit s.core ≤ k → n.val ∉ s.core.lehr.sendTold →
       ∃ t, exec (.livelockSend n) s = .next t ∧ reported t 2 0 ∧ n.val ∈ t.core.lehr.sendTold) ∧
     (∀ (r : Fin 4096) a b, (tget s.core.lehr.nacks [] r.val).head? = some a →
       (tget s.core.lehr.nacks [] r.val)[regLehrLimNackLimit s.core - 1]? = some b → r.val ∉ s.core.lehr.rxqTold →
       (a - b).toNat ≤ regLehrWin s.core * 1000 →
       ∃ t, exec (.livelockRxq r) s = .next t ∧ reported t 3 0 ∧ r.val ∈ t.core.lehr.rxqTold) ∧
     (∀ (k : Fin 64) (id : Fin 256) x, tfind (getLane s.core k.val).issues id.val = some x → x.abort.isSome = true →
       passedUs s.core x.abortAt (regLehrAbortWin s.core) = true → (k.val, id.val) ∉ s.core.lehr.stuckTold →
       ∃ t, exec (.stuckAbort k id) s = .next t ∧ reported t 4 0 ∧ (k.val, id.val) ∈ t.core.lehr.stuckTold)) ∧
  -- LEHR_ESCALATE takes a report whose interrupt still stands after its window, and, if set so, asks for a reset with cause 5;
  -- DUMP_WRITE_ACK counts the dump's record writes down, and the header's acknowledgement ends the dump.
  ((∀ (s : State) (r : Report) (l : List Report), s.runs = true → s.core.rstReq = none →
     ltake (escDue s.core) s.core.lehr.reports = some (r, l) →
     (regLehrCtrlEscReset s.core = false →
       ∃ t, exec .lehrEscalate s = .next t ∧ Keeps s t [.io, .lehr] ∧
         t.core.lehr = { s.core.lehr with reports := l, escalated := true }) ∧
     (regLehrCtrlEscReset s.core = true →
       ∃ t, exec .lehrEscalate s = .next t ∧ t.rst.active = true ∧ t.rst.next = 5 ∧ t.core.queues = [])) ∧
   (∀ (s : State) (n : Nat) (st : QStatus) (r : Req) (c : Core) (d : Dump), s.runs = true →
     takeReq s.core (.dump n) = some (r, c) → s.core.lehr.dump = some d →
     ∃ t, exec (.dumpWriteAck n st) s = .next t ∧
       (d.last = true → t.core.lehr.dump = none ∧
         cntGet t.core pgLehr 0x140 = cntGet s.core pgLehr 0x140 + (if st = .ok then 1 else 0)) ∧
       (d.last = false → 1 < d.left → t.core.lehr.dump = some { d with left := d.left - 1, failed := d.failed || st != .ok }) ∧
       (d.last = false → d.left = 1 → d.failed = false → st = .ok →
         Made t.core (fun r => r.op = .write ∧ r.tag = .dump 64 ∧ r.addr = regLehrDumpBase s.core)) ∧
       (st ≠ .ok → (getPage s.core pgLehr).code = 0 → (getPage t.core pgLehr).code = 0x10)))

/-- Messages are taken or refused, records written body first, and combining rounds added and released. -/
def Obligations.MessagesAndRounds : Prop :=
  -- MESSAGE_TAKE: the first message in order is checked, and refused with the first check that it fails, or placed at the end
  -- of its queue's ring; a sequencer of this die is told which.
  (∀ (s : State) (n : Nat) (m : Msg) (l : List (MsgFrom × Msg)), s.runs = true → mayStart s.core = true →
     nextMsg s.core.mf.inbox = some ((.sq n, m), l) →
     let x := getRxq s.core m.rxq
     (∀ code, msgCheck s.core false m = code → code ≠ 0 →
       ∃ t, exec .messageTake s = .next t ∧ t.core.mf.inbox = l ∧ t.core.mf.answers = s.core.mf.answers ++ [(n, code)] ∧
         cntGet t.core pgMf 0x130 = cntGet s.core pgMf 0x130 + 1 ∧
         (x.st ≠ .free → getRxq t.core m.rxq = { x with nacks := x.nacks + 1 })) ∧
     (msgCheck s.core false m = 0 → countGroup s.core m = none →
       ∃ t, exec .messageTake s = .next t ∧ t.core.mf.inbox = l ∧ t.core.mf.answers = s.core.mf.answers ++ [(n, 0)] ∧
         cntGet t.core pgMf 0x128 = cntGet s.core pgMf 0x128 + 1 ∧ t.core.mf.slots = s.core.mf.slots + 1 ∧
         (getRxq t.core m.rxq).msgs = x.msgs + 1 ∧
         (∃ r, (getRxq t.core m.rxq).recs.getLast? = some r ∧ r.len = msgLen m ∧ r.pad = false ∧
           (msgLen m ≤ x.bytes - x.p → r.off = x.p ∧ r.words = msgWords m x.phase (x.msgs.toNat + 1))))) ∧
  -- RECORD_WRITE_ACK: the record's word 0 is written once its body writes are acknowledged, and its own acknowledgement makes
  -- the record READY; a failed write is recorded and turns the record into a pad.
  (∀ (s : State) (q : Fin 4096) (st : QStatus) (r : RingRec) (a : Req) (c : Core), s.runs = true →
     takeReq s.core (.rxRec q.val r.n) = some (a, c) →
     (getRxq s.core q.val).recs.find? (fun (x : RingRec) => x.n == r.n) = some r →
     (∃ t, exec (.recordWriteAck q r.n st) s = .next t ∧
       (∀ k, r.st = .body k → 1 < k → ∃ y ∈ (getRxq t.core q.val).recs, y.n = r.n ∧ y.st = .body (k - 1) ∧
         y.pad = (r.pad || st != .ok)) ∧
       (∀ k, r.st = .body k → k ≤ 1 → (∃ y ∈ (getRxq t.core q.val).recs, y.n = r.n ∧ y.st = .head) ∧
         Made t.core (fun w => w.op = .write ∧ w.tag = .rxRec q.val r.n ∧ w.addr = (getRxq s.core q.val).base + r.off)) ∧
       (r.st = .head → st = .ok → (∃ y ∈ (getRxq t.core q.val).recs, y.n = r.n ∧ y.st = .ready) ∧
         t.core.mf.slots = s.core.mf.slots - (if r.slot then 1 else 0)) ∧
       (st ≠ .ok → (getPage s.core pgMf).code = 0 →
         (getPage t.core pgMf).code = 0x11 ∧ (getPage t.core pgMf).infoLo = r32 q.val))) ∧
  -- CONTRIBUTION_ADD: the data of an ORDER 0 contribution is added and counted; the one that reaches the target starts the
  -- sum's write, and failed data faults. ROUND_RELEASE: the sum's acknowledgement signals DONE, and the round is over once the
  -- ST has taken it.
  ((∀ (s : State) (n : Fin 1024) (idx : BitVec 16) (st : QStatus) (data : List Word) (r : Req) (c : Core) (x : Contrib)
     (l : List Contrib), s.runs = true →
     let q := getCq s.core n.val
     q.st = .open_ → contribTag s.core n.val idx.toNat = some (.contrib n.val q.round idx.toNat) →
     takeReq s.core (.contrib n.val q.round idx.toNat) = some (r, c) → q.ord = false → q.waiting = [] → q.closing = none →
     q.zero = false → ltake (fun (x : Contrib) => x.idx == idx.toNat) q.open_ = some (x, l) →
     (st = .ok → q.count + 1 < q.target → x.beat.inst = q.inst →
       ∃ t, exec (.contributionAdd n idx st data) s = .next t ∧
         ((getInst t.core q.inst).st = (getInst s.core q.inst).st → getCq t.core n.val = { q with open_ := l, count := q.count + 1, acc := (getCq (cqAdd s.core n.val data) n.val).acc }) ∧
         cntGet t.core pgCru 0x130 = cntGet s.core pgCru 0x130 + 1) ∧
     (st = .ok → q.target ≤ q.count + 1 → mayStart s.core = true → patchIn s.core q.inst = true →
       let a := (patchSlot s.core q.inst (cqOut q)).toNat + 256 * cqOff q
       a % 256 = 0 → inCarve s.core (getInst s.core q.inst).ctx a 4096 = true →
       ∃ t, exec (.contributionAdd n idx st data) s = .next t ∧ (getCq t.core n.val).st = .releasing ∧
         (getCq t.core n.val).closing = some x.beat ∧
         Made t.core (fun w => w.op = .write ∧ w.tag = .sum n.val q.round ∧ w.addr = a)) ∧
     (st ≠ .ok → HoldsFaults s.core (getInst s.core q.inst).q → (getInst s.core q.inst).st = .running →
       (getQ s.core (getInst s.core q.inst).q).st = .running →
       ∃ t, exec (.contributionAdd n idx st data) s = .next t ∧ Guilty t.core (getInst s.core q.inst).q 5 1 q.task)) ∧
   (∀ (s : State) (n : Fin 1024) (st : QStatus) (r : Req) (c : Core), s.runs = true →
     let q := getCq s.core n.val
     q.st = .releasing → sumTag s.core n.val = some (.sum n.val q.round) → takeReq s.core (.sum n.val q.round) = some (r, c) →
     let o := getObj s.core (cqDone q)
     (st = .ok → o.st ≠ .free → accessOk s.core o.access o.owner (getInst s.core q.inst).ctx = true → s.core.ras.hold = false →
       s.core.st.offered = [] → s.core.st.fifo.length < 128 → q.waiting = [] →
       ∃ t, exec (.roundRelease n st) s = .next t ∧ (getCq t.core n.val).st = .idle ∧ (getCq t.core n.val).count = 0 ∧
         (getCq t.core n.val).acc = [] ∧ StOp.add (.crucible n.val) (cqDone q) 1 ∈ t.core.st.fifo ∧
         cntGet t.core pgCru 0x128 = cntGet s.core pgCru 0x128 + 1) ∧
     (st ≠ .ok → HoldsFaults s.core (getInst s.core q.inst).q → (getInst s.core q.inst).st = .running →
       (getQ s.core (getInst s.core q.inst).q).st = .running →
       ∃ t, exec (.roundRelease n st) s = .next t ∧ Guilty t.core (getInst s.core q.inst).q 5 1 q.task)))

/-- An accounting period ends, and phi adapts. -/
def Obligations.PeriodsAndPhi : Prop :=
  -- ACCOUNTING_PERIOD: the period's end takes each context's engine time, updates its deficit if sharing is on, reads its
  -- weight again, and turns the rotation.
  (∀ (s : State) (a : Alarm) (l : List Alarm), s.runs = true → s.core.qsc.req = false →
     ltake (alarmIs 4 0) s.core.tu.due = some (a, l) →
     let sh := (List.range 256).filter (shares s.core)
     let total := (sh.map (usedTime s.core)).sum
     let wsum := (sh.map (fun x => (getSched s.core x).weight)).sum
     let cap := max 1 (regSchedDefCapPeriods s.core) * total
     ∃ t, exec .accountingPeriod s = .next t ∧ cntGet t.core pgSched 0x150 = cntGet s.core pgSched 0x150 + 1 ∧
       t.core.sched.rot = (s.core.sched.rot + 1) % 256 ∧
       (∀ x, x < 256 → (getSched t.core x).snap = (getCtx s.core x).engTime ∧ (getSched t.core x).weight = weightReg s.core x ∧
         (getSched t.core x).def_ = (if regSchedCtrlShareEn s.core = true then newDeficit s.core total wsum cap x
           else (getSched s.core x).def_) ∧ (getSched t.core x).rank < 256)) ∧
  -- MARVER_ADAPTATION: phi takes its reset value without adaptation, rises where the arrays alone are busy, falls where HBM
  -- alone is, and stays otherwise, inside its limits; the utilisation record is read first where there is one.
  (∀ (s : State) (st : QStatus) (busy total : Word), s.runs = true →
     let adapted (t : State) :=
       let high := regMarvUtilHighArray s.core ≤ t.core.marv.ua
       let hot := regMarvUtilHighHbm s.core ≤ t.core.marv.uh
       cntGet t.core pgMarv 0x148 = cntGet s.core pgMarv 0x148 + 1 ∧ t.core.marv.adapting = false ∧
       (regMarvCtrlAdaptEn s.core = false → t.core.marv.phi = regMarvPhiInit s.core) ∧
       (regMarvCtrlAdaptEn s.core = true →
         (high → ¬hot → t.core.marv.phi = min (s.core.marv.phi + regMarvPhiStep s.core) (regMarvPhiLimMax s.core)) ∧
         (hot → ¬high → t.core.marv.phi = max (s.core.marv.phi - regMarvPhiStep s.core) (regMarvPhiLimMin s.core)) ∧
         ((high ↔ hot) → t.core.marv.phi = s.core.marv.phi))
     (∀ a l, takeReq s.core .marvUtil = none → s.core.ras.hold = false → s.core.qsc.req = false →
       ltake (alarmIs 6 0) s.core.tu.due = some (a, l) →
       (regMarvHbmUtil s.core = 0 →
         ∃ t, exec (.marverAdaptation st busy total) s = .next t ∧ adapted t ∧ t.core.marv.uh = 0) ∧
       (regMarvHbmUtil s.core ≠ 0 →
         ∃ t, exec (.marverAdaptation st busy total) s = .next t ∧ t.core.marv.adapting = true ∧
           t.core.marv.phi = s.core.marv.phi ∧
           Made t.core (fun r => r.op = .read ∧ r.tag = .marvUtil ∧ r.addr = regMarvHbmUtil s.core ∧ r.len = 256)) ∧
       (arraysPresent s.core * s.core.marv.span ≠ 0 →
         ∃ t, exec (.marverAdaptation st busy total) s = .next t ∧
           t.core.marv.ua = s.core.marv.busy * 100 / (arraysPresent s.core * s.core.marv.span))) ∧
     (∀ r c, takeReq s.core .marvUtil = some (r, c) →
       ∃ t, exec (.marverAdaptation st busy total) s = .next t ∧ adapted t ∧ t.core.marv.ua = s.core.marv.ua ∧
         (st ≠ .ok → t.core.marv.uh = 0 ∧ ((getPage s.core pgMarv).code = 0 → (getPage t.core pgMarv).code = 0x11)) ∧
         (∀ b t0, st = .ok → s.core.marv.prev = some (b, t0) → s.core.marv.utilAddr = regMarvHbmUtil s.core → t0 ≠ total →
           geW total t0 = true → t.core.marv.uh = (busy - b).toNat * 100 / (total - t0).toNat)))

/-- A preempted program is saved and restored. -/
def Obligations.ProgramsAreSavedAndRestored : Prop :=
  -- PREEMPTION_SAVE_WRITE_ACK: the last sequencer-state write frees the sequencer, the directory's is followed by the
  -- header's, and the header's makes the queue SAVED; a failed write faults. POINT_LATE flags the queue.
  ((∀ (s : State) (q : Fin 512) (st : QStatus) (k : Nat) (tag : ReqTag) (r : Req) (c : Core), s.runs = true →
     saveTag s.core q.val = some (tag, k) → takeReq s.core tag = some (r, c) →
     let p := getPre s.core q.val
     let sq := (getQ s.core q.val).sq
     (tag = .saveSeq q.val → p.phase = .draining → k ≤ p.seqLeft → st = .ok → 1 < p.seqLeft →
       ∃ t, exec (.preemptionSaveWriteAck q st) s = .next t ∧ getPre t.core q.val = { p with seqLeft := p.seqLeft - 1 }) ∧
     (tag = .saveSeq q.val → p.phase = .draining → k ≤ p.seqLeft → st = .ok → p.seqLeft = 1 →
       ∃ t, exec (.preemptionSaveWriteAck q st) s = .next t ∧ (getPre t.core q.val).seqLeft = 0 ∧
         ((getSq s.core sq).q = some q.val → (getSq t.core sq).q = none) ∧
         (openTasks s.core q.val = 0 → (getPre t.core q.val).phase = .saving)) ∧
     (tag = .saveDir q.val → p.phase = .saving → p.step = 1 → k = 1 → st = .ok →
       ∃ t, exec (.preemptionSaveWriteAck q st) s = .next t ∧ getPre t.core q.val = { p with step := 2 } ∧
         Made t.core (fun w => w.op = .write ∧ w.tag = .saveHdr q.val ∧ w.addr = saveAt s.core q.val)) ∧
     (tag = .saveHdr q.val → p.phase = .saving → p.step = 2 → k = 1 → st = .ok →
       ∃ t, exec (.preemptionSaveWriteAck q st) s = .next t ∧ getPre t.core q.val = { p with step := 0, phase := .saved }) ∧
     (tag = .saveDir q.val → p.phase = .saving → p.step = 1 → k = 1 → st ≠ .ok → HoldsFaults s.core q.val →
       (getQ s.core q.val).st = .preempted →
       ∃ t, exec (.preemptionSaveWriteAck q st) s = .next t ∧ Guilty t.core q.val 6 2 p.pc)) ∧
   (∀ (s : State) (q : Fin 512) (since : Word), s.runs = true → (getQ s.core q.val).pointFrom = some since →
     (getQ s.core q.val).pointLate = false → passedUs s.core since (regSchedPointLimitUs s.core) = true →
     ∃ t, exec (.pointLate q) s = .next t ∧ cntGet t.core pgSched 0x178 = cntGet s.core pgSched 0x178 + 1 ∧
       (getPage t.core pgSched).irqRaw.getLsbD 4 = true ∧
       ((getSq s.core (getQ s.core q.val).sq).stall = .none →
         getQ t.core q.val = { getQ s.core q.val with pointLate := true }))) ∧
  -- RESTORE gives a free sequencer to the SAVED queue that the FE chooses, and reads its save area; RESTORE_READ_DONE resumes
  -- a program that needs no restore issue, keeps what it has read until its issues have closed, and faults on an area that
  -- fails its checks.
  ((∀ (s : State) (n : Fin 32) (q p : Nat), s.runs = true → mayStart s.core = true → (getSq s.core n.val).q = none →
     sqHeld s.core n.val = false → chooseQueue s.core n.val = some (q, p) → (getQ s.core q).st = .preempted →
     ∃ t, exec (.restore n) s = .next t ∧ (getSq t.core n.val).q = some q ∧ (getSq t.core n.val).stall = .point ∧
       (getPre t.core q).phase = .restoring ∧ rotOf t.core n.val p = q ∧
       Made t.core (fun r => r.op = .read ∧ r.tag = .restHdr q ∧ r.addr = saveAt s.core q ∧ r.len = 0x1C00)) ∧
   (∀ (s : State) (q : Fin 512) (st : QStatus) (data : List Word) (r : Req) (c : Core), s.runs = true →
     takeReq s.core (.restHdr q.val) = some (r, c) →
     (s.core.io.reqs.filter (fun r => decide (r.tag = .restHdr q.val))).length = 1 →
     let p := getPre s.core q.val
     let sq := (getQ s.core q.val).sq
     p.phase = .restoring → p.rest = [] →
     (st = .ok → restoreOk s.core q.val data = true → saveIssues p = [] → p.redo = false →
       (issuesWhere s.core (issueSave q.val)).isEmpty = true → data.length = 896 →
       ∃ t, exec (.restoreReadDone q st data) s = .next t ∧ (getQ t.core q.val).st = .running ∧
         (getSq t.core sq).q = some q.val ∧ (getSq t.core sq).pc = (seqStateOf data).pc ∧ (getSq t.core sq).s = (seqStateOf data).s ∧
         (getPre t.core q.val).phase = .none) ∧
     (st = .ok → restoreOk s.core q.val data = true → saveIssues p ≠ [] →
       ∃ t, exec (.restoreReadDone q st data) s = .next t ∧
         getPre t.core q.val = { p with rest := data.take 896, toIssue := saveIssues p }) ∧
     (st ≠ .ok ∨ restoreOk s.core q.val data = false → HoldsFaults s.core q.val → (getQ s.core q.val).st = .preempted →
       ∃ t, exec (.restoreReadDone q st data) s = .next t ∧ Guilty t.core q.val 6 3 p.pc)))

/-- MIX_ACCEPT places the oldest request's history in its slot and patch slots, records a slot in use, and drops a request whose
instance is gone; CHUNK_RELEASE makes the next chunk copy due, and BUBBLE_FILL gives one to an idle lane. -/
def Obligations.MixesAreAcceptedAndReleased : Prop :=
  (∀ (s : State) (r : MixReq) (l : List MixReq), s.runs = true → mayStart s.core = true → s.core.marv.reqs = r :: l →
    let x := getInst s.core r.inst
    (x.st ≠ .free → x.st ≠ .aborting → x.serial = r.serial → (tget x.mslots {} r.slot).used = false →
      patchIn s.core r.inst = true →
      let lg := mixLog s.core r.chunk r.len
      ∃ t, exec .mixAccept s = .next t ∧ t.core.marv.reqs = l ∧
        tget (getInst t.core r.inst).mslots {} r.slot =
          { used := true, n := (r.len + 2 ^ lg - 1) / 2 ^ lg, size := 2 ^ lg, events := r.len, base := r.base } ∧
        patchSlot t.core r.inst (56 + 2 * r.slot) = w64 r.base ∧
        cntGet t.core pgMarv 0x130 = cntGet s.core pgMarv 0x130 + 1) ∧
    (x.st ≠ .free → x.st ≠ .aborting → x.serial = r.serial → (tget x.mslots {} r.slot).used = true →
      ∃ t, exec .mixAccept s = .next t ∧ t.core.marv.reqs = l ∧
        ((getPage s.core pgMarv).code = 0 → (getPage t.core pgMarv).code = 0x10)) ∧
    (x.st = .free ∨ x.st = .aborting ∨ x.serial ≠ r.serial →
      ∃ t, exec .mixAccept s = .next t ∧ Keeps s t [.io, .marv] ∧ t.core.marv = { s.core.marv with reqs := l })) ∧
  (∀ (s : State) (i : Fin 16384) (k : Fin 4) (task : Nat), s.runs = true → mayStart s.core = true →
    let m := tget (getInst s.core i.val).mslots {} k.val
    m.task = some task → (getInst s.core i.val).st = .running → m.released < m.n →
    m.inflight < max 1 (regMarvInflight s.core) →
    ∃ t, exec (.chunkRelease i k) s = .next t ∧
      t.core.de.due = s.core.de.due ++ [{ inst := i.val, task := task, copy := m.released }] ∧
      tget (getInst t.core i.val).mslots {} k.val = { m with released := m.released + 1, inflight := m.inflight + 1 } ∧
      cntGet t.core pgMarv 0x138 = cntGet s.core pgMarv 0x138 + 1) ∧
  (∀ (s : State) (k : Fin 64) (i slot task n : Nat), s.runs = true → mayStart s.core = true → s.core.lanesUp = true →
    regMarvCtrlBubbleEn s.core = true → k.val < lanesOn s.core → s.core.de.hold = [] → laneIdle s.core k.val = true →
    argmin (fun b => entryKey s.core none b.1 b.2.2.1 0) (bubbles s.core k.val) = some (i, slot, task, n) →
    ∃ t, exec (.bubbleFill k) s = .next t ∧
      (∃ z, (getLane t.core k.val).ready.getLast? = some z ∧ z.inst = i ∧ z.task = task ∧ z.copy + z.runm1 = n) ∧
      cntGet t.core pgMarv 0x140 = cntGet s.core pgMarv 0x140 + 1 ∧
      cntGet t.core pgMarv 0x138 = cntGet s.core pgMarv 0x138 + 1)

/-- A route is computed, lands and agrees with its peers. -/
def Obligations.RoutesAreComputedAndLand : Prop :=
  -- ROUTE_COMPUTE begins the oldest queued route, whose descriptor is read; with the placement in, the input is read; and a
  -- failed read ends the route with a fault of its program's queue.
  (∀ (s : State) (st : QStatus) (data : List Word), s.runs = true →
     (∀ r, routeInTag s.core = none → mayStart s.core = true → s.core.shr.routes.any (fun (r : Route) => r.st == .computing) = false →
       s.core.shr.routes.find? (fun (r : Route) => r.st == .queued) = some r →
       ∃ t, exec (.routeCompute st data) s = .next t ∧
         (∃ x ∈ t.core.shr.routes, x.id = r.id ∧ x.st = .computing) ∧
         Made t.core (fun q => q.op = .read ∧ q.tag = .routeIn r.id ∧ q.addr = r.desc ∧ q.len = 256)) ∧
     (∀ id q c r, routeInTag s.core = some id → takeReq s.core (.routeIn id) = some (q, c) → findRoute s.core id = some r →
       (st = .ok → r.descW ≠ [] → r.place = [] → data ≠ [] → inputLen r ≠ 0 →
         ∃ t, exec (.routeCompute st data) s = .next t ∧
           findRoute t.core id = some { r with place := data } ∧
           Made t.core (fun q => q.op = .read ∧ q.tag = .routeIn id ∧ q.addr = dAddr r.descW 0 ∧ q.len = inputLen r)) ∧
       (st = .ok → r.descW = [] → r.dead = false → dGroup data ≤ 15 →
         ∃ t, exec (.routeCompute st data) s = .next t ∧
           (getGroup t.core (dGroup data)).seq = ((getGroup s.core (dGroup data)).seq + 1) % 2 ^ 16 ∧
           (∀ x, findRoute t.core id = some x → x.descW = data ∧ x.bound = true ∧ x.group = dGroup data ∧
             x.seq = (getGroup s.core (dGroup data)).seq ∧ x.experts = dE data)) ∧
       (st = .ok → r.descW ≠ [] → r.place ≠ [] →
         ∃ t, exec (.routeCompute st data) s = .next t ∧
           (∀ x, findRoute t.core id = some x → x.plan = some (dAddr r.descW 4) ∧ x.rows.length = r.experts)) ∧
       (st ≠ .ok → r.dead = false → (getInst s.core r.inst).serial = r.serial → (getInst s.core r.inst).st = .running →
         HoldsFaults s.core (getInst s.core r.inst).q → (getQ s.core (getInst s.core r.inst).q).st = .running →
         ∃ t, exec (.routeCompute st data) s = .next t ∧ findRoute t.core id = none ∧
           Guilty t.core (getInst s.core r.inst).q 7 2 r.pc ∧ t.core.shr.lastFault = r32 (2 * 2 ^ 24 + r.seq)))) ∧
  -- ROUTE_LAND: a computed route whose writes are all acknowledged lands in its instance's slot and, without peers, is over;
  -- an acknowledgement counts its writes down. ROUTE_AGREED ends a route whose STATE is written; AGREE_TIMEOUT faults one that
  -- has waited too long; COUNT_MESSAGE_RESEND sends a count message again.
  ((∀ (s : State) (r : Route), s.runs = true → findRoute s.core r.id = some r →
     (takeReq s.core (.routeOut r.id) = none → r.st = .computing → r.plan.isSome = true → r.writes = 0 → patchIn s.core r.inst = true →
       r.peers = [] →
       ∃ t, exec (.routeLand r.id .ok) s = .next t ∧ findRoute t.core r.id = none ∧
         tget (getInst t.core r.inst).rslots .empty r.slot = .landed r.experts r.rows ∧
         cntGet t.core pgShr 0x160 = cntGet s.core pgShr 0x160 + 1 ∧ cntGet t.core pgShr 0x1A0 = cntGet s.core pgShr 0x1A0 + 1) ∧
     (∀ q c, takeReq s.core (.routeOut r.id) = some (q, c) → r.st = .computing → 1 < r.writes →
       ∃ t, exec (.routeLand r.id .ok) s = .next t ∧ findRoute t.core r.id = some { r with writes := r.writes - 1 }) ∧
     (∀ q c st, takeReq s.core (.routeOut r.id) = some (q, c) → st ≠ .ok →
       ∃ t, exec (.routeLand r.id st) s = .next t ∧ findRoute t.core r.id = none ∧
         t.core.shr.lastFault = r32 (2 * 2 ^ 24 + r.seq)) ∧
     (∀ q c st, takeReq s.core (.planState r.id) = some (q, c) →
       ∃ t, exec (.routeAgreed r.id st) s = .next t ∧ findRoute t.core r.id = none ∧
         (st = .ok → cntGet t.core pgShr 0x1A0 = cntGet s.core pgShr 0x1A0 + 1) ∧
         (st ≠ .ok → t.core.shr.lastFault = r32 (2 * 2 ^ 24 + r.seq))) ∧
     (∀ since, r.landed = some since → r.st = .waiting → r.stateOut = false → s.core.qsc.req = false →
       passedUs s.core since (regShrAgreeUs s.core) = true →
       ∃ t, exec (.agreeTimeout r.id) s = .next t ∧ findRoute t.core r.id = none ∧
         t.core.shr.lastFault = r32 (5 * 2 ^ 24 + r.seq) ∧ (getPage t.core pgShr).irqRaw.getLsbD 2 = true) ∧
     (∀ (d : Fin 64) p, r.peers.find? (fun p => p.die == d.val && p.backoff) = some p → mayStart s.core = true →
       linkUpTo s.core d.val = true →
       ∃ t, exec (.countMessageResend r.id d) s = .next t ∧
         findRoute t.core r.id = some { r with peers := r.peers.map (fun y => if y.die = d.val then { y with backoff := false } else y) } ∧
         t.core.pp.msgs.length + t.core.pp.msgHeld.length = s.core.pp.msgs.length + s.core.pp.msgHeld.length + 1)))

/-- A placement epoch proposes; a stream is checked, transfers and ends. -/
def Obligations.PlacementsAndStreams : Prop :=
  -- PLACEMENT_EPOCH, on its alarm, takes and clears the popularity counters and reads the placement that a proposal needs, or
  -- writes the snapshot; PROPOSAL_APPLY arms the flip to the buffer that the proposal was written to.
  ((∀ (s : State) (a : Alarm) (l : List Alarm) (st : QStatus) (data : List Word), s.runs = true → s.core.qsc.req = false →
     takeReq s.core .popSnap = none → s.core.shr.snap = none → ltake (alarmIs 7 0) s.core.tu.due = some (a, l) →
     let k := regShrSlowCfgPopGroup s.core
     let g := getGroup s.core k
     ∃ t x, exec (.placementEpoch st data) s = .next t ∧ t.core.shr.popReq = [] ∧ t.core.shr.popKept = [] ∧
       t.core.shr.snap = some x ∧ x.at_ = now s.core ∧ x.group = k ∧ x.gen = g.gen ∧ x.req = s.core.shr.popReq ∧
       x.kept = s.core.shr.popKept ∧
       (regShrCtrlReviseEn s.core = true → s.core.shr.popReq ≠ [] →
         Made t.core (fun r => r.op = .read ∧ r.tag = .popSnap ∧ r.addr = grpBuffer g g.sel ∧ r.len = 8192)) ∧
       (regShrCtrlReviseEn s.core = false ∨ s.core.shr.popReq = [] → x.left = 2 ∧
         Made t.core (fun r => r.op = .write ∧ r.tag = .popSnap ∧ r.addr = regShrPropBase s.core))) ∧
   (∀ (s : State) (st : QStatus) (k gen : Nat) (sel : Bool) (r : Req) (c : Core), s.runs = true →
     s.core.shr.applying = some (k, sel, gen) → takeReq s.core (.proposal k) = some (r, c) →
     ∃ t, exec (.proposalApply st) s = .next t ∧ t.core.shr.applying = none ∧
       (st = .ok → getGroup t.core k = { getGroup s.core k with
         next := r32 (gen * 2 ^ 16 + 2 + b2n sel), nextSeq := (getGroup s.core k).seq }) ∧
       (st ≠ .ok → getGroup t.core k = getGroup s.core k ∧
         ((getPage s.core pgShr).code = 0 → (getPage t.core pgShr).code = 0x11)))) ∧
  -- STREAM_ENTRY_CHECK makes a stream whose entry passes its checks ACTIVE, and faults its queue otherwise; STREAM_TRANSFER
  -- issues the next transfer on the stream's lane, or wakes its engine; STREAM_ARM_END signals DONE with the generation, and
  -- the pending arm loads or the slot is free.
  (∀ (s : State) (n : BitVec 16), s.runs = true →
     let x := getStream s.core n.toNat
     (∀ st data r c, strmReadGen s.core n.toNat = some x.cur.gen.toNat →
       takeReq s.core (.strmEntry n.toNat x.cur.gen.toNat) = some (r, c) → x.st = .loading →
       (entryFault s.core x.cur st data = none →
         ∃ t, exec (.streamEntryCheck n st data) s = .next t ∧ (getStream t.core n.toNat).st = .active ∧
           (getStream t.core n.toNat).cur.entry = data.take 8 ∧ (getStream t.core n.toNat).cur.gen = x.cur.gen ∧
           (getStream t.core n.toNat).sent = 0 ∧ (getStream t.core n.toNat).pend = x.pend) ∧
       (∀ code, entryFault s.core x.cur st data = some code → HoldsFaults s.core x.cur.q → (getQ s.core x.cur.q).st = .running →
         x.pend = none →
         ∃ t, exec (.streamEntryCheck n st data) s = .next t ∧ Guilty t.core x.cur.q 8 code x.cur.pc ∧
           (getStream t.core n.toNat).st = .idle)) ∧
     (∀ path off again, xferNext s.core n.toNat = some (path, off, again) → xferRoom s.core n.toNat = true →
       xferFirst s.core n.toNat = true →
       let k := steLane x.cur.entry
       (gated s.core (0x1080 + k) = false →
         ∃ t id y, exec (.streamTransfer n) s = .next t ∧ tfind (getLane t.core k).issues id = some y ∧
           tfind (getLane s.core k).issues id = none ∧ y.kind = .stream n.toNat ∧ y.eng = 0x1080 + k ∧ y.copy = path ∧ y.order = off ∧
           getStream t.core n.toNat = pathStep x path off again ∧
           cntGet t.core pgStrm 0x158 = cntGet s.core pgStrm 0x158 + 1) ∧
       (gated s.core (0x1080 + k) = true →
         ∃ t, exec (.streamTransfer n) s = .next t ∧ Keeps s t [.io, .engs] ∧ (getEng t.core (0x1080 + k)).cgLow = true)) ∧
     (armOver s.core n.toNat = true → mayStart s.core = true →
       ∃ t id, exec (.streamArmEnd n) s = .next t ∧
         StOp.signal (.crucible id) (steDone x.cur.entry) x.cur.gen ∈ t.core.st.fifo ++ t.core.st.offered ∧
         (x.pend = none → getStream t.core n.toNat = {}) ∧
         (∀ a, x.pend = some a → getStream t.core n.toNat = { st := .loading, cur := a } ∧
           Made t.core (fun r => r.op = .read ∧ r.tag = .strmEntry n.toNat a.gen.toNat))))

/-- Flits are checked; sequenced frames are delivered in order, acknowledged and sent again. -/
def Obligations.FlitsAndFrames : Prop :=
  -- A received flit is checked before it acts, whatever its type: a wrong CRC counts in CRC_ERR, a wrong destination, a source
  -- that is no partner or a type that is not listed counts in BAD_FLIT, and a flit other than a heartbeat outside its session
  -- counts in EPOCH_DROP; it changes nothing else. A die that keeps its Punty Port down discards it uncounted.
  (∀ (s : State) (x : BitVec 512) (i : Instr), s.runs = true →
     (i = .hb x ∨ i = .sequencedFrameReceipt x ∨ i = .ack x ∨ i = .nak x ∨ i = .resetAck x) →
     (role s.core = 0 ∨ s.core.pp.on = false → exec i s = .next s) ∧
     (role s.core ≠ 0 → s.core.pp.on = true →
       (flitAt x 60 4 ≠ (crc32c (toBytes x.toNat 60)).toNat → exec i s = .next { s with core := cntAdd s.core pgPp 0x1A8 1 }) ∧
       (flitAt x 60 4 = (crc32c (toBytes x.toNat 60)).toNat →
         (flitAt x 1 1 ≠ dieId s.core ∨ 64 ≤ flitAt x 2 1 ∨ wbit (peerMask s.core) (flitAt x 2 1) = false ∨
           flitAt x 2 1 = dieId s.core ∨ frameListed (flitAt x 0 1) = false) →
         exec i s = .next { s with core := cntAdd s.core pgPp 0x1B8 1 })) ∧
     (Hears s.core x → frameListed (flitAt x 0 1) = true → flitAt x 0 1 ≠ tyHb →
       (linkUpTo s.core (flitAt x 2 1) = false ∨ (getPeer s.core (flitAt x 2 1)).epoch ≠ some (r32 (flitAt x 4 4))) →
       exec i s = .next { s with core := cntAdd s.core pgPp 0x1B0 1 })) ∧
  -- SEQUENCED_FRAME_RECEIPT: the frame whose SEQ is EXP is delivered and EXP counts one, if the receive hold of 16 frames has
  -- room; one ahead of EXP, or one with no room, is discarded; one behind EXP is a duplicate and counted.
  (∀ (s : State) (x : BitVec 512), s.runs = true → InSession s.core x → sequenced (flitAt x 0 1) = true →
     let die := flitAt x 2 1
     let p := getPeer s.core die
     let seq := r32 (flitAt x 8 4)
     ∃ t, exec (.sequencedFrameReceipt x) s = .next t ∧
       (seq = p.exp → p.hold.length < 16 → (getPeer t.core die).exp = p.exp + 1 ∧
         (getPeer t.core die).hold = p.hold ++ [{ ty := BitVec.ofNat 8 (flitAt x 0 1), pay := BitVec.ofNat 352 (flitAt x 16 44) }]) ∧
       (seq ≠ p.exp ∨ 16 ≤ p.hold.length → (getPeer t.core die).hold = p.hold ∧ (getPeer t.core die).exp = p.exp) ∧
       (seq ≠ p.exp → ahead32 seq p.exp = false → cntGet t.core pgPp 0x1A0 = cntGet s.core pgPp 0x1A0 + 1)) ∧
  -- ACK, and a NAK's EXP, free the frames before the number that they carry; a NAK for UNA itself, and the retransmit timer,
  -- send every frame from UNA on again with its SEQ; ACK_TIMER sends the EXP that is owed.
  ((∀ (s : State) (x : BitVec 512), s.runs = true → InSession s.core x →
     let die := flitAt x 2 1
     let p := getPeer s.core die
     let a := r32 (flitAt x 12 4)
     let e := r32 (flitAt x 16 4)
     (flitAt x 0 1 = tyAck →
       ∃ t, exec (.ack x) s = .next t ∧
         ((flitAt x 3 1).testBit 0 = true → ahead32 a p.una = true → ahead32 a p.next = false →
           (getPeer t.core die).una = a ∧ (getPeer t.core die).t0 = now s.core ∧
           ∃ l, (getPeer t.core die).frames = p.frames.drop (a - p.una).toNat ++ l) ∧
         ((flitAt x 3 1).testBit 0 = false ∨ ahead32 a p.una = false ∨ ahead32 a p.next = true →
           (getPeer t.core die).una = p.una)) ∧
     (flitAt x 0 1 = tyNak →
       ∃ t, exec (.nak x) s = .next t ∧
         (ahead32 e p.una = true → ahead32 e p.next = false → (getPeer t.core die).una = e) ∧
         (e = p.una → 2000 ≤ (now s.core - p.lastBack).toNat → linkCan s.core die = true → WentBack s.core t.core die))) ∧
   (∀ (s : State) (d : Fin 64), s.runs = true →
     (linkUpTo s.core d.val = true → 0 < (getPeer s.core d.val).sinceAck → flitsFlow s.core = true →
       ∃ t f, exec (.ackTimer d) s = .next t ∧ (getPeer t.core d.val).sinceAck = 0 ∧ Drove t.core (.flit f) ∧ flitAt f 0 1 = tyAck ∧
         flitAt f 1 1 = d.val ∧ flitAt f 12 4 = (getPeer s.core d.val).exp.toNat) ∧
     ((getPeer s.core d.val).frames ≠ [] → passedUs s.core (getPeer s.core d.val).t0 (regPpTimeRetxUs s.core) = true →
       linkCan s.core d.val = true →
       ∃ t, exec (.retransmitTimeout d) s = .next t ∧ WentBack s.core t.core d.val)))

/-- Heartbeats make and end sessions, are sent, and show a lost partner. -/
def Obligations.HeartbeatsMakeAndEndSessions : Prop :=
  -- HB: a heartbeat on a link in HELLO records its sender's epoch, and brings the link UP with fresh numbers if the sender
  -- knows this die's epoch; one on an UP link with another epoch, or from a sender that no longer knows this die's, ends the
  -- session; any other keeps it and may open it for sequenced frames. A worker copies what its manager has agreed.
  (∀ (s : State) (x : BitVec 512), s.runs = true → Hears s.core x → flitAt x 0 1 = tyHb →
     let die := flitAt x 2 1
     let p := getPeer s.core die
     let ep := r32 (flitAt x 4 4)
     let known := (flitAt x 3 1).testBit 1 && r32 (flitAt x 8 4) == s.core.pp.ownEpoch
     (p.st = .hello → known = false →
       ∃ t, exec (.hb x) s = .next t ∧ (getPeer t.core die).st = .hello ∧ (getPeer t.core die).epoch = some ep) ∧
     (p.st = .hello → known = true →
       ∃ t, exec (.hb x) s = .next t ∧ (getPeer t.core die).st = .up ∧ (getPeer t.core die).epoch = some ep ∧
         (getPeer t.core die).una = 0 ∧ (getPeer t.core die).exp = 0 ∧
         cntGet t.core pgPp 0x1C8 = cntGet s.core pgPp 0x1C8 + 1 ∧ (getPage t.core pgPp).irqRaw.getLsbD 4 = true) ∧
     (p.st = .up → p.epoch ≠ some ep →
       ∃ t, exec (.hb x) s = .next t ∧ (getPeer t.core die).st = .hello ∧ (getPeer t.core die).epoch = some ep ∧
         (getPeer t.core die).hold = [] ∧ (getPeer t.core die).lastCause = 2 ∧
         cntGet t.core pgPp 0x1C0 = cntGet s.core pgPp 0x1C0 + 1 ∧ (getPage t.core pgPp).irqRaw.getLsbD 2 = true) ∧
     (p.st = .up → p.epoch = some ep → known = false →
       ∃ t, exec (.hb x) s = .next t ∧ (getPeer t.core die).st = .hello ∧ (getPeer t.core die).hold = [] ∧
         (getPeer t.core die).lastCause = 3 ∧ cntGet t.core pgPp 0x1C0 = cntGet s.core pgPp 0x1C0 + 1) ∧
     (p.st = .up → p.epoch = some ep → known = true →
       ∃ t, exec (.hb x) s = .next t ∧ (getPeer t.core die).st = .up ∧ (getPeer t.core die).heard = some (now s.core) ∧
         (getPeer t.core die).txReady = (p.txReady || (flitAt x 3 1).testBit 2) ∧
         (getPeer t.core die).dig = w64 (flitAt x 24 8) ∧ (getPeer t.core die).gen = r32 (flitAt x 20 4) ∧
         (role s.core = 1 → s.core.rs.dieBusy = false → (flitAt x 3 1).testBit 3 = false →
           (s.core.rs.dieDigest = some (w64 (flitAt x 24 8)) → r32 (regGlbCfgGen s.core) = r32 (flitAt x 20 4) →
             (getPeer t.core die).skew = false ∧ (getPeer t.core die).differ = 0) ∧
           (s.core.rs.dieDigest ≠ some (w64 (flitAt x 24 8)) → max 1 (regPpSkewHold s.core) ≤ p.differ + 1 →
             (getPeer t.core die).skew = true ∧
             (p.skew = false → t.core.pp.skewCnt = s.core.pp.skewCnt + 1 ∧ (getPage t.core pgPp).irqRaw.getLsbD 3 = true)))) ∧
     (p.st ≠ .down → isWorker s.core = true → die = regPpCfgMgrDie s.core → flitAt x 16 1 % 4 = 1 →
       ∃ t, exec (.hb x) s = .next t ∧ t.core.pp.agreed = true ∧ t.core.pp.agreedDig = w64 (flitAt x 40 8) ∧
         t.core.pp.agreedGen = r32 (flitAt x 48 4) ∧ t.core.pp.sysOk = (flitAt x 3 1).testBit 5 ∧
         t.core.pp.skewed = (flitAt x 3 1).testBit 6)) ∧
  -- HEARTBEAT_ALARM: on its alarm a link whose partner has not been heard for LOSS_HB periods ends its session and forgets the
  -- partner's epoch, and a heartbeat goes to every partner whose link is not DOWN.
  (∀ (s : State) (a : Alarm) (c : Core), s.runs = true → alarmFire s.core 8 0 = some (a, c) →
     ∃ t, exec .heartbeatAlarm s = .next t ∧
       (∀ d, linkUpTo s.core d = true → linkLost s.core d = true →
         (getPeer t.core d).st = .hello ∧ (getPeer t.core d).epoch = none ∧ (getPeer t.core d).lastCause = 1) ∧
       (∀ d ∈ liveDies s.core, d < 64 → flitsFlow s.core = true →
         ∃ f, Drove t.core (.flit f) ∧ flitAt f 0 1 = tyHb ∧ flitAt f 1 1 = d ∧ flitAt f 4 4 = s.core.pp.ownEpoch.toNat))

/-- Remote sync operations, messages, resets and casts of a table flip. -/
def Obligations.RemoteOperationsActAndCasts : Prop :=
  -- SYNC_OP hands a partner's operation to the sync table, SYNC_REL releases the sequencer that waits under its WAIT_ID,
  -- returns the units that reach no waiter, or ends the wait with the fault that its status names, and SYNC_CANCEL ends a
  -- registration.
  (∀ (s : State) (d : Fin 64) (f : Frame) (rest : List Frame), s.runs = true →
     let h := payAt f 18 2
     let x := w64 (payAt f 24 8)
     let wid := payAt f 20 2
     (HeadFrame s.core d.val tySyncOp f rest → stRoom s.core = true →
       ∃ t, exec (.syncOp d) s = .next t ∧ (getPeer t.core d.val).hold = rest ∧
         (payAt f 16 1 = 0 → .signal (.punty d.val) h x ∈ t.core.st.fifo) ∧
         (payAt f 16 1 = 1 → .add (.punty d.val) h x ∈ t.core.st.fifo) ∧
         (payAt f 16 1 = 2 → .remoteWait d.val (wid % 32) (wid / 32) h x ∈ t.core.st.fifo)) ∧
     (HeadFrame s.core d.val tySyncRel f rest →
       (∀ v, relMatches s.core d.val h wid = some v →
         (payAt f 16 1 = 0 →
           ∃ t, exec (.syncRel d) s = .next t ∧ (getPeer t.core d.val).hold = rest ∧ { sq := wid % 32, h := h } ∈ t.core.st.releases) ∧
         (∀ q code, (payAt f 16 1, code) ∈ [(1, 0x0C), (2, 0x0B), (3, 0x0A)] → (getSq s.core (wid % 32)).q = some q →
           (getQ s.core q).st = .running → HoldsFaults s.core q →
           ∃ t, exec (.syncRel d) s = .next t ∧ Guilty t.core q 2 code (getSq s.core (wid % 32)).pc)) ∧
       (relMatches s.core d.val h wid = none → payAt f 16 1 = 0 → payAt f 17 1 = 1 →
         ∃ t, exec (.syncRel d) s = .next t ∧ (getPeer t.core d.val).hold = rest ∧
           Offered t.core d.val tySyncOp (fun g => payAt g 16 1 = 0 ∧ payAt g 18 2 = h ∧ payAt g 24 8 = x.toNat))) ∧
     (HeadFrame s.core d.val tySyncCancel f rest →
       ∃ t, exec (.syncCancel d) s = .next t ∧ (getPeer t.core d.val).hold = rest ∧
         (∀ w ∈ (getObj t.core h).waits, w.who ≠ .remote d.val (wid % 32) (wid / 32)) ∧
         (∀ o ∈ t.core.st.fifo, isRemoteWait d.val wid o = false))) ∧
  -- MSG hands a partner's message to the message fabric, or keeps one of four words for its MSG_X, which completes it; MSG_ANS
  -- hands the answer to the sequencer whose message it answers.
  (∀ (s : State) (d : Fin 64) (f : Frame) (rest : List Frame), s.runs = true →
     (HeadFrame s.core d.val tyMsg f rest → mfRoom s.core = true →
       ∃ t, exec (.msg d) s = .next t ∧ (getPeer t.core d.val).hold = rest ∧
         (fld (payAt f 18 2) 12 2 = 3 → (getPeer t.core d.val).msgX = some f.pay ∧ t.core.mf.inbox = s.core.mf.inbox) ∧
         (fld (payAt f 18 2) 12 2 ≠ 3 →
           t.core.mf.inbox = s.core.mf.inbox ++ [(.die d.val (payAt f 16 2), msgOf d.val f)])) ∧
     (∀ g : Frame, HeadFrame s.core d.val tyMsgX f rest → mfRoom s.core = true → (getPeer s.core d.val).msgX = some g.pay →
       g.ty = BitVec.ofNat 8 tyMsg →
       ∃ t, exec (.msgX d) s = .next t ∧ (getPeer t.core d.val).hold = rest ∧ (getPeer t.core d.val).msgX = none ∧
         t.core.mf.inbox = s.core.mf.inbox ++
           [(.die d.val (payAt g 16 2), { msgOf d.val g with words := (msgOf d.val g).words ++ [w64 (payAt f 16 8)] })]) ∧
     (∀ m l q, HeadFrame s.core d.val tyMsgAns f rest →
       ltake (fun (m : RemMsg) => m.mid == payAt f 16 2 && m.die == d.val) s.core.pp.msgs = some (m, l) → m.src = .sq q →
       ∃ t, exec (.msgAns d) s = .next t ∧ (getPeer t.core d.val).hold = rest ∧
         t.core.mf.answers = s.core.mf.answers ++ [(q, payAt f 18 1)] ∧ (s.core.pp.msgHeld = [] → t.core.pp.msgs = l))) ∧
  -- WRST on the manager sends a RESET with the worker's epoch, or ends at once with NO_SESSION; RESET_ACK ends it with ACKED
  -- and ends the session.
  ((∀ (s : State) (v : Reg), s.runs = true → role s.core = 1 → rbit v 31 = true →
     (linkUpTo s.core (rf v 0 6) = true →
       ∃ t, exec (.wrst v) s = .next t ∧ t.core.pp.wrstBusy = true ∧ t.core.pp.wrstDie = rf v 0 6 ∧
         Offered t.core (rf v 0 6) tyReset (fun f =>
           payAt f 16 4 = 0x0000C1A5 ∧ payAt f 20 4 = ((getPeer s.core (rf v 0 6)).epoch.getD 0).toNat)) ∧
     (linkUpTo s.core (rf v 0 6) = false →
       ∃ t, exec (.wrst v) s = .next t ∧ t.core.pp.wrstBusy = false ∧ t.core.pp.wrstDie = rf v 0 6 ∧ t.core.pp.wrstRes = 3)) ∧
   (∀ (s : State) (x : BitVec 512), s.runs = true → InSession s.core x → flitAt x 0 1 = tyResetAck → s.core.pp.wrstBusy = true →
     s.core.pp.wrstDie = flitAt x 2 1 →
     ∃ t, exec (.resetAck x) s = .next t ∧ t.core.pp.wrstBusy = false ∧ t.core.pp.wrstRes = 1 ∧
       (getPeer t.core (flitAt x 2 1)).st = .hello ∧ (getPage t.core pgPp).irqRaw.getLsbD 5 = true)) ∧
  -- A worker answers its manager's casts: READY, NOT_SEALED or LATE to TBL_PREP, which changes nothing; ARMED to a TBL_ARM
  -- that arms its flip, and REFUSED or LATE to one that does not; DISARMED to a TBL_DISARM that takes an armed flip back.
  (∀ (s : State) (d : Fin 64) (f : Frame) (rest : List Frame), s.runs = true → isWorker s.core = true → linkUpTo s.core d.val = true →
     let lead := leadOk s.core (w64 (payAt f 16 8))
     let ahead := aheadOf s.core (w64 (payAt f 16 8))
     (HeadFrame s.core d.val tyTblPrep f rest →
       ∃ t, exec (.tblPrep d) s = .next t ∧ (getPeer t.core d.val).hold = rest ∧ t.core.tbl = s.core.tbl ∧
         Offered t.core d.val tyTblAns (fun g => payAt g 24 2 = payAt f 24 2 ∧
           payAt g 16 1 = if s.core.tbl.shadow ≠ .sealed then 3 else if lead then 0 else 4)) ∧
     (HeadFrame s.core d.val tyTblArm f rest →
       ∃ t, exec (.tblArm d) s = .next t ∧ (getPeer t.core d.val).hold = rest ∧
         t.core.tbl = (if s.core.tbl.shadow = .sealed ∧ ahead = true then { s.core.tbl with shadow := .armed } else s.core.tbl) ∧
         Offered t.core d.val tyTblAns (fun g => payAt g 24 2 = payAt f 24 2 ∧
           payAt g 16 1 = if s.core.tbl.shadow ≠ .sealed then 5 else if ahead then 1 else 4)) ∧
     (HeadFrame s.core d.val tyTblDisarm f rest →
       ∃ t, exec (.tblDisarm d) s = .next t ∧ (getPeer t.core d.val).hold = rest ∧
         t.core.tbl = (if s.core.tbl.shadow = .armed then { s.core.tbl with shadow := .sealed } else s.core.tbl) ∧
         Offered t.core d.val tyTblAns (fun g => payAt g 24 2 = payAt f 24 2 ∧
           payAt g 16 1 = if s.core.tbl.shadow = .armed then 2 else 5))) ∧
  -- The manager's cast goes from its prepare to its arm step when the last worker has answered READY, ends with ARMED when the
  -- last has answered ARMED and with REFUSED when one refused; CAST_US without every answer ends it with TIMEOUT. An answer to
  -- another cast changes nothing of it.
  ((∀ (s : State) (d : Fin 64) (f : Frame) (rest : List Frame), s.runs = true → HeadFrame s.core d.val tyTblAns f rest →
     (payAt f 24 2 ≠ s.core.pp.castId.toNat →
       ∃ t, exec (.tblAns d) s = .next t ∧ (getPeer t.core d.val).hold = rest ∧ t.core.pp.cast = s.core.pp.cast ∧
         t.core.pp.armedMap = s.core.pp.armedMap) ∧
     (∀ k, payAt f 24 2 = s.core.pp.castId.toNat → s.core.pp.cast = some k → wbit k.sent d.val = true →
       (k.sent &&& ~~~(k.answered ||| ofBits [d.val]) = 0 →
         (k.step = .arm → payAt f 16 1 = 1 →
           ∃ t, exec (.tblAns d) s = .next t ∧ t.core.pp.cast = none ∧ t.core.pp.flipRes = 1 ∧
             t.core.pp.armedMap = s.core.pp.armedMap ||| ofBits [d.val] ∧ (getPage t.core pgPp).irqRaw.getLsbD 6 = true) ∧
         (k.step = .prep → payAt f 16 1 = 0 → k.refused = none → s.core.tbl.shadow = .sealed → aheadOf s.core k.flipAt = true →
           ∃ t, exec (.tblAns d) s = .next t ∧ t.core.tbl.shadow = .armed ∧
             (∃ j, t.core.pp.cast = some j ∧ j.step = .arm ∧ j.sent = k.sent ∧ j.answered = 0)) ∧
         (k.step = .prep → payAt f 16 1 ≠ 0 → k.refused = none →
           ∃ t, exec (.tblAns d) s = .next t ∧ t.core.pp.cast = none ∧ t.core.pp.flipRes = 2 ∧ t.core.pp.failDie = d.val) ∧
         (k.step = .disarm → (payAt f 16 1 = 2 ∨ payAt f 16 1 = 5) →
           ∃ t, exec (.tblAns d) s = .next t ∧ t.core.pp.cast = none ∧ t.core.pp.flipRes = 4 ∧ t.core.pp.armedMap = 0)) ∧
       (k.sent &&& ~~~(k.answered ||| ofBits [d.val]) ≠ 0 → k.step = .prep → payAt f 16 1 = 0 →
         ∃ t, exec (.tblAns d) s = .next t ∧ t.core.pp.cast = some { k with answered := k.answered ||| ofBits [d.val] }))) ∧
   (∀ (s : State) (k : Cast), s.runs = true → s.core.pp.cast = some k → s.core.qsc.req = false →
     (passedUs s.core k.at_ (regPpCastUs s.core) = true → (k.step = .prep → k.refused = none) →
       ∃ t, exec .castTimeout s = .next t ∧ t.core.pp.cast = none ∧ t.core.pp.flipRes = 3 ∧
         (k.step = .arm → (getPage t.core pgPp).irqRaw.getLsbD 6 = true)) ∧
     (∀ x, passedUs s.core k.at_ (regPpCastUs s.core) = true → k.step = .prep → k.refused = some x →
       ∃ t, exec .castTimeout s = .next t ∧ t.core.pp.cast = none ∧ t.core.pp.flipRes = 2 ∧ t.core.pp.failDie = x)))

/-- Lock-step pairs are made, compare their results and diverge. -/
def Obligations.PairsRunInLockStep : Prop :=
  -- LS_CTRL_EN with EN clear turns a pair OFF, with EN set it begins to pair where R775 allows it and is recorded with its
  -- reason where it does not; a START that agrees with this die's settings makes the pair run, and one that does not breaks
  -- it.
  ((∀ (s : State) (v : Reg), s.runs = true →
     (rbit v 31 = false →
       ∃ t, exec (.lsCtrlEn v) s = .next t ∧ t.core.det.st = .off ∧ t.core.det.table = [] ∧ t.core.det.held = []) ∧
     (rbit v 31 = true → s.core.det.st = .off → lsBad s.core v = none →
       ∃ t, exec (.lsCtrlEn v) s = .next t ∧ t.core.det.st = .pairing ∧ t.core.det.side = lsSideOf s.core v) ∧
     (∀ r, rbit v 31 = true → s.core.det.st = .off → lsBad s.core v = some r → (getPage s.core pgDet).code = 0 →
       ∃ t, exec (.lsCtrlEn v) s = .next t ∧ t.core.det = s.core.det ∧ (getPage t.core pgDet).code = 0x10 ∧
         (getPage t.core pgDet).infoHi = r32 r) ∧
     (rbit v 31 = true → s.core.det.st ≠ .off → (getPage s.core pgDet).code = 0 →
       ∃ t, exec (.lsCtrlEn v) s = .next t ∧ t.core.det = s.core.det ∧ (getPage t.core pgDet).code = 0x0A)) ∧
   (∀ (s : State) (d : Fin 64) (f : Frame) (rest : List Frame), s.runs = true → HeadFrame s.core d.val tyLstep f rest →
     d.val = lsOther s.core → payAt f 16 1 = 1 → s.core.det.st = .pairing →
     let same := payAt f 20 1 == regDetLsCtrlPrimary s.core && payAt f 21 1 == regDetLsCtrlSecondary s.core &&
       (payAt f 18 1).testBit 0 == regDetCtrlRepro s.core && payAt f 17 1 == 3 - s.core.det.side
     (same = true →
       ∃ t, exec (.lstep d) s = .next t ∧ (getPeer t.core d.val).hold = rest ∧ t.core.det.st = .run ∧ t.core.det.table = []) ∧
     (same = false →
       ∃ t, exec (.lstep d) s = .next t ∧ (getPeer t.core d.val).hold = rest ∧ t.core.det.st = .broken ∧ t.core.det.cause = 2 ∧
         (getPage t.core pgDet).irqRaw.getLsbD 5 = true))) ∧
  -- LSTEP with ENTRIES compares one entry with its counterpart: equal CHECKs count as a match, unequal ones as a divergence
  -- that the registers hold; HALT starts quiescing on the secondary. LS_FLUSH sends the entries that are held, and LS_ORPHAN
  -- makes an entry that has found no counterpart in time a divergence.
  ((∀ (s : State) (d : Fin 64) (f : Frame) (rest : List Frame), s.runs = true → HeadFrame s.core d.val tyLstep f rest →
     d.val = lsOther s.core → s.core.det.st = .run →
     (∀ e l, payAt f 16 1 = 2 → payAt f 17 1 = 1 → s.core.det.side = 1 →
       ltake (fun x => x.mine && x.key == (entryOf s.core f 0).key) s.core.det.table = some (e, l) →
       (e.check = (entryOf s.core f 0).check →
         ∃ t, exec (.lstep d) s = .next t ∧ (getPeer t.core d.val).hold = rest ∧ t.core.det.table = l ∧ t.core.det.st = .run ∧
           cntGet t.core pgDet 0x130 = cntGet s.core pgDet 0x130 + 1) ∧
       (e.check ≠ (entryOf s.core f 0).check →
         ∃ t, exec (.lstep d) s = .next t ∧ t.core.det.table = l ∧ t.core.det.st = .diverged ∧
           cntGet t.core pgDet 0x138 = cntGet s.core pgDet 0x138 + 1 ∧ (getPage t.core pgDet).irqRaw.getLsbD 3 = true ∧
           (s.core.det.div.valid = false →
             t.core.det.div = { key := e.key, pchk := e.check, schk := (entryOf s.core f 0).check, pseq := e.pseq, tally := now s.core,
                                valid := true, varies := e.varies, kind := 1 }) ∧
           (regDetLsCfgLsHalt s.core = true → t.core.qsc.req = true))) ∧
     (payAt f 16 1 = 2 → payAt f 17 1 = 1 → s.core.det.side = 1 → s.core.det.table.length < 4096 →
       ltake (fun x => x.mine && x.key == (entryOf s.core f 0).key) s.core.det.table = none →
       ∃ t, exec (.lstep d) s = .next t ∧ t.core.det.table = s.core.det.table ++ [entryOf s.core f 0]) ∧
     (payAt f 16 1 = 3 → s.core.det.side = 2 → ∃ t, exec (.lstep d) s = .next t ∧ t.core.qsc.req = true)) ∧
   (∀ s : State, s.runs = true → lsOn s.core = true → s.core.det.side = 2 → s.core.det.held ≠ [] → linkUpTo s.core (lsOther s.core) = true →
     (getPeer s.core (lsOther s.core)).held = [] → linkRoom s.core (lsOther s.core) 1 = true →
     ∃ t, exec .lsFlush s = .next t ∧ t.core.det.held = s.core.det.held.drop 3 ∧
       Offered t.core (lsOther s.core) tyLstep (fun f => payAt f 16 1 = 2 ∧ payAt f 17 1 = min 3 s.core.det.held.length ∧
         payAt f 20 8 = ((s.core.det.held.head?.map (fun (e : LsEntry) => e.key)).getD 0).toNat)) ∧
   (∀ (s : State) (key : Word) (mine : Bool) (e : LsEntry) (l : List LsEntry), s.runs = true → s.core.det.st = .run →
     ltake (fun (e : LsEntry) => e.key == key && e.mine == mine && passedUs s.core e.at_ (regDetLsMatchUs s.core)) s.core.det.table
       = some (e, l) →
     ∃ t, exec (.lsOrphan key mine) s = .next t ∧ t.core.det.table = l ∧ t.core.det.st = .diverged ∧
       cntGet t.core pgDet 0x140 = cntGet s.core pgDet 0x140 + 1 ∧ cntGet t.core pgDet 0x138 = cntGet s.core pgDet 0x138 + 1 ∧
       (s.core.det.div.valid = false → t.core.det.div.kind = (if mine then 2 else 3) ∧ t.core.det.div.key = key) ∧
       (getPage t.core pgDet).irqRaw.getLsbD 4 = true))

/-- Frame: commands of bring-up, registers, front end and programs keep what they are not said to change. -/
def Obligations.FrontAndProgramCommandsKeepTheRest : Prop :=
  -- A command of bring-up, of a register, of the front end, of contexts, objects, graphs or tables that starts no reset
  -- changes no part of the block but those that `frontWrites` lists for it, and neither the queue of commands, the kept state
  -- of a reset, the pins nor the self-test.
  (∀ (i : Instr) (w : List Part) (s t : State), frontWrites i = some w → exec i s = .next t → t.rst.active = s.rst.active → Keeps s t w) ∧
  -- A command of a program or of a queue changes no part of the block but those that `programWrites` lists for it, and neither
  -- the queue of commands, the kept state of a reset, the pins nor the self-test.
  (∀ (i : Instr) (w : List Part) (s t : State), programWrites i = some w → exec i s = .next t → Keeps s t w)

/-- A command of instances, lanes, sync objects, messages, scheduling, routes or streams that starts no reset changes no part of
the block but those that `taskWrites` lists for it, and neither the queue of commands, the kept state of a reset, the pins nor
the self-test. -/
def Obligations.TaskCommandsKeepTheRest : Prop :=  ∀ (i : Instr) (w : List Part) (s t : State), taskWrites i = some w → exec i s = .next t → t.rst.active = s.rst.active → Keeps s t w

/-- A command of the Punty Port, of lock-step, of the RAS unit, of the monitors or of the test ports that starts no reset
changes no part of the block but those that `dieWrites` lists for it, and neither the queue of commands, the kept state of a
reset, the pins nor the self-test; one of the Tally or of a pin's level changes no part but those that `pinWrites` lists for it.
-/
def Obligations.DieCommandsKeepTheRest : Prop :=
  (∀ (i : Instr) (w : List Part) (s t : State), dieWrites i = some w → exec i s = .next t → t.rst.active = s.rst.active → Keeps s t w) ∧
  (∀ (i : Instr) (w : List Part) (s t : State), pinWrites i = some w → exec i s = .next t → SameBut w s.core t.core)
end

