-- ==== Sys2Proof/Laws/SameBut.lean ====
section
/-! SUPPORT. What leaves a part of the block as it was: the laws of `SameBut` and one for each single update. -/

namespace Sys2Proof.Machine

theorem SameBut.refl (w : List Part) (c : Core) : SameBut w c c := fun p => Or.inr (by cases p <;> first | rfl | exact ⟨rfl, rfl⟩)

theorem Part.same_trans {p : Part} {a b c : Core} (h : p.same a b) (g : p.same b c) : p.same a c := by
  cases p <;> simp only [Part.same] at * <;> first | exact h.trans g | exact ⟨h.1.trans g.1, h.2.trans g.2⟩

theorem SameBut.trans {w : List Part} {a b c : Core} (h : SameBut w a b) (g : SameBut w b c) : SameBut w a c := fun p =>
  (h p).elim Or.inl fun h => (g p).elim Or.inl fun g => Or.inr (Part.same_trans h g)

theorem SameBut.mono {v w : List Part} {a b : Core} (h : SameBut v a b) (hs : v ⊆ w) : SameBut w a b := fun p =>
  (h p).elim (fun m => Or.inl (hs m)) Or.inr

/-- An effect that keeps all but `v`, after one that keeps all but `w`. -/
theorem SameBut.next {v w : List Part} {a b c : Core} (g : SameBut v b c) (hs : v ⊆ w) (h : SameBut w a b) : SameBut w a c :=
  h.trans (g.mono hs)

theorem SameBut.ite (w : List Part) (a x y : Core) (p : Prop) [Decidable p] (h : p → SameBut w a x) (g : ¬p → SameBut w a y) :
    SameBut w a (if p then x else y) := by
  split
  · exact h ‹_›
  · exact g ‹_›

theorem SameBut.cut {w : List Part} {a x y : Core} (h : SameBut w a x) (g : SameBut w a x → SameBut w a y) : SameBut w a y := g h

theorem SameBut.fold_fst {α β : Type} (w : List Part) (a : Core) (f : Core × β → α → Core × β) (l : List α) (p : Core × β)
    (hf : ∀ p x, SameBut w p.1 (f p x).1) (h : SameBut w a p.1) : SameBut w a (l.foldl f p).1 := by
  induction l generalizing p with
  | nil => exact h
  | cons x t ih => exact ih _ (h.trans (hf p x))

theorem SameBut.getD (w : List Part) (a : Core) (o : Option Core) (b : Core) (h : ∀ d, o = some d → SameBut w a d)
    (g : SameBut w a b) : SameBut w a (o.getD b) := by
  cases o with
  | none => exact g
  | some d => exact h d rfl

theorem SameBut.fold {α : Type} (w : List Part) (a b : Core) (f : Core → α → Core) (l : List α)
    (hf : ∀ c x, SameBut w c (f c x)) (h : SameBut w a b) : SameBut w a (l.foldl f b) := by
  induction l generalizing b with
  | nil => exact h
  | cons x t ih => exact ih _ (h.trans (hf b x))

theorem SameBut.set_io (w : List Part) (a b : Core) (v) (hm : Part.io ∈ w) (h : SameBut w a b) :
    SameBut w a { b with io := v } := fun p => by cases p <;> first | exact Or.inl hm | exact h _

theorem SameBut.set_bring (w : List Part) (a b : Core) (v) (hm : Part.bring ∈ w) (h : SameBut w a b) :
    SameBut w a { b with bring := v } := fun p => by cases p <;> first | exact Or.inl hm | exact h _

theorem SameBut.set_engs (w : List Part) (a b : Core) (v) (hm : Part.engs ∈ w) (h : SameBut w a b) :
    SameBut w a { b with engs := v } := fun p => by cases p <;> first | exact Or.inl hm | exact h _

theorem SameBut.set_lanesUp (w : List Part) (a b : Core) (v) (hm : Part.lanesUp ∈ w) (h : SameBut w a b) :
    SameBut w a { b with lanesUp := v } := fun p => by cases p <;> first | exact Or.inl hm | exact h _

theorem SameBut.set_sic (w : List Part) (a b : Core) (v) (hm : Part.sic ∈ w) (h : SameBut w a b) :
    SameBut w a { b with sic := v } := fun p => by cases p <;> first | exact Or.inl hm | exact h _

theorem SameBut.set_qsc (w : List Part) (a b : Core) (v) (hm : Part.qsc ∈ w) (h : SameBut w a b) :
    SameBut w a { b with qsc := v } := fun p => by cases p <;> first | exact Or.inl hm | exact h _

theorem SameBut.set_fe (w : List Part) (a b : Core) (v) (hm : Part.fe ∈ w) (h : SameBut w a b) :
    SameBut w a { b with fe := v } := fun p => by cases p <;> first | exact Or.inl hm | exact h _

theorem SameBut.set_queues (w : List Part) (a b : Core) (v) (hm : Part.queues ∈ w) (h : SameBut w a b) :
    SameBut w a { b with queues := v } := fun p => by cases p <;> first | exact Or.inl hm | exact h _

theorem SameBut.set_ctxs (w : List Part) (a b : Core) (v) (hm : Part.ctxs ∈ w) (h : SameBut w a b) :
    SameBut w a { b with ctxs := v } := fun p => by cases p <;> first | exact Or.inl hm | exact h _

theorem SameBut.set_sqs (w : List Part) (a b : Core) (v) (hm : Part.sqs ∈ w) (h : SameBut w a b) :
    SameBut w a { b with sqs := v } := fun p => by cases p <;> first | exact Or.inl hm | exact h _

theorem SameBut.set_gs (w : List Part) (a b : Core) (v) (hm : Part.gs ∈ w) (h : SameBut w a b) :
    SameBut w a { b with gs := v } := fun p => by cases p <;> first | exact Or.inl hm | exact h _

theorem SameBut.set_isr (w : List Part) (a b : Core) (v) (hm : Part.isr ∈ w) (h : SameBut w a b) :
    SameBut w a { b with isr := v } := fun p => by cases p <;> first | exact Or.inl hm | exact h _

theorem SameBut.set_de (w : List Part) (a b : Core) (v) (hm : Part.de ∈ w) (h : SameBut w a b) :
    SameBut w a { b with de := v } := fun p => by cases p <;> first | exact Or.inl hm | exact h _

theorem SameBut.set_lanes (w : List Part) (a b : Core) (v) (hm : Part.lanes ∈ w) (h : SameBut w a b) :
    SameBut w a { b with lanes := v } := fun p => by cases p <;> first | exact Or.inl hm | exact h _

theorem SameBut.set_st (w : List Part) (a b : Core) (v) (hm : Part.st ∈ w) (h : SameBut w a b) :
    SameBut w a { b with st := v } := fun p => by cases p <;> first | exact Or.inl hm | exact h _

theorem SameBut.set_lehr (w : List Part) (a b : Core) (v) (hm : Part.lehr ∈ w) (h : SameBut w a b) :
    SameBut w a { b with lehr := v } := fun p => by cases p <;> first | exact Or.inl hm | exact h _

theorem SameBut.set_mf (w : List Part) (a b : Core) (v) (hm : Part.mf ∈ w) (h : SameBut w a b) :
    SameBut w a { b with mf := v } := fun p => by cases p <;> first | exact Or.inl hm | exact h _

theorem SameBut.set_cru (w : List Part) (a b : Core) (v) (hm : Part.cru ∈ w) (h : SameBut w a b) :
    SameBut w a { b with cru := v } := fun p => by cases p <;> first | exact Or.inl hm | exact h _

theorem SameBut.set_sched (w : List Part) (a b : Core) (v) (hm : Part.sched ∈ w) (h : SameBut w a b) :
    SameBut w a { b with sched := v } := fun p => by cases p <;> first | exact Or.inl hm | exact h _

theorem SameBut.set_marv (w : List Part) (a b : Core) (v) (hm : Part.marv ∈ w) (h : SameBut w a b) :
    SameBut w a { b with marv := v } := fun p => by cases p <;> first | exact Or.inl hm | exact h _

theorem SameBut.set_tu (w : List Part) (a b : Core) (v) (hm : Part.tu ∈ w) (h : SameBut w a b) :
    SameBut w a { b with tu := v } := fun p => by cases p <;> first | exact Or.inl hm | exact h _

theorem SameBut.set_shr (w : List Part) (a b : Core) (v) (hm : Part.shr ∈ w) (h : SameBut w a b) :
    SameBut w a { b with shr := v } := fun p => by cases p <;> first | exact Or.inl hm | exact h _

theorem SameBut.set_lkp (w : List Part) (a b : Core) (v) (hm : Part.lkp ∈ w) (h : SameBut w a b) :
    SameBut w a { b with lkp := v } := fun p => by cases p <;> first | exact Or.inl hm | exact h _

theorem SameBut.set_strm (w : List Part) (a b : Core) (v) (hm : Part.strm ∈ w) (h : SameBut w a b) :
    SameBut w a { b with strm := v } := fun p => by cases p <;> first | exact Or.inl hm | exact h _

theorem SameBut.set_tbl (w : List Part) (a b : Core) (v) (hm : Part.tbl ∈ w) (h : SameBut w a b) :
    SameBut w a { b with tbl := v } := fun p => by cases p <;> first | exact Or.inl hm | exact h _

theorem SameBut.set_pp (w : List Part) (a b : Core) (v) (hm : Part.pp ∈ w) (h : SameBut w a b) :
    SameBut w a { b with pp := v } := fun p => by cases p <;> first | exact Or.inl hm | exact h _

theorem SameBut.set_det (w : List Part) (a b : Core) (v) (hm : Part.det ∈ w) (h : SameBut w a b) :
    SameBut w a { b with det := v } := fun p => by cases p <;> first | exact Or.inl hm | exact h _

theorem SameBut.set_ras (w : List Part) (a b : Core) (v) (hm : Part.ras ∈ w) (h : SameBut w a b) :
    SameBut w a { b with ras := v } := fun p => by cases p <;> first | exact Or.inl hm | exact h _

theorem SameBut.set_pmu (w : List Part) (a b : Core) (v) (hm : Part.pmu ∈ w) (h : SameBut w a b) :
    SameBut w a { b with pmu := v } := fun p => by cases p <;> first | exact Or.inl hm | exact h _

theorem SameBut.set_trc (w : List Part) (a b : Core) (v) (hm : Part.trc ∈ w) (h : SameBut w a b) :
    SameBut w a { b with trc := v } := fun p => by cases p <;> first | exact Or.inl hm | exact h _

theorem SameBut.set_dbg (w : List Part) (a b : Core) (v) (hm : Part.dbg ∈ w) (h : SameBut w a b) :
    SameBut w a { b with dbg := v } := fun p => by cases p <;> first | exact Or.inl hm | exact h _

theorem SameBut.set_tclk (w : List Part) (a b : Core) (v) (hm : Part.tclk ∈ w) (h : SameBut w a b) :
    SameBut w a { b with tclk := v } := fun p => by cases p <;> first | exact Or.inl hm | exact h _

theorem SameBut.set_free (w : List Part) (a b : Core) (v) (hm : Part.free ∈ w) (h : SameBut w a b) :
    SameBut w a { b with free := v } := fun p => by cases p <;> first | exact Or.inl hm | exact h _

theorem SameBut.set_rstReq (w : List Part) (a b : Core) (v) (hm : Part.rstReq ∈ w) (h : SameBut w a b) :
    SameBut w a { b with rstReq := v } := fun p => by cases p <;> first | exact Or.inl hm | exact h _

theorem SameBut.set_fatalReq (w : List Part) (a b : Core) (v) (hm : Part.fatalReq ∈ w) (h : SameBut w a b) :
    SameBut w a { b with fatalReq := v } := fun p => by cases p <;> first | exact Or.inl hm | exact h _

theorem SameBut.set_regs (w : List Part) (a b : Core) (v) (hm : Part.rsRegs ∈ w) (h : SameBut w a b) :
    SameBut w a { b with rs := { b.rs with regs := v } } := fun p => by cases p <;> first | exact Or.inl hm | exact h _

theorem SameBut.set_shadow (w : List Part) (a b : Core) (v) (hm : Part.rsShadow ∈ w) (h : SameBut w a b) :
    SameBut w a { b with rs := { b.rs with shadow := v } } := fun p => by cases p <;> first | exact Or.inl hm | exact h _

theorem SameBut.set_cnts (w : List Part) (a b : Core) (v) (hm : Part.rsCnts ∈ w) (h : SameBut w a b) :
    SameBut w a { b with rs := { b.rs with cnts := v } } := fun p => by cases p <;> first | exact Or.inl hm | exact h _

theorem SameBut.set_pages (w : List Part) (a b : Core) (v) (hm : Part.rsPages ∈ w) (h : SameBut w a b) :
    SameBut w a { b with rs := { b.rs with pages := v } } := fun p => by cases p <;> first | exact Or.inl hm | exact h _

theorem SameBut.set_dieDigest (w : List Part) (a b : Core) (v) (hm : Part.rsDigest ∈ w) (h : SameBut w a b) :
    SameBut w a { b with rs := { b.rs with dieDigest := v } } := fun p => by cases p <;> first | exact Or.inl hm | exact h _

theorem SameBut.set_dieBusy (w : List Part) (a b : Core) (v) (hm : Part.rsDigest ∈ w) (h : SameBut w a b) :
    SameBut w a { b with rs := { b.rs with dieBusy := v } } := fun p => by cases p <;> first | exact Or.inl hm | exact h _

/-- An update of some fields of `b`, found by its last field. -/
theorem SameBut.upd (w : List Part) (a b : Core) (x_io) (x_bring) (x_engs) (x_lanesUp) (x_sic) (x_rs) (x_qsc) (x_fe) (x_queues) (x_ctxs) (x_sqs) (x_gs) (x_isr) (x_de) (x_lanes) (x_st) (x_lehr) (x_mf) (x_cru) (x_sched) (x_marv) (x_tu) (x_shr) (x_lkp) (x_strm) (x_tbl) (x_pp) (x_det) (x_ras) (x_pmu) (x_trc) (x_dbg) (x_tclk) (x_free) (x_rstReq)
    (h : SameBut w a b) (g : SameBut w b ⟨x_io, x_bring, x_engs, x_lanesUp, x_sic, x_rs, x_qsc, x_fe, x_queues, x_ctxs, x_sqs, x_gs, x_isr, x_de, x_lanes, x_st, x_lehr, x_mf, x_cru, x_sched, x_marv, x_tu, x_shr, x_lkp, x_strm, x_tbl, x_pp, x_det, x_ras, x_pmu, x_trc, x_dbg, x_tclk, x_free, x_rstReq, b.fatalReq⟩) :
    SameBut w a ⟨x_io, x_bring, x_engs, x_lanesUp, x_sic, x_rs, x_qsc, x_fe, x_queues, x_ctxs, x_sqs, x_gs, x_isr, x_de, x_lanes, x_st, x_lehr, x_mf, x_cru, x_sched, x_marv, x_tu, x_shr, x_lkp, x_strm, x_tbl, x_pp, x_det, x_ras, x_pmu, x_trc, x_dbg, x_tclk, x_free, x_rstReq, b.fatalReq⟩ := h.trans g

end Sys2Proof.Machine
end

