-- ==== Sys2Proof/Laws/Ops.lean ====
section
/-! SUPPORT. What the operations of Ops.lean leave as it was. -/

set_option linter.unusedTactic false
set_option linter.unreachableTactic false
set_option linter.tactic.unusedName false

namespace Sys2Proof.Machine

theorem modQ_keeps (w : List Part) (a : Core) (x0 : Core) (x1 : Nat) (x2 : Queue → Queue)
    (hw : [.queues] ⊆ w) (h : SameBut w a x0) :
    SameBut w a (modQ x0 x1 x2) := by
  refine SameBut.next ?_ hw h
  clear hw h
  unfold modQ
  repeat' first
    | with_reducible exact SameBut.refl _ _
    | with_reducible assumption
    | with_reducible refine SameBut.set_queues _ _ _ _ (by decide) ?_

theorem modCtx_keeps (w : List Part) (a : Core) (x0 : Core) (x1 : Nat) (x2 : Ctx → Ctx)
    (hw : [.ctxs] ⊆ w) (h : SameBut w a x0) :
    SameBut w a (modCtx x0 x1 x2) := by
  refine SameBut.next ?_ hw h
  clear hw h
  unfold modCtx
  repeat' first
    | with_reducible exact SameBut.refl _ _
    | with_reducible assumption
    | with_reducible refine SameBut.set_ctxs _ _ _ _ (by decide) ?_

theorem modSq_keeps (w : List Part) (a : Core) (x0 : Core) (x1 : Nat) (x2 : Sq → Sq)
    (hw : [.sqs] ⊆ w) (h : SameBut w a x0) :
    SameBut w a (modSq x0 x1 x2) := by
  refine SameBut.next ?_ hw h
  clear hw h
  unfold modSq
  repeat' first
    | with_reducible exact SameBut.refl _ _
    | with_reducible assumption
    | with_reducible refine SameBut.set_sqs _ _ _ _ (by decide) ?_

theorem modLane_keeps (w : List Part) (a : Core) (x0 : Core) (x1 : Nat) (x2 : Lane → Lane)
    (hw : [.lanes] ⊆ w) (h : SameBut w a x0) :
    SameBut w a (modLane x0 x1 x2) := by
  refine SameBut.next ?_ hw h
  clear hw h
  unfold modLane
  repeat' first
    | with_reducible exact SameBut.refl _ _
    | with_reducible assumption
    | with_reducible refine SameBut.set_lanes _ _ _ _ (by decide) ?_

theorem modEng_keeps (w : List Part) (a : Core) (x0 : Core) (x1 : Nat) (x2 : Eng → Eng)
    (hw : [.engs] ⊆ w) (h : SameBut w a x0) :
    SameBut w a (modEng x0 x1 x2) := by
  refine SameBut.next ?_ hw h
  clear hw h
  unfold modEng
  repeat' first
    | with_reducible exact SameBut.refl _ _
    | with_reducible assumption
    | with_reducible refine SameBut.set_engs _ _ _ _ (by decide) ?_

theorem modInst_keeps (w : List Part) (a : Core) (x0 : Core) (x1 : Nat) (x2 : Inst → Inst)
    (hw : [.isr] ⊆ w) (h : SameBut w a x0) :
    SameBut w a (modInst x0 x1 x2) := by
  refine SameBut.next ?_ hw h
  clear hw h
  unfold modInst
  repeat' first
    | with_reducible exact SameBut.refl _ _
    | with_reducible assumption
    | with_reducible refine SameBut.set_isr _ _ _ _ (by decide) ?_

theorem modImg_keeps (w : List Part) (a : Core) (x0 : Core) (x1 : Nat) (x2 : Img → Img)
    (hw : [.gs] ⊆ w) (h : SameBut w a x0) :
    SameBut w a (modImg x0 x1 x2) := by
  refine SameBut.next ?_ hw h
  clear hw h
  unfold modImg
  repeat' first
    | with_reducible exact SameBut.refl _ _
    | with_reducible assumption
    | with_reducible refine SameBut.set_gs _ _ _ _ (by decide) ?_

theorem modObj_keeps (w : List Part) (a : Core) (x0 : Core) (x1 : Nat) (x2 : SyncObj → SyncObj)
    (hw : [.st] ⊆ w) (h : SameBut w a x0) :
    SameBut w a (modObj x0 x1 x2) := by
  refine SameBut.next ?_ hw h
  clear hw h
  unfold modObj
  repeat' first
    | with_reducible exact SameBut.refl _ _
    | with_reducible assumption
    | with_reducible refine SameBut.set_st _ _ _ _ (by decide) ?_

theorem modRxq_keeps (w : List Part) (a : Core) (x0 : Core) (x1 : Nat) (x2 : Rxq → Rxq)
    (hw : [.mf] ⊆ w) (h : SameBut w a x0) :
    SameBut w a (modRxq x0 x1 x2) := by
  refine SameBut.next ?_ hw h
  clear hw h
  unfold modRxq
  repeat' first
    | with_reducible exact SameBut.refl _ _
    | with_reducible assumption
    | with_reducible refine SameBut.set_mf _ _ _ _ (by decide) ?_

theorem modCq_keeps (w : List Part) (a : Core) (x0 : Core) (x1 : Nat) (x2 : Cq → Cq)
    (hw : [.cru] ⊆ w) (h : SameBut w a x0) :
    SameBut w a (modCq x0 x1 x2) := by
  refine SameBut.next ?_ hw h
  clear hw h
  unfold modCq
  repeat' first
    | with_reducible exact SameBut.refl _ _
    | with_reducible assumption
    | with_reducible refine SameBut.set_cru _ _ _ _ (by decide) ?_

theorem modPeer_keeps (w : List Part) (a : Core) (x0 : Core) (x1 : Nat) (x2 : Partner → Partner)
    (hw : [.pp] ⊆ w) (h : SameBut w a x0) :
    SameBut w a (modPeer x0 x1 x2) := by
  refine SameBut.next ?_ hw h
  clear hw h
  unfold modPeer
  repeat' first
    | with_reducible exact SameBut.refl _ _
    | with_reducible assumption
    | with_reducible refine SameBut.set_pp _ _ _ _ (by decide) ?_

theorem modStream_keeps (w : List Part) (a : Core) (x0 : Core) (x1 : Nat) (x2 : Stream → Stream)
    (hw : [.strm] ⊆ w) (h : SameBut w a x0) :
    SameBut w a (modStream x0 x1 x2) := by
  refine SameBut.next ?_ hw h
  clear hw h
  unfold modStream
  repeat' first
    | with_reducible exact SameBut.refl _ _
    | with_reducible assumption
    | with_reducible refine SameBut.set_strm _ _ _ _ (by decide) ?_

theorem modPre_keeps (w : List Part) (a : Core) (x0 : Core) (x1 : Nat) (x2 : Preempt → Preempt)
    (hw : [.sched] ⊆ w) (h : SameBut w a x0) :
    SameBut w a (modPre x0 x1 x2) := by
  refine SameBut.next ?_ hw h
  clear hw h
  unfold modPre
  repeat' first
    | with_reducible exact SameBut.refl _ _
    | with_reducible assumption
    | with_reducible refine SameBut.set_sched _ _ _ _ (by decide) ?_

theorem modSched_keeps (w : List Part) (a : Core) (x0 : Core) (x1 : Nat) (x2 : SchedCtx → SchedCtx)
    (hw : [.sched] ⊆ w) (h : SameBut w a x0) :
    SameBut w a (modSched x0 x1 x2) := by
  refine SameBut.next ?_ hw h
  clear hw h
  unfold modSched
  repeat' first
    | with_reducible exact SameBut.refl _ _
    | with_reducible assumption
    | with_reducible refine SameBut.set_sched _ _ _ _ (by decide) ?_

theorem modGroup_keeps (w : List Part) (a : Core) (x0 : Core) (x1 : Nat) (x2 : Group → Group)
    (hw : [.shr] ⊆ w) (h : SameBut w a x0) :
    SameBut w a (modGroup x0 x1 x2) := by
  refine SameBut.next ?_ hw h
  clear hw h
  unfold modGroup
  repeat' first
    | with_reducible exact SameBut.refl _ _
    | with_reducible assumption
    | with_reducible refine SameBut.set_shr _ _ _ _ (by decide) ?_

theorem modBlock_keeps (w : List Part) (a : Core) (x0 : Core) (x1 : Nat) (x2 : TaskBlock → TaskBlock)
    (hw : [.gs] ⊆ w) (h : SameBut w a x0) :
    SameBut w a (modBlock x0 x1 x2) := by
  refine SameBut.next ?_ hw h
  clear hw h
  unfold modBlock
  repeat' first
    | with_reducible exact SameBut.refl _ _
    | with_reducible assumption
    | with_reducible refine SameBut.set_gs _ _ _ _ (by decide) ?_

theorem modPage_keeps (w : List Part) (a : Core) (x0 : Core) (x1 : Nat) (x2 : Page → Page)
    (hw : [.rsPages] ⊆ w) (h : SameBut w a x0) :
    SameBut w a (modPage x0 x1 x2) := by
  refine SameBut.next ?_ hw h
  clear hw h
  unfold modPage
  repeat' first
    | with_reducible exact SameBut.refl _ _
    | with_reducible assumption
    | with_reducible refine SameBut.set_pages _ _ _ _ (by decide) ?_

theorem regPut_keeps (w : List Part) (a : Core) (x0 : Core) (x1 : Nat) (x2 : Nat) (x3 : Reg)
    (hw : [.rsRegs] ⊆ w) (h : SameBut w a x0) :
    SameBut w a (regPut x0 x1 x2 x3) := by
  refine SameBut.next ?_ hw h
  clear hw h
  unfold regPut
  repeat' first
    | with_reducible exact SameBut.refl _ _
    | with_reducible assumption
    | with_reducible refine SameBut.set_regs _ _ _ _ (by decide) ?_

theorem regSet_keeps (w : List Part) (a : Core) (x0 : Core) (x1 : Nat) (x2 : Nat) (x3 : Reg)
    (hw : [.rsRegs, .rsPages] ⊆ w) (h : SameBut w a x0) :
    SameBut w a (regSet x0 x1 x2 x3) := by
  refine SameBut.next ?_ hw h
  clear hw h
  unfold regSet
  repeat' first
    | with_reducible exact SameBut.refl _ _
    | with_reducible assumption
    | (extract_lets +onlyGivenNames z; first | (refine SameBut.cut (x := z) ?_ (fun _ => ?_) <;> [(unfold z; clear z); clear_value z]) | clear_value z)
    | with_reducible refine SameBut.ite _ _ _ _ _ (fun _ => ?_) (fun _ => ?_)
    | with_reducible refine modPage_keeps _ _ _ _ _ (by decide) ?_
    | with_reducible refine regPut_keeps _ _ _ _ _ _ (by decide) ?_

theorem regOr_keeps (w : List Part) (a : Core) (x0 : Core) (x1 : Nat) (x2 : Nat) (x3 : Reg)
    (hw : [.rsRegs, .rsPages] ⊆ w) (h : SameBut w a x0) :
    SameBut w a (regOr x0 x1 x2 x3) := by
  refine SameBut.next ?_ hw h
  clear hw h
  unfold regOr
  repeat' first
    | with_reducible exact SameBut.refl _ _
    | with_reducible assumption
    | with_reducible refine regSet_keeps _ _ _ _ _ _ (by decide) ?_

theorem cntAdd_keeps (w : List Part) (a : Core) (x0 : Core) (x1 : Nat) (x2 : Nat) (x3 : Nat)
    (hw : [.rsCnts] ⊆ w) (h : SameBut w a x0) :
    SameBut w a (cntAdd x0 x1 x2 x3) := by
  refine SameBut.next ?_ hw h
  clear hw h
  unfold cntAdd
  repeat' first
    | with_reducible exact SameBut.refl _ _
    | with_reducible assumption
    | with_reducible refine SameBut.set_cnts _ _ _ _ (by decide) ?_

theorem irqSet_keeps (w : List Part) (a : Core) (x0 : Core) (x1 : Nat) (x2 : Nat)
    (hw : [.rsPages] ⊆ w) (h : SameBut w a x0) :
    SameBut w a (irqSet x0 x1 x2) := by
  refine SameBut.next ?_ hw h
  clear hw h
  unfold irqSet
  repeat' first
    | with_reducible exact SameBut.refl _ _
    | with_reducible assumption
    | with_reducible refine modPage_keeps _ _ _ _ _ (by decide) ?_

theorem pageErr_keeps (w : List Part) (a : Core) (x0 : Core) (x1 : Nat) (x2 : Nat) (x3 : Nat) (x4 : Nat)
    (hw : [.rsPages] ⊆ w) (h : SameBut w a x0) :
    SameBut w a (pageErr x0 x1 x2 x3 x4) := by
  refine SameBut.next ?_ hw h
  clear hw h
  unfold pageErr
  repeat' first
    | with_reducible exact SameBut.refl _ _
    | with_reducible assumption
    | (extract_lets +onlyGivenNames z; first | (refine SameBut.cut (x := z) ?_ (fun _ => ?_) <;> [(unfold z; clear z); clear_value z]) | clear_value z)
    | with_reducible refine SameBut.ite _ _ _ _ _ (fun _ => ?_) (fun _ => ?_)
    | with_reducible refine modPage_keeps _ _ _ _ _ (by decide) ?_

theorem freeNat_keeps (w : List Part) (a : Core) (x0 : Core)
    (hw : [.free] ⊆ w) (h : SameBut w a x0) :
    SameBut w a (freeNat x0).2 := by
  refine SameBut.next ?_ hw h
  clear hw h
  unfold freeNat
  repeat' first
    | with_reducible exact SameBut.refl _ _
    | with_reducible assumption
    | with_reducible refine SameBut.set_free _ _ _ _ (by decide) ?_

theorem freeNat_keeps_eq (w : List Part) (a : Core) (x0 : Core)
    (y d) (e : freeNat x0 = (y, d)) (hw : [.free] ⊆ w) (h : SameBut w a x0) :
    SameBut w a d := by
  have := freeNat_keeps w a x0 hw h
  rw [e] at this
  exact this

theorem freeWord_keeps (w : List Part) (a : Core) (x0 : Core)
    (hw : [.free] ⊆ w) (h : SameBut w a x0) :
    SameBut w a (freeWord x0).2 := by
  refine SameBut.next ?_ hw h
  clear hw h
  unfold freeWord
  repeat' first
    | with_reducible exact SameBut.refl _ _
    | with_reducible assumption
    | with_reducible refine SameBut.set_free _ _ _ _ (by decide) ?_

theorem freeWord_keeps_eq (w : List Part) (a : Core) (x0 : Core)
    (y d) (e : freeWord x0 = (y, d)) (hw : [.free] ⊆ w) (h : SameBut w a x0) :
    SameBut w a d := by
  have := freeWord_keeps w a x0 hw h
  rw [e] at this
  exact this

theorem pmuEv_keeps (w : List Part) (a : Core) (x0 : Core) (x1 : Nat) (x2 : Nat) (x3 : Owner)
    (hw : [.pmu] ⊆ w) (h : SameBut w a x0) :
    SameBut w a (pmuEv x0 x1 x2 x3) := by
  refine SameBut.next ?_ hw h
  clear hw h
  unfold pmuEv
  repeat' first
    | with_reducible exact SameBut.refl _ _
    | with_reducible assumption
    | with_reducible refine SameBut.ite _ _ _ _ _ (fun _ => ?_) (fun _ => ?_)
    | with_reducible refine SameBut.fold _ _ _ _ _ (fun _ _ => ?_) ?_
    | with_reducible refine SameBut.set_pmu _ _ _ _ (by decide) ?_

theorem countBeats_keeps (w : List Part) (a : Core) (x0 : Core) (x1 : Req)
    (hw : [.pmu] ⊆ w) (h : SameBut w a x0) :
    SameBut w a (countBeats x0 x1) := by
  refine SameBut.next ?_ hw h
  clear hw h
  unfold countBeats
  repeat' first
    | with_reducible exact SameBut.refl _ _
    | with_reducible assumption
    | (extract_lets +onlyGivenNames z; first | (refine SameBut.cut (x := z) ?_ (fun _ => ?_) <;> [(unfold z; clear z); clear_value z]) | clear_value z)
    | with_reducible refine pmuEv_keeps _ _ _ _ _ _ (by decide) ?_
    | split

theorem driveReq_keeps (w : List Part) (a : Core) (x0 : Core) (x1 : Req)
    (hw : [.io, .pmu] ⊆ w) (h : SameBut w a x0) :
    SameBut w a (driveReq x0 x1) := by
  refine SameBut.next ?_ hw h
  clear hw h
  unfold driveReq
  repeat' first
    | with_reducible exact SameBut.refl _ _
    | with_reducible assumption
    | (extract_lets +onlyGivenNames z; first | (refine SameBut.cut (x := z) ?_ (fun _ => ?_) <;> [(unfold z; clear z); clear_value z]) | clear_value z)
    | with_reducible refine SameBut.ite _ _ _ _ _ (fun _ => ?_) (fun _ => ?_)
    | with_reducible refine countBeats_keeps _ _ _ _ (by decide) ?_
    | with_reducible refine SameBut.set_io _ _ _ _ (by decide) ?_

theorem sendReq_keeps (w : List Part) (a : Core) (x0 : Core) (x1 : Req)
    (hw : [.io, .pmu] ⊆ w) (h : SameBut w a x0) :
    SameBut w a (sendReq x0 x1) := by
  refine SameBut.next ?_ hw h
  clear hw h
  unfold sendReq
  repeat' first
    | with_reducible exact SameBut.refl _ _
    | with_reducible assumption
    | with_reducible refine SameBut.ite _ _ _ _ _ (fun _ => ?_) (fun _ => ?_)
    | with_reducible refine driveReq_keeps _ _ _ _ (by decide) ?_
    | with_reducible refine SameBut.set_io _ _ _ _ (by decide) ?_

theorem emit_keeps (w : List Part) (a : Core) (x0 : Core) (x1 : PortEvent)
    (hw : [.io] ⊆ w) (h : SameBut w a x0) :
    SameBut w a (emit x0 x1) := by
  refine SameBut.next ?_ hw h
  clear hw h
  unfold emit
  repeat' first
    | with_reducible exact SameBut.refl _ _
    | with_reducible assumption
    | with_reducible refine SameBut.ite _ _ _ _ _ (fun _ => ?_) (fun _ => ?_)
    | with_reducible refine SameBut.set_io _ _ _ _ (by decide) ?_

theorem takeReq_keeps (w : List Part) (a : Core) (x0 : Core) (x1 : ReqTag) (y d)
    (e : takeReq x0 x1 = some (y, d)) (hw : [.io, .pmu] ⊆ w) (h : SameBut w a x0) :
    SameBut w a d := by
  refine SameBut.next ?_ hw h
  unfold takeReq at e
  cases hp : ltake (fun r => decide (r.tag = x1)) x0.io.reqs with
  | none => simp [hp] at e
  | some p =>
    simp only [hp, Option.map_some, Option.some.injEq, Prod.mk.injEq] at e
    obtain ⟨-, rfl⟩ := e
    refine SameBut.ite _ _ _ _ _ (fun _ => ?_) (fun _ => ?_)
    · exact countBeats_keeps _ _ _ _ (by decide) (SameBut.set_io _ _ _ _ (by decide) (SameBut.refl _ _))
    · exact SameBut.set_io _ _ _ _ (by decide) (SameBut.refl _ _)

theorem mpRead_keeps (w : List Part) (a : Core) (x0 : Core) (x1 : Nat) (x2 : Nat) (x3 : Nat) (x4 : ReqTag)
    (hw : [.io, .pmu] ⊆ w) (h : SameBut w a x0) :
    SameBut w a (mpRead x0 x1 x2 x3 x4) := by
  refine SameBut.next ?_ hw h
  clear hw h
  unfold mpRead
  repeat' first
    | with_reducible exact SameBut.refl _ _
    | with_reducible assumption
    | with_reducible refine sendReq_keeps _ _ _ _ (by decide) ?_

theorem mpWrite_keeps (w : List Part) (a : Core) (x0 : Core) (x1 : Nat) (x2 : Nat) (x3 : List Word) (x4 : ReqTag)
    (hw : [.io, .pmu] ⊆ w) (h : SameBut w a x0) :
    SameBut w a (mpWrite x0 x1 x2 x3 x4) := by
  refine SameBut.next ?_ hw h
  clear hw h
  unfold mpWrite
  repeat' first
    | with_reducible exact SameBut.refl _ _
    | with_reducible assumption
    | with_reducible refine sendReq_keeps _ _ _ _ (by decide) ?_

theorem hipRead_keeps (w : List Part) (a : Core) (x0 : Core) (x1 : Nat) (x2 : Nat) (x3 : Nat) (x4 : ReqTag)
    (hw : [.io, .pmu] ⊆ w) (h : SameBut w a x0) :
    SameBut w a (hipRead x0 x1 x2 x3 x4) := by
  refine SameBut.next ?_ hw h
  clear hw h
  unfold hipRead
  repeat' first
    | with_reducible exact SameBut.refl _ _
    | with_reducible assumption
    | with_reducible refine sendReq_keeps _ _ _ _ (by decide) ?_

theorem hipWrite_keeps (w : List Part) (a : Core) (x0 : Core) (x1 : Nat) (x2 : Nat) (x3 : List Word) (x4 : ReqTag)
    (hw : [.io, .pmu] ⊆ w) (h : SameBut w a x0) :
    SameBut w a (hipWrite x0 x1 x2 x3 x4) := by
  refine SameBut.next ?_ hw h
  clear hw h
  unfold hipWrite
  repeat' first
    | with_reducible exact SameBut.refl _ _
    | with_reducible assumption
    | with_reducible refine sendReq_keeps _ _ _ _ (by decide) ?_

theorem intMsg_keeps (w : List Part) (a : Core) (x0 : Core) (x1 : Nat) (x2 : Nat) (x3 : Nat) (x4 : ReqTag)
    (hw : [.io] ⊆ w) (h : SameBut w a x0) :
    SameBut w a (intMsg x0 x1 x2 x3 x4) := by
  refine SameBut.next ?_ hw h
  clear hw h
  unfold intMsg
  repeat' first
    | with_reducible exact SameBut.refl _ _
    | with_reducible assumption
    | (extract_lets +onlyGivenNames z; first | (refine SameBut.cut (x := z) ?_ (fun _ => ?_) <;> [(unfold z; clear z); clear_value z]) | clear_value z)
    | with_reducible refine SameBut.ite _ _ _ _ _ (fun _ => ?_) (fun _ => ?_)
    | with_reducible refine SameBut.set_io _ _ _ _ (by decide) ?_

theorem trace_keeps (w : List Part) (a : Core) (x0 : Core) (x1 : Nat) (x2 : Owner) (x3 : Nat) (x4 : Nat) (x5 : Word) (x6 : Nat) (x7 : Bool)
    (hw : [.trc] ⊆ w) (h : SameBut w a x0) :
    SameBut w a (trace x0 x1 x2 x3 x4 x5 x6 x7) := by
  refine SameBut.next ?_ hw h
  clear hw h
  unfold trace
  repeat' first
    | with_reducible exact SameBut.refl _ _
    | with_reducible assumption
    | (extract_lets +onlyGivenNames z; first | (refine SameBut.cut (x := z) ?_ (fun _ => ?_) <;> [(unfold z; clear z); clear_value z]) | clear_value z)
    | with_reducible refine SameBut.ite _ _ _ _ _ (fun _ => ?_) (fun _ => ?_)
    | with_reducible refine SameBut.set_trc _ _ _ _ (by decide) ?_

theorem logWords_keeps (w : List Part) (a : Core) (x0 : Core) (x1 : List Reg) (x2 : Word)
    (hw : [.rsRegs, .rsPages, .ras, .trc] ⊆ w) (h : SameBut w a x0) :
    SameBut w a (logWords x0 x1 x2) := by
  refine SameBut.next ?_ hw h
  clear hw h
  unfold logWords
  repeat' first
    | with_reducible exact SameBut.refl _ _
    | with_reducible assumption
    | (extract_lets +onlyGivenNames z; first | (refine SameBut.cut (x := z) ?_ (fun _ => ?_) <;> [(unfold z; clear z); clear_value z]) | clear_value z)
    | with_reducible refine SameBut.ite _ _ _ _ _ (fun _ => ?_) (fun _ => ?_)
    | with_reducible refine regOr_keeps _ _ _ _ _ _ (by decide) ?_
    | with_reducible refine irqSet_keeps _ _ _ _ _ (by decide) ?_
    | with_reducible refine trace_keeps _ _ _ _ _ _ _ _ _ _ (by decide) ?_
    | with_reducible refine SameBut.set_ras _ _ _ _ (by decide) ?_

theorem logErr_keeps (w : List Part) (a : Core) (x0 : Core) (x1 : ErrRec)
    (hw : [.rsRegs, .rsPages, .ras, .trc] ⊆ w) (h : SameBut w a x0) :
    SameBut w a (logErr x0 x1) := by
  refine SameBut.next ?_ hw h
  clear hw h
  unfold logErr
  repeat' first
    | with_reducible exact SameBut.refl _ _
    | with_reducible assumption
    | with_reducible refine logWords_keeps _ _ _ _ _ (by decide) ?_

theorem notePoison_keeps (w : List Part) (a : Core) (x0 : Core) (x1 : QStatus) (x2 : Nat) (x3 : Nat)
    (hw : [.rsRegs, .rsCnts, .rsPages, .ras, .trc] ⊆ w) (h : SameBut w a x0) :
    SameBut w a (notePoison x0 x1 x2 x3) := by
  refine SameBut.next ?_ hw h
  clear hw h
  unfold notePoison
  repeat' first
    | with_reducible exact SameBut.refl _ _
    | with_reducible assumption
    | with_reducible refine SameBut.ite _ _ _ _ _ (fun _ => ?_) (fun _ => ?_)
    | with_reducible refine cntAdd_keeps _ _ _ _ _ _ (by decide) ?_
    | with_reducible refine logErr_keeps _ _ _ _ (by decide) ?_

theorem sendEvent_keeps (w : List Part) (a : Core) (x0 : Core) (x1 : Nat)
    (hw : [.io] ⊆ w) (h : SameBut w a x0) :
    SameBut w a (sendEvent x0 x1) := by
  refine SameBut.next ?_ hw h
  clear hw h
  unfold sendEvent
  repeat' first
    | with_reducible exact SameBut.refl _ _
    | with_reducible assumption
    | with_reducible refine intMsg_keeps _ _ _ _ _ _ _ (by decide) ?_
    | split

theorem eventMsgs_keeps (w : List Part) (a : Core) (x0 : Core) (x1 : Core)
    (hw : [.io] ⊆ w) (h : SameBut w a x1) :
    SameBut w a (eventMsgs x0 x1) := by
  refine SameBut.next ?_ hw h
  clear hw h
  unfold eventMsgs
  repeat' first
    | with_reducible exact SameBut.refl _ _
    | with_reducible assumption
    | (extract_lets +onlyGivenNames z; first | (refine SameBut.cut (x := z) ?_ (fun _ => ?_) <;> [(unfold z; clear z); clear_value z]) | clear_value z)
    | with_reducible refine SameBut.ite _ _ _ _ _ (fun _ => ?_) (fun _ => ?_)
    | with_reducible refine sendEvent_keeps _ _ _ _ (by decide) ?_
    | with_reducible refine SameBut.fold _ _ _ _ _ (fun _ _ => ?_) ?_
    | with_reducible refine SameBut.set_io _ _ _ _ (by decide) ?_

end Sys2Proof.Machine
end

