-- ==== Sys2Proof/Laws/Link.lean ====
section
/-! SUPPORT. What the operations of Link.lean leave as it was. -/

set_option linter.unusedTactic false
set_option linter.unreachableTactic false
set_option linter.tactic.unusedName false

namespace Sys2Proof.Machine

theorem sendFlit_keeps (w : List Part) (a : Core) (x0 : Core) (x1 : BitVec 512)
    (hw : [.io, .rsCnts, .pmu] ⊆ w) (h : SameBut w a x0) :
    SameBut w a (sendFlit x0 x1) := by
  refine SameBut.next ?_ hw h
  clear hw h
  unfold sendFlit
  repeat' first
    | with_reducible exact SameBut.refl _ _
    | with_reducible assumption
    | with_reducible refine pmuEv_keeps _ _ _ _ _ _ (by decide) ?_
    | with_reducible refine emit_keeps _ _ _ _ (by decide) ?_
    | with_reducible refine cntAdd_keeps _ _ _ _ _ _ (by decide) ?_

theorem sendSeqFrame_keeps (w : List Part) (a : Core) (x0 : Core) (x1 : Nat) (x2 : Reg) (x3 : Frame)
    (hw : [.io, .rsCnts, .pp, .pmu] ⊆ w) (h : SameBut w a x0) :
    SameBut w a (sendSeqFrame x0 x1 x2 x3) := by
  refine SameBut.next ?_ hw h
  clear hw h
  unfold sendSeqFrame
  repeat' first
    | with_reducible exact SameBut.refl _ _
    | with_reducible assumption
    | (extract_lets +onlyGivenNames z; first | (refine SameBut.cut (x := z) ?_ (fun _ => ?_) <;> [(unfold z; clear z); clear_value z]) | clear_value z)
    | with_reducible refine sendFlit_keeps _ _ _ _ (by decide) ?_
    | with_reducible refine modPeer_keeps _ _ _ _ _ (by decide) ?_

theorem sendSeqFrames_keeps (w : List Part) (a : Core) (x0 : Core) (x1 : Nat) (x2 : Reg) (x3 : List Frame)
    (hw : [.io, .rsCnts, .pp, .pmu] ⊆ w) (h : SameBut w a x0) :
    SameBut w a (sendSeqFrames x0 x1 x2 x3) := by
  refine SameBut.next ?_ hw h
  clear hw h
  fun_induction sendSeqFrames x0 x1 x2 x3
  all_goals repeat' first
    | with_reducible exact SameBut.refl _ _
    | with_reducible assumption
    | (with_reducible refine SameBut.trans ?_ (by assumption))
    | with_reducible refine sendSeqFrame_keeps _ _ _ _ _ _ (by decide) ?_
    | split

theorem linkFlush_keeps (w : List Part) (a : Core) (x0 : Core) (x1 : Nat)
    (hw : [.io, .rsCnts, .pp, .pmu] ⊆ w) (h : SameBut w a x0) :
    SameBut w a (linkFlush x0 x1) := by
  refine SameBut.next ?_ hw h
  clear hw h
  unfold linkFlush
  repeat' first
    | with_reducible exact SameBut.refl _ _
    | with_reducible assumption
    | (extract_lets +onlyGivenNames z; first | (refine SameBut.cut (x := z) ?_ (fun _ => ?_) <;> [(unfold z; clear z); clear_value z]) | clear_value z)
    | with_reducible refine SameBut.ite _ _ _ _ _ (fun _ => ?_) (fun _ => ?_)
    | with_reducible refine sendSeqFrames_keeps _ _ _ _ _ _ (by decide) ?_
    | with_reducible refine modPeer_keeps _ _ _ _ _ (by decide) ?_

theorem linkAccept_keeps (w : List Part) (a : Core) (x0 : Core) (x1 : Nat) (x2 : List Frame)
    (hw : [.pp] ⊆ w) (h : SameBut w a x0) :
    SameBut w a (linkAccept x0 x1 x2) := by
  refine SameBut.next ?_ hw h
  clear hw h
  unfold linkAccept
  repeat' first
    | with_reducible exact SameBut.refl _ _
    | with_reducible assumption
    | with_reducible refine modPeer_keeps _ _ _ _ _ (by decide) ?_

theorem noteAccepted_keeps (w : List Part) (a : Core) (x0 : Core) (x1 : TxFrom)
    (hw : [.isr, .pp] ⊆ w) (h : SameBut w a x0) :
    SameBut w a (noteAccepted x0 x1) := by
  refine SameBut.next ?_ hw h
  clear hw h
  unfold noteAccepted
  repeat' first
    | with_reducible exact SameBut.refl _ _
    | with_reducible assumption
    | with_reducible refine SameBut.ite _ _ _ _ _ (fun _ => ?_) (fun _ => ?_)
    | with_reducible refine modInst_keeps _ _ _ _ _ (by decide) ?_
    | split
    | with_reducible refine SameBut.set_pp _ _ _ _ (by decide) ?_

theorem linkOffer_keeps (w : List Part) (a : Core) (x0 : Core) (x1 : Nat) (x2 : TxFrom) (x3 : List Frame)
    (hw : [.io, .rsCnts, .isr, .pp, .pmu] ⊆ w) (h : SameBut w a x0) :
    SameBut w a (linkOffer x0 x1 x2 x3) := by
  refine SameBut.next ?_ hw h
  clear hw h
  unfold linkOffer
  repeat' first
    | with_reducible exact SameBut.refl _ _
    | with_reducible assumption
    | with_reducible refine SameBut.ite _ _ _ _ _ (fun _ => ?_) (fun _ => ?_)
    | with_reducible refine linkFlush_keeps _ _ _ _ (by decide) ?_
    | with_reducible refine noteAccepted_keeps _ _ _ _ (by decide) ?_
    | with_reducible refine linkAccept_keeps _ _ _ _ _ (by decide) ?_
    | with_reducible refine modPeer_keeps _ _ _ _ _ (by decide) ?_

theorem linkPumpList_keeps (w : List Part) (a : Core) (x0 : Core) (x1 : Nat) (x2 : List (TxFrom × List Frame))
    (hw : [.isr, .pp] ⊆ w) (h : SameBut w a x0) :
    SameBut w a (linkPumpList x0 x1 x2) := by
  refine SameBut.next ?_ hw h
  clear hw h
  fun_induction linkPumpList x0 x1 x2
  all_goals repeat' first
    | with_reducible exact SameBut.refl _ _
    | with_reducible assumption
    | (with_reducible refine SameBut.trans ?_ (by assumption))
    | with_reducible refine SameBut.ite _ _ _ _ _ (fun _ => ?_) (fun _ => ?_)
    | with_reducible refine noteAccepted_keeps _ _ _ _ (by decide) ?_
    | with_reducible refine linkAccept_keeps _ _ _ _ _ (by decide) ?_
    | with_reducible refine modPeer_keeps _ _ _ _ _ (by decide) ?_
    | split

theorem linkPump_keeps (w : List Part) (a : Core) (x0 : Core) (x1 : Nat)
    (hw : [.io, .rsCnts, .isr, .pp, .pmu] ⊆ w) (h : SameBut w a x0) :
    SameBut w a (linkPump x0 x1) := by
  refine SameBut.next ?_ hw h
  clear hw h
  unfold linkPump
  repeat' first
    | with_reducible exact SameBut.refl _ _
    | with_reducible assumption
    | with_reducible refine SameBut.ite _ _ _ _ _ (fun _ => ?_) (fun _ => ?_)
    | with_reducible refine linkFlush_keeps _ _ _ _ (by decide) ?_
    | with_reducible refine linkPumpList_keeps _ _ _ _ _ (by decide) ?_

theorem linkPumpAll_keeps (w : List Part) (a : Core) (x0 : Core)
    (hw : [.io, .rsCnts, .isr, .pp, .pmu] ⊆ w) (h : SameBut w a x0) :
    SameBut w a (linkPumpAll x0) := by
  refine SameBut.next ?_ hw h
  clear hw h
  unfold linkPumpAll
  repeat' first
    | with_reducible exact SameBut.refl _ _
    | with_reducible assumption
    | with_reducible refine linkPump_keeps _ _ _ _ (by decide) ?_
    | with_reducible refine SameBut.fold _ _ _ _ _ (fun _ _ => ?_) ?_

theorem sendAck_keeps (w : List Part) (a : Core) (x0 : Core) (x1 : Nat)
    (hw : [.io, .rsCnts, .pp, .pmu] ⊆ w) (h : SameBut w a x0) :
    SameBut w a (sendAck x0 x1) := by
  refine SameBut.next ?_ hw h
  clear hw h
  unfold sendAck
  repeat' first
    | with_reducible exact SameBut.refl _ _
    | with_reducible assumption
    | (extract_lets +onlyGivenNames z; first | (refine SameBut.cut (x := z) ?_ (fun _ => ?_) <;> [(unfold z; clear z); clear_value z]) | clear_value z)
    | with_reducible refine SameBut.ite _ _ _ _ _ (fun _ => ?_) (fun _ => ?_)
    | with_reducible refine sendFlit_keeps _ _ _ _ (by decide) ?_
    | with_reducible refine modPeer_keeps _ _ _ _ _ (by decide) ?_

theorem sendNak_keeps (w : List Part) (a : Core) (x0 : Core) (x1 : Nat)
    (hw : [.io, .rsCnts, .pp, .pmu] ⊆ w) (h : SameBut w a x0) :
    SameBut w a (sendNak x0 x1) := by
  refine SameBut.next ?_ hw h
  clear hw h
  unfold sendNak
  repeat' first
    | with_reducible exact SameBut.refl _ _
    | with_reducible assumption
    | (extract_lets +onlyGivenNames z; first | (refine SameBut.cut (x := z) ?_ (fun _ => ?_) <;> [(unfold z; clear z); clear_value z]) | clear_value z)
    | with_reducible refine SameBut.ite _ _ _ _ _ (fun _ => ?_) (fun _ => ?_)
    | with_reducible refine sendFlit_keeps _ _ _ _ (by decide) ?_
    | with_reducible refine cntAdd_keeps _ _ _ _ _ _ (by decide) ?_
    | with_reducible refine modPeer_keeps _ _ _ _ _ (by decide) ?_

theorem goBack_keeps (w : List Part) (a : Core) (x0 : Core) (x1 : Nat)
    (hw : [.io, .rsCnts, .pp, .pmu] ⊆ w) (h : SameBut w a x0) :
    SameBut w a (goBack x0 x1) := by
  refine SameBut.next ?_ hw h
  clear hw h
  unfold goBack
  repeat' first
    | with_reducible exact SameBut.refl _ _
    | with_reducible assumption
    | (extract_lets +onlyGivenNames z; first | (refine SameBut.cut (x := z) ?_ (fun _ => ?_) <;> [(unfold z; clear z); clear_value z]) | clear_value z)
    | with_reducible refine SameBut.ite _ _ _ _ _ (fun _ => ?_) (fun _ => ?_)
    | with_reducible refine pmuEv_keeps _ _ _ _ _ _ (by decide) ?_
    | with_reducible refine cntAdd_keeps _ _ _ _ _ _ (by decide) ?_
    | with_reducible refine sendSeqFrames_keeps _ _ _ _ _ _ (by decide) ?_
    | with_reducible refine modPeer_keeps _ _ _ _ _ (by decide) ?_

theorem onAck_keeps (w : List Part) (a : Core) (x0 : Core) (x1 : Nat) (x2 : Reg)
    (hw : [.io, .rsCnts, .isr, .pp, .pmu] ⊆ w) (h : SameBut w a x0) :
    SameBut w a (onAck x0 x1 x2) := by
  refine SameBut.next ?_ hw h
  clear hw h
  unfold onAck
  repeat' first
    | with_reducible exact SameBut.refl _ _
    | with_reducible assumption
    | (extract_lets +onlyGivenNames z; first | (refine SameBut.cut (x := z) ?_ (fun _ => ?_) <;> [(unfold z; clear z); clear_value z]) | clear_value z)
    | with_reducible refine SameBut.ite _ _ _ _ _ (fun _ => ?_) (fun _ => ?_)
    | with_reducible refine linkPumpAll_keeps _ _ _ (by decide) ?_
    | with_reducible refine modPeer_keeps _ _ _ _ _ (by decide) ?_

theorem placeRemMsg_keeps (w : List Part) (a : Core) (x0 : Core) (x1 : MsgFrom) (x2 : Nat) (x3 : Msg)
    (hw : [.io, .rsCnts, .isr, .pp, .pmu] ⊆ w) (h : SameBut w a x0) :
    SameBut w a (placeRemMsg x0 x1 x2 x3) := by
  refine SameBut.next ?_ hw h
  clear hw h
  unfold placeRemMsg
  repeat' first
    | with_reducible exact SameBut.refl _ _
    | with_reducible assumption
    | (extract_lets +onlyGivenNames z; first | (refine SameBut.cut (x := z) ?_ (fun _ => ?_) <;> [(unfold z; clear z); clear_value z]) | clear_value z)
    | with_reducible refine linkOffer_keeps _ _ _ _ _ _ (by decide) ?_
    | with_reducible refine SameBut.set_pp _ _ _ _ (by decide) ?_

theorem sendRemMsg_keeps (w : List Part) (a : Core) (x0 : Core) (x1 : MsgFrom) (x2 : Nat) (x3 : Msg)
    (hw : [.io, .rsCnts, .isr, .pp, .pmu] ⊆ w) (h : SameBut w a x0) :
    SameBut w a (sendRemMsg x0 x1 x2 x3) := by
  refine SameBut.next ?_ hw h
  clear hw h
  unfold sendRemMsg
  repeat' first
    | with_reducible exact SameBut.refl _ _
    | with_reducible assumption
    | with_reducible refine SameBut.ite _ _ _ _ _ (fun _ => ?_) (fun _ => ?_)
    | with_reducible refine placeRemMsg_keeps _ _ _ _ _ _ (by decide) ?_
    | with_reducible refine SameBut.set_pp _ _ _ _ (by decide) ?_

theorem refillMsgs_keeps (w : List Part) (a : Core) (x0 : Core) (x1 : List (MsgFrom × Nat × Msg))
    (hw : [.io, .rsCnts, .isr, .pp, .pmu] ⊆ w) (h : SameBut w a x0) :
    SameBut w a (refillMsgs x0 x1) := by
  refine SameBut.next ?_ hw h
  clear hw h
  fun_induction refillMsgs x0 x1
  all_goals repeat' first
    | with_reducible exact SameBut.refl _ _
    | with_reducible assumption
    | (with_reducible refine SameBut.trans ?_ (by assumption))
    | with_reducible refine SameBut.ite _ _ _ _ _ (fun _ => ?_) (fun _ => ?_)
    | with_reducible refine placeRemMsg_keeps _ _ _ _ _ _ (by decide) ?_
    | split
    | with_reducible refine SameBut.set_pp _ _ _ _ (by decide) ?_

end Sys2Proof.Machine
end

