-- ==== Sys2Proof/Laws/SyncBase.lean ====
section
/-! SUPPORT. What the operations of SyncBase.lean leave as it was. -/

set_option linter.unusedTactic false
set_option linter.unreachableTactic false
set_option linter.tactic.unusedName false

namespace Sys2Proof.Machine

theorem inheritKeep_keeps (w : List Part) (a : Core) (x0 : Core)
    (hw : [.sched] ⊆ w) (h : SameBut w a x0) :
    SameBut w a (inheritKeep x0) := by
  refine SameBut.next ?_ hw h
  clear hw h
  unfold inheritKeep
  repeat' first
    | with_reducible exact SameBut.refl _ _
    | with_reducible assumption
    | (extract_lets +onlyGivenNames z; first | (refine SameBut.cut (x := z) ?_ (fun _ => ?_) <;> [(unfold z; clear z); clear_value z]) | clear_value z)
    | split
    | with_reducible refine SameBut.set_sched _ _ _ _ (by decide) ?_

theorem inheritStart_keeps (w : List Part) (a : Core) (x0 : Core) (x1 : Nat) (x2 : Nat)
    (hw : [.rsCnts, .rsPages, .sched] ⊆ w) (h : SameBut w a x0) :
    SameBut w a (inheritStart x0 x1 x2) := by
  refine SameBut.next ?_ hw h
  clear hw h
  unfold inheritStart
  repeat' first
    | with_reducible exact SameBut.refl _ _
    | with_reducible assumption
    | (extract_lets +onlyGivenNames z; first | (refine SameBut.cut (x := z) ?_ (fun _ => ?_) <;> [(unfold z; clear z); clear_value z]) | clear_value z)
    | with_reducible refine SameBut.ite _ _ _ _ _ (fun _ => ?_) (fun _ => ?_)
    | with_reducible refine cntAdd_keeps _ _ _ _ _ _ (by decide) ?_
    | with_reducible refine irqSet_keeps _ _ _ _ _ (by decide) ?_
    | split
    | with_reducible refine SameBut.set_sched _ _ _ _ (by decide) ?_

theorem balAdd_keeps (w : List Part) (a : Core) (x0 : Core) (x1 : Nat) (x2 : ℤ)
    (hw : [.queues] ⊆ w) (h : SameBut w a x0) :
    SameBut w a (balAdd x0 x1 x2) := by
  refine SameBut.next ?_ hw h
  clear hw h
  unfold balAdd
  repeat' first
    | with_reducible exact SameBut.refl _ _
    | with_reducible assumption
    | with_reducible refine modQ_keeps _ _ _ _ _ (by decide) ?_

theorem tellRelease_keeps (w : List Part) (a : Core) (x0 : Core) (x1 : Nat) (x2 : Wait) (x3 : Bool)
    (hw : [.io, .rsCnts, .isr, .st, .pp, .pmu, .trc] ⊆ w) (h : SameBut w a x0) :
    SameBut w a (tellRelease x0 x1 x2 x3) := by
  refine SameBut.next ?_ hw h
  clear hw h
  unfold tellRelease
  repeat' first
    | with_reducible exact SameBut.refl _ _
    | with_reducible assumption
    | (extract_lets +onlyGivenNames z; first | (refine SameBut.cut (x := z) ?_ (fun _ => ?_) <;> [(unfold z; clear z); clear_value z]) | clear_value z)
    | with_reducible refine SameBut.ite _ _ _ _ _ (fun _ => ?_) (fun _ => ?_)
    | with_reducible refine pmuEv_keeps _ _ _ _ _ _ (by decide) ?_
    | with_reducible refine cntAdd_keeps _ _ _ _ _ _ (by decide) ?_
    | with_reducible refine linkOffer_keeps _ _ _ _ _ _ (by decide) ?_
    | with_reducible refine trace_keeps _ _ _ _ _ _ _ _ _ _ (by decide) ?_
    | split
    | with_reducible refine SameBut.set_st _ _ _ _ (by decide) ?_

theorem releaseOne_keeps (w : List Part) (a : Core) (x0 : Core) (x1 : Nat) (x2 : Wait)
    (hw : [.io, .rsCnts, .queues, .isr, .st, .pp, .pmu, .trc] ⊆ w) (h : SameBut w a x0) :
    SameBut w a (releaseOne x0 x1 x2) := by
  refine SameBut.next ?_ hw h
  clear hw h
  unfold releaseOne
  repeat' first
    | with_reducible exact SameBut.refl _ _
    | with_reducible assumption
    | (extract_lets +onlyGivenNames z; first | (refine SameBut.cut (x := z) ?_ (fun _ => ?_) <;> [(unfold z; clear z); clear_value z]) | clear_value z)
    | with_reducible refine balAdd_keeps _ _ _ _ _ (by decide) ?_
    | with_reducible refine modObj_keeps _ _ _ _ _ (by decide) ?_
    | with_reducible refine tellRelease_keeps _ _ _ _ _ _ (by decide) ?_
    | split

theorem serveSem_keeps (w : List Part) (a : Core) (x0 : Core) (x1 : Nat) (x2 : List Wait)
    (hw : [.io, .rsCnts, .queues, .isr, .st, .pp, .pmu, .trc] ⊆ w) (h : SameBut w a x0) :
    SameBut w a (serveSem x0 x1 x2) := by
  refine SameBut.next ?_ hw h
  clear hw h
  fun_induction serveSem x0 x1 x2
  all_goals repeat' first
    | with_reducible exact SameBut.refl _ _
    | with_reducible assumption
    | (with_reducible refine SameBut.trans ?_ (by assumption))
    | with_reducible refine SameBut.ite _ _ _ _ _ (fun _ => ?_) (fun _ => ?_)
    | with_reducible refine modObj_keeps _ _ _ _ _ (by decide) ?_
    | with_reducible refine releaseOne_keeps _ _ _ _ _ (by decide) ?_
    | split

theorem serveObj_keeps (w : List Part) (a : Core) (x0 : Core) (x1 : Nat)
    (hw : [.io, .rsCnts, .queues, .isr, .st, .sched, .pp, .pmu, .trc] ⊆ w) (h : SameBut w a x0) :
    SameBut w a (serveObj x0 x1) := by
  refine SameBut.next ?_ hw h
  clear hw h
  unfold serveObj
  repeat' first
    | with_reducible exact SameBut.refl _ _
    | with_reducible assumption
    | (extract_lets +onlyGivenNames z; first | (refine SameBut.cut (x := z) ?_ (fun _ => ?_) <;> [(unfold z; clear z); clear_value z]) | clear_value z)
    | with_reducible refine modObj_keeps _ _ _ _ _ (by decide) ?_
    | with_reducible refine releaseOne_keeps _ _ _ _ _ (by decide) ?_
    | with_reducible refine inheritKeep_keeps _ _ _ (by decide) ?_
    | with_reducible refine serveSem_keeps _ _ _ _ _ (by decide) ?_
    | with_reducible refine SameBut.fold _ _ _ _ _ (fun _ _ => ?_) ?_
    | split

theorem releaseAll_keeps (w : List Part) (a : Core) (x0 : Core) (x1 : Nat)
    (hw : [.io, .rsCnts, .queues, .isr, .st, .pp, .pmu, .trc] ⊆ w) (h : SameBut w a x0) :
    SameBut w a (releaseAll x0 x1) := by
  refine SameBut.next ?_ hw h
  clear hw h
  unfold releaseAll
  repeat' first
    | with_reducible exact SameBut.refl _ _
    | with_reducible assumption
    | (extract_lets +onlyGivenNames z; first | (refine SameBut.cut (x := z) ?_ (fun _ => ?_) <;> [(unfold z; clear z); clear_value z]) | clear_value z)
    | with_reducible refine modObj_keeps _ _ _ _ _ (by decide) ?_
    | with_reducible refine releaseOne_keeps _ _ _ _ _ (by decide) ?_
    | with_reducible refine SameBut.fold _ _ _ _ _ (fun _ _ => ?_) ?_

theorem abandonWaits_keeps (w : List Part) (a : Core) (x0 : Core) (x1 : Nat)
    (hw : [.io, .rsCnts, .isr, .st, .sched, .pp, .pmu, .trc] ⊆ w) (h : SameBut w a x0) :
    SameBut w a (abandonWaits x0 x1) := by
  refine SameBut.next ?_ hw h
  clear hw h
  unfold abandonWaits
  repeat' first
    | with_reducible exact SameBut.refl _ _
    | with_reducible assumption
    | (extract_lets +onlyGivenNames z; first | (refine SameBut.cut (x := z) ?_ (fun _ => ?_) <;> [(unfold z; clear z); clear_value z]) | clear_value z)
    | with_reducible refine modObj_keeps _ _ _ _ _ (by decide) ?_
    | with_reducible refine tellRelease_keeps _ _ _ _ _ _ (by decide) ?_
    | with_reducible refine inheritKeep_keeps _ _ _ (by decide) ?_
    | with_reducible refine SameBut.fold _ _ _ _ _ (fun _ _ => ?_) ?_

theorem endWait_keeps (w : List Part) (a : Core) (x0 : Core) (x1 : Nat) (x2 : Waiter)
    (hw : [.io, .rsCnts, .queues, .isr, .st, .sched, .pp, .pmu, .trc] ⊆ w) (h : SameBut w a x0) :
    SameBut w a (endWait x0 x1 x2) := by
  refine SameBut.next ?_ hw h
  clear hw h
  unfold endWait
  repeat' first
    | with_reducible exact SameBut.refl _ _
    | with_reducible assumption
    | (extract_lets +onlyGivenNames z; first | (refine SameBut.cut (x := z) ?_ (fun _ => ?_) <;> [(unfold z; clear z); clear_value z]) | clear_value z)
    | with_reducible refine SameBut.ite _ _ _ _ _ (fun _ => ?_) (fun _ => ?_)
    | with_reducible refine modObj_keeps _ _ _ _ _ (by decide) ?_
    | with_reducible refine inheritKeep_keeps _ _ _ (by decide) ?_
    | with_reducible refine serveObj_keeps _ _ _ _ (by decide) ?_

theorem notifyCookie_keeps (w : List Part) (a : Core) (x0 : Core) (x1 : Nat)
    (hw : [.rsCnts, .rsPages, .st] ⊆ w) (h : SameBut w a x0) :
    SameBut w a (notifyCookie x0 x1) := by
  refine SameBut.next ?_ hw h
  clear hw h
  unfold notifyCookie
  repeat' first
    | with_reducible exact SameBut.refl _ _
    | with_reducible assumption
    | (extract_lets +onlyGivenNames z; first | (refine SameBut.cut (x := z) ?_ (fun _ => ?_) <;> [(unfold z; clear z); clear_value z]) | clear_value z)
    | with_reducible refine SameBut.ite _ _ _ _ _ (fun _ => ?_) (fun _ => ?_)
    | with_reducible refine pageErr_keeps _ _ _ _ _ _ _ (by decide) ?_
    | with_reducible refine modObj_keeps _ _ _ _ _ (by decide) ?_
    | with_reducible refine cntAdd_keeps _ _ _ _ _ _ (by decide) ?_
    | with_reducible refine irqSet_keeps _ _ _ _ _ (by decide) ?_
    | with_reducible refine SameBut.set_st _ _ _ _ (by decide) ?_

end Sys2Proof.Machine
end

