-- ==== Sys2Proof/Laws/Alarm.lean ====
section
/-! SUPPORT. What the operations of Alarm.lean leave as it was. -/

set_option linter.unusedTactic false
set_option linter.unreachableTactic false
set_option linter.tactic.unusedName false

namespace Sys2Proof.Machine

theorem rearm_keeps (w : List Part) (a : Core) (x0 : Core)
    (hw : [.tu] ⊆ w) (h : SameBut w a x0) :
    SameBut w a (rearm x0) := by
  refine SameBut.next ?_ hw h
  clear hw h
  unfold rearm
  repeat' first
    | with_reducible exact SameBut.refl _ _
    | with_reducible assumption
    | (extract_lets +onlyGivenNames z; first | (refine SameBut.cut (x := z) ?_ (fun _ => ?_) <;> [(unfold z; clear z); clear_value z]) | clear_value z)
    | with_reducible refine SameBut.set_tu _ _ _ _ (by decide) ?_

theorem alarmAdd_keeps (w : List Part) (a : Core) (x0 : Core) (x1 : Nat) (x2 : Nat) (x3 : Word)
    (hw : [.tu] ⊆ w) (h : SameBut w a x0) :
    SameBut w a (alarmAdd x0 x1 x2 x3) := by
  refine SameBut.next ?_ hw h
  clear hw h
  unfold alarmAdd
  repeat' first
    | with_reducible exact SameBut.refl _ _
    | with_reducible assumption
    | (extract_lets +onlyGivenNames z; first | (refine SameBut.cut (x := z) ?_ (fun _ => ?_) <;> [(unfold z; clear z); clear_value z]) | clear_value z)
    | with_reducible refine SameBut.ite _ _ _ _ _ (fun _ => ?_) (fun _ => ?_)
    | with_reducible refine rearm_keeps _ _ _ (by decide) ?_
    | with_reducible refine SameBut.set_tu _ _ _ _ (by decide) ?_

theorem alarmDrop_keeps (w : List Part) (a : Core) (x0 : Core) (x1 : Nat) (x2 : Nat)
    (hw : [.tu] ⊆ w) (h : SameBut w a x0) :
    SameBut w a (alarmDrop x0 x1 x2) := by
  refine SameBut.next ?_ hw h
  clear hw h
  unfold alarmDrop
  repeat' first
    | with_reducible exact SameBut.refl _ _
    | with_reducible assumption
    | (extract_lets +onlyGivenNames z; first | (refine SameBut.cut (x := z) ?_ (fun _ => ?_) <;> [(unfold z; clear z); clear_value z]) | clear_value z)
    | with_reducible refine rearm_keeps _ _ _ (by decide) ?_
    | with_reducible refine SameBut.set_tu _ _ _ _ (by decide) ?_

theorem alarmsPass_keeps (w : List Part) (a : Core) (x0 : Core)
    (hw : [.rsCnts, .rsPages, .tu] ⊆ w) (h : SameBut w a x0) :
    SameBut w a (alarmsPass x0) := by
  refine SameBut.next ?_ hw h
  clear hw h
  unfold alarmsPass
  repeat' first
    | with_reducible exact SameBut.refl _ _
    | with_reducible assumption
    | (extract_lets +onlyGivenNames z; first | (refine SameBut.cut (x := z) ?_ (fun _ => ?_) <;> [(unfold z; clear z); clear_value z]) | clear_value z)
    | with_reducible refine SameBut.ite _ _ _ _ _ (fun _ => ?_) (fun _ => ?_)
    | with_reducible refine rearm_keeps _ _ _ (by decide) ?_
    | with_reducible refine cntAdd_keeps _ _ _ _ _ _ (by decide) ?_
    | with_reducible refine irqSet_keeps _ _ _ _ _ (by decide) ?_
    | with_reducible refine SameBut.set_tu _ _ _ _ (by decide) ?_

theorem alarmFire_keeps (w : List Part) (a : Core) (x0 : Core) (x1 : Nat) (x2 : Nat) (y d)
    (e : alarmFire x0 x1 x2 = some (y, d)) (hw : [.rsCnts, .tu, .trc] ⊆ w) (h : SameBut w a x0) :
    SameBut w a d := by
  refine SameBut.next ?_ hw h
  unfold alarmFire at e
  split at e
  · cases e
  · cases hp : ltake (alarmIs x1 x2) x0.tu.due with
    | none => simp [hp] at e
    | some p =>
      simp only [hp, Option.map_some, Option.some.injEq, Prod.mk.injEq] at e
      obtain ⟨-, rfl⟩ := e
      exact trace_keeps _ _ _ _ _ _ _ _ _ _ (by decide) (cntAdd_keeps _ _ _ _ _ _ (by decide)
        (SameBut.set_tu _ _ _ _ (by decide) (SameBut.refl _ _)))

theorem armPeriod_keeps (w : List Part) (a : Core) (x0 : Core) (x1 : Nat) (x2 : Nat) (x3 : Word)
    (hw : [.tu] ⊆ w) (h : SameBut w a x0) :
    SameBut w a (armPeriod x0 x1 x2 x3) := by
  refine SameBut.next ?_ hw h
  clear hw h
  unfold armPeriod
  repeat' first
    | with_reducible exact SameBut.refl _ _
    | with_reducible assumption
    | with_reducible refine SameBut.ite _ _ _ _ _ (fun _ => ?_) (fun _ => ?_)
    | with_reducible refine alarmAdd_keeps _ _ _ _ _ _ (by decide) ?_

theorem armPeriods_keeps (w : List Part) (a : Core) (x0 : Core)
    (hw : [.tu] ⊆ w) (h : SameBut w a x0) :
    SameBut w a (armPeriods x0) := by
  refine SameBut.next ?_ hw h
  clear hw h
  unfold armPeriods
  repeat' first
    | with_reducible exact SameBut.refl _ _
    | with_reducible assumption
    | (extract_lets +onlyGivenNames z; first | (refine SameBut.cut (x := z) ?_ (fun _ => ?_) <;> [(unfold z; clear z); clear_value z]) | clear_value z)
    | with_reducible refine armPeriod_keeps _ _ _ _ _ _ (by decide) ?_

end Sys2Proof.Machine
end

