-- ==== Sys2Proof/Laws/Reset.lean ====
section
/-! SUPPORT. What the operations of Reset.lean leave as it was. -/

set_option linter.unusedTactic false
set_option linter.unreachableTactic false
set_option linter.tactic.unusedName false

namespace Sys2Proof.Machine

theorem criticalError_keeps (w : List Part) (a : Core) (x0 : Core) (x1 : Nat) (x2 : Reg) (x3 : Nat)
    (hw : [.rstReq, .fatalReq] ⊆ w) (h : SameBut w a x0) :
    SameBut w a (criticalError x0 x1 x2 x3) := by
  refine SameBut.next ?_ hw h
  exact fun p => by cases p <;> first | exact Or.inl (by decide) | exact Or.inr rfl | exact Or.inr ⟨rfl, rfl⟩

theorem sicNote_keeps (w : List Part) (a : Core) (x0 : Core)
    (hw : [.sic] ⊆ w) (h : SameBut w a x0) :
    SameBut w a (sicNote x0) := by
  refine SameBut.next ?_ hw h
  clear hw h
  unfold sicNote
  repeat' first
    | with_reducible exact SameBut.refl _ _
    | with_reducible assumption
    | with_reducible refine SameBut.ite _ _ _ _ _ (fun _ => ?_) (fun _ => ?_)
    | with_reducible refine SameBut.set_sic _ _ _ _ (by decide) ?_

theorem idFinish_keeps (w : List Part) (a : Core) (x0 : Core) (x1 : Nat) (x2 : EngStatus) (x3 : List Reg)
    (hw : [.io, .engs, .sic, .pmu] ⊆ w) (h : SameBut w a x0) :
    SameBut w a (idFinish x0 x1 x2 x3) := by
  refine SameBut.next ?_ hw h
  clear hw h
  unfold idFinish
  repeat' first
    | with_reducible exact SameBut.refl _ _
    | with_reducible assumption
    | (extract_lets +onlyGivenNames z; first | (refine SameBut.cut (x := z) ?_ (fun _ => ?_) <;> [(unfold z; clear z); clear_value z]) | clear_value z)
    | with_reducible refine SameBut.ite _ _ _ _ _ (fun _ => ?_) (fun _ => ?_)
    | with_reducible refine sicNote_keeps _ _ _ (by decide) ?_
    | with_reducible refine emit_keeps _ _ _ _ (by decide) ?_
    | with_reducible refine mpWrite_keeps _ _ _ _ _ _ _ (by decide) ?_
    | with_reducible refine modEng_keeps _ _ _ _ _ (by decide) ?_
    | split
    | with_reducible refine SameBut.set_sic _ _ _ _ (by decide) ?_

theorem modFinish_keeps (w : List Part) (a : Core) (x0 : Core) (x1 : Nat) (x2 : Nat) (x3 : List Word)
    (hw : [.io, .sic, .rsPages, .pmu] ⊆ w) (h : SameBut w a x0) :
    SameBut w a (modFinish x0 x1 x2 x3) := by
  refine SameBut.next ?_ hw h
  clear hw h
  unfold modFinish
  repeat' first
    | with_reducible exact SameBut.refl _ _
    | with_reducible assumption
    | (extract_lets +onlyGivenNames z; first | (refine SameBut.cut (x := z) ?_ (fun _ => ?_) <;> [(unfold z; clear z); clear_value z]) | clear_value z)
    | with_reducible refine emit_keeps _ _ _ _ (by decide) ?_
    | with_reducible refine irqSet_keeps _ _ _ _ _ (by decide) ?_
    | with_reducible refine mpWrite_keeps _ _ _ _ _ _ _ (by decide) ?_
    | split
    | with_reducible refine SameBut.set_sic _ _ _ _ (by decide) ?_

theorem disableLanes_keeps (w : List Part) (a : Core) (x0 : Core)
    (hw : [.engs, .sic] ⊆ w) (h : SameBut w a x0) :
    SameBut w a (disableLanes x0) := by
  refine SameBut.next ?_ hw h
  clear hw h
  unfold disableLanes
  repeat' first
    | with_reducible exact SameBut.refl _ _
    | with_reducible assumption
    | (extract_lets +onlyGivenNames z; first | (refine SameBut.cut (x := z) ?_ (fun _ => ?_) <;> [(unfold z; clear z); clear_value z]) | clear_value z)
    | with_reducible refine SameBut.ite _ _ _ _ _ (fun _ => ?_) (fun _ => ?_)
    | with_reducible refine SameBut.fold _ _ _ _ _ (fun _ _ => ?_) ?_
    | with_reducible refine SameBut.set_engs _ _ _ _ (by decide) ?_
    | with_reducible refine SameBut.set_sic _ _ _ _ (by decide) ?_

theorem startDiscovery_keeps (w : List Part) (a : Core) (x0 : Core)
    (hw : [.io, .engs, .sic, .rsPages, .pmu] ⊆ w) (h : SameBut w a x0) :
    SameBut w a (startDiscovery x0) := by
  refine SameBut.next ?_ hw h
  clear hw h
  unfold startDiscovery
  repeat' first
    | with_reducible exact SameBut.refl _ _
    | with_reducible assumption
    | (extract_lets +onlyGivenNames z; first | (refine SameBut.cut (x := z) ?_ (fun _ => ?_) <;> [(unfold z; clear z); clear_value z]) | clear_value z)
    | with_reducible refine SameBut.ite _ _ _ _ _ (fun _ => ?_) (fun _ => ?_)
    | with_reducible refine emit_keeps _ _ _ _ (by decide) ?_
    | with_reducible refine irqSet_keeps _ _ _ _ _ (by decide) ?_
    | with_reducible refine mpRead_keeps _ _ _ _ _ _ _ (by decide) ?_
    | with_reducible refine disableLanes_keeps _ _ _ (by decide) ?_
    | with_reducible refine SameBut.fold _ _ _ _ _ (fun _ _ => ?_) ?_
    | split
    | with_reducible refine SameBut.set_sic _ _ _ _ (by decide) ?_

theorem startLinks_keeps (w : List Part) (a : Core) (x0 : Core)
    (hw : [.tu, .pp] ⊆ w) (h : SameBut w a x0) :
    SameBut w a (startLinks x0) := by
  refine SameBut.next ?_ hw h
  clear hw h
  unfold startLinks
  repeat' first
    | with_reducible exact SameBut.refl _ _
    | with_reducible assumption
    | (extract_lets +onlyGivenNames z; first | (refine SameBut.cut (x := z) ?_ (fun _ => ?_) <;> [(unfold z; clear z); clear_value z]) | clear_value z)
    | with_reducible refine SameBut.ite _ _ _ _ _ (fun _ => ?_) (fun _ => ?_)
    | with_reducible refine armPeriod_keeps _ _ _ _ _ _ (by decide) ?_
    | with_reducible refine modPeer_keeps _ _ _ _ _ (by decide) ?_
    | with_reducible refine SameBut.fold _ _ _ _ _ (fun _ _ => ?_) ?_
    | with_reducible refine SameBut.set_pp _ _ _ _ (by decide) ?_

theorem stageEnd_keeps (w : List Part) (a : Core) (x0 : Core)
    (hw : [.io, .bring, .engs, .lanesUp, .sic, .rsPages, .tu, .pp, .pmu] ⊆ w) (h : SameBut w a x0) :
    SameBut w a (stageEnd x0) := by
  refine SameBut.next ?_ hw h
  clear hw h
  unfold stageEnd
  repeat' first
    | with_reducible exact SameBut.refl _ _
    | with_reducible assumption
    | (extract_lets +onlyGivenNames z; first | (refine SameBut.cut (x := z) ?_ (fun _ => ?_) <;> [(unfold z; clear z); clear_value z]) | clear_value z)
    | with_reducible refine armPeriods_keeps _ _ _ (by decide) ?_
    | with_reducible refine startLinks_keeps _ _ _ (by decide) ?_
    | with_reducible refine irqSet_keeps _ _ _ _ _ (by decide) ?_
    | with_reducible refine startDiscovery_keeps _ _ _ (by decide) ?_
    | split
    | with_reducible refine SameBut.set_bring _ _ _ _ (by decide) ?_
    | with_reducible refine SameBut.set_lanesUp _ _ _ _ (by decide) ?_

end Sys2Proof.Machine
end

