-- ==== Sys2Proof/Laws/Digest.lean ====
section
/-! SUPPORT. What the operations of Digest.lean leave as it was. -/

set_option linter.unusedTactic false
set_option linter.unreachableTactic false
set_option linter.tactic.unusedName false

namespace Sys2Proof.Machine

theorem pageDigestDone_keeps (w : List Part) (a : Core) (x0 : Core) (x1 : Nat)
    (hw : [.rsPages, .rsDigest] ⊆ w) (h : SameBut w a x0) :
    SameBut w a (pageDigestDone x0 x1) := by
  refine SameBut.next ?_ hw h
  unfold pageDigestDone
  refine SameBut.ite _ _ _ _ _ (fun _ => SameBut.refl _ _) (fun _ => ?_)
  refine SameBut.ite _ _ _ _ _ (fun _ => ?_) (fun _ => ?_)
  · exact SameBut.set_dieBusy _ _ _ _ (by decide) (modPage_keeps _ _ _ _ _ (by decide) (SameBut.refl _ _))
  · exact modPage_keeps _ _ _ _ _ (by decide) (SameBut.refl _ _)

theorem dieDigestDone_keeps (w : List Part) (a : Core) (x0 : Core)
    (hw : [.rsDigest] ⊆ w) (h : SameBut w a x0) :
    SameBut w a (dieDigestDone x0) := by
  refine SameBut.next ?_ hw h
  clear hw h
  unfold dieDigestDone
  repeat' first
    | with_reducible exact SameBut.refl _ _
    | with_reducible assumption
    | with_reducible refine SameBut.ite _ _ _ _ _ (fun _ => ?_) (fun _ => ?_)
    | with_reducible refine SameBut.set_dieDigest _ _ _ _ (by decide) ?_
    | with_reducible refine SameBut.set_dieBusy _ _ _ _ (by decide) ?_
    | ((with_reducible refine SameBut.upd _ _ _ _ _ _ _ _ _ _ _ _ _ _ _ _ _ _ _ _ _ _ _ _ _ _ _ _ _ _ _ _ _ _ _ _ _ _ ?_ ?_); rotate_left; exact (fun p => by cases p <;> first | exact Or.inr rfl | exact Or.inl (by decide) | exact Or.inr ⟨rfl, rfl⟩))

end Sys2Proof.Machine
end

