-- ==== Sys2Proof/Laws/Objects.lean ====
section
/-! SUPPORT. What the operations of Objects.lean leave as it was. -/

set_option linter.unusedTactic false
set_option linter.unreachableTactic false
set_option linter.tactic.unusedName false

namespace Sys2Proof.Machine

theorem otFlush_keeps (w : List Part) (a : Core) (x0 : Core) (x1 : Nat)
    (hw : [.io, .fe, .pmu] ⊆ w) (h : SameBut w a x0) :
    SameBut w a (otFlush x0 x1) := by
  refine SameBut.next ?_ hw h
  clear hw h
  unfold otFlush
  repeat' first
    | with_reducible exact SameBut.refl _ _
    | with_reducible assumption
    | (extract_lets +onlyGivenNames z; first | (refine SameBut.cut (x := z) ?_ (fun _ => ?_) <;> [(unfold z; clear z); clear_value z]) | clear_value z)
    | with_reducible refine SameBut.ite _ _ _ _ _ (fun _ => ?_) (fun _ => ?_)
    | with_reducible refine mpWrite_keeps _ _ _ _ _ _ _ (by decide) ?_
    | split
    | with_reducible refine SameBut.set_fe _ _ _ _ (by decide) ?_

theorem otCount_keeps (w : List Part) (a : Core) (x0 : Core) (x1 : OtEff)
    (hw : [.ctxs] ⊆ w) (h : SameBut w a x0) :
    SameBut w a (otCount x0 x1) := by
  refine SameBut.next ?_ hw h
  clear hw h
  unfold otCount
  repeat' first
    | with_reducible exact SameBut.refl _ _
    | with_reducible assumption
    | with_reducible refine modCtx_keeps _ _ _ _ _ (by decide) ?_
    | split

theorem otChange_keeps (w : List Part) (a : Core) (x0 : Core) (x1 : Nat) (x2 : List Word) (x3 : List OtEff)
    (hw : [.io, .fe, .ctxs, .pmu] ⊆ w) (h : SameBut w a x0) :
    SameBut w a (otChange x0 x1 x2 x3) := by
  refine SameBut.next ?_ hw h
  clear hw h
  unfold otChange
  repeat' first
    | with_reducible exact SameBut.refl _ _
    | with_reducible assumption
    | (extract_lets +onlyGivenNames z; first | (refine SameBut.cut (x := z) ?_ (fun _ => ?_) <;> [(unfold z; clear z); clear_value z]) | clear_value z)
    | with_reducible refine otCount_keeps _ _ _ _ (by decide) ?_
    | with_reducible refine otFlush_keeps _ _ _ _ (by decide) ?_
    | with_reducible refine SameBut.fold _ _ _ _ _ (fun _ _ => ?_) ?_
    | split
    | with_reducible refine SameBut.set_fe _ _ _ _ (by decide) ?_

theorem otNeed_keeps (w : List Part) (a : Core) (x0 : Core) (x1 : Nat) (x2 : Bool)
    (hw : [.io, .fe, .pmu] ⊆ w) (h : SameBut w a x0) :
    SameBut w a (otNeed x0 x1 x2) := by
  refine SameBut.next ?_ hw h
  clear hw h
  unfold otNeed
  repeat' first
    | with_reducible exact SameBut.refl _ _
    | with_reducible assumption
    | with_reducible refine mpRead_keeps _ _ _ _ _ _ _ (by decide) ?_
    | split
    | with_reducible refine SameBut.set_fe _ _ _ _ (by decide) ?_

theorem otRelease_keeps (w : List Part) (a : Core) (x0 : Core) (x1 : Nat) (x2 : List Word)
    (hw : [.io, .fe, .ctxs, .pmu] ⊆ w) (h : SameBut w a x0) :
    SameBut w a (otRelease x0 x1 x2) := by
  refine SameBut.next ?_ hw h
  clear hw h
  unfold otRelease
  repeat' first
    | with_reducible exact SameBut.refl _ _
    | with_reducible assumption
    | (extract_lets +onlyGivenNames z; first | (refine SameBut.cut (x := z) ?_ (fun _ => ?_) <;> [(unfold z; clear z); clear_value z]) | clear_value z)
    | with_reducible refine SameBut.ite _ _ _ _ _ (fun _ => ?_) (fun _ => ?_)
    | with_reducible refine otChange_keeps _ _ _ _ _ _ (by decide) ?_

theorem relPump_keeps (w : List Part) (a : Core) (x0 : Core)
    (hw : [.io, .fe, .ctxs, .pmu] ⊆ w) (h : SameBut w a x0) :
    SameBut w a (relPump x0) := by
  refine SameBut.next ?_ hw h
  clear hw h
  unfold relPump
  repeat' first
    | with_reducible exact SameBut.refl _ _
    | with_reducible assumption
    | with_reducible refine otNeed_keeps _ _ _ _ _ (by decide) ?_
    | with_reducible refine otRelease_keeps _ _ _ _ _ (by decide) ?_
    | with_reducible refine SameBut.fold _ _ _ _ _ (fun _ _ => ?_) ?_
    | split
    | with_reducible refine SameBut.set_fe _ _ _ _ (by decide) ?_

theorem queryPump_keeps (w : List Part) (a : Core) (x0 : Core)
    (hw : [.rsPages, .fe] ⊆ w) (h : SameBut w a x0) :
    SameBut w a (queryPump x0) := by
  refine SameBut.next ?_ hw h
  clear hw h
  unfold queryPump
  repeat' first
    | with_reducible exact SameBut.refl _ _
    | with_reducible assumption
    | (extract_lets +onlyGivenNames z; first | (refine SameBut.cut (x := z) ?_ (fun _ => ?_) <;> [(unfold z; clear z); clear_value z]) | clear_value z)
    | with_reducible refine irqSet_keeps _ _ _ _ _ (by decide) ?_
    | split
    | with_reducible refine SameBut.set_fe _ _ _ _ (by decide) ?_

theorem otPump_keeps (w : List Part) (a : Core) (x0 : Core)
    (hw : [.io, .rsPages, .fe, .ctxs, .pmu] ⊆ w) (h : SameBut w a x0) :
    SameBut w a (otPump x0) := by
  refine SameBut.next ?_ hw h
  clear hw h
  unfold otPump
  repeat' first
    | with_reducible exact SameBut.refl _ _
    | with_reducible assumption
    | (extract_lets +onlyGivenNames z; first | (refine SameBut.cut (x := z) ?_ (fun _ => ?_) <;> [(unfold z; clear z); clear_value z]) | clear_value z)
    | with_reducible refine queryPump_keeps _ _ _ (by decide) ?_
    | with_reducible refine relPump_keeps _ _ _ (by decide) ?_
    | with_reducible refine SameBut.set_fe _ _ _ _ (by decide) ?_

theorem objQuery_keeps (w : List Part) (a : Core) (x0 : Core) (x1 : Nat)
    (hw : [.io, .rsPages, .fe, .ctxs, .pmu] ⊆ w) (h : SameBut w a x0) :
    SameBut w a (objQuery x0 x1) := by
  refine SameBut.next ?_ hw h
  clear hw h
  unfold objQuery
  repeat' first
    | with_reducible exact SameBut.refl _ _
    | with_reducible assumption
    | with_reducible refine otNeed_keeps _ _ _ _ _ (by decide) ?_
    | with_reducible refine otPump_keeps _ _ _ (by decide) ?_
    | with_reducible refine SameBut.set_fe _ _ _ _ (by decide) ?_

end Sys2Proof.Machine
end

