-- ==== Sys2Proof/Laws/Resp.lean ====
section
/-! SUPPORT. What the operations of Resp.lean leave as it was. -/

set_option linter.unusedTactic false
set_option linter.unreachableTactic false
set_option linter.tactic.unusedName false

namespace Sys2Proof.Machine

theorem postRec_keeps (w : List Part) (a : Core) (x0 : Core) (x1 : Rec)
    (hw : [.io, .rsRegs, .rsPages, .fe, .pmu] ⊆ w) (h : SameBut w a x0) :
    SameBut w a (postRec x0 x1) := by
  refine SameBut.next ?_ hw h
  clear hw h
  unfold postRec
  repeat' first
    | with_reducible exact SameBut.refl _ _
    | with_reducible assumption
    | (extract_lets +onlyGivenNames z; first | (refine SameBut.cut (x := z) ?_ (fun _ => ?_) <;> [(unfold z; clear z); clear_value z]) | clear_value z)
    | with_reducible refine SameBut.ite _ _ _ _ _ (fun _ => ?_) (fun _ => ?_)
    | with_reducible refine hipWrite_keeps _ _ _ _ _ _ _ (by decide) ?_
    | with_reducible refine regSet_keeps _ _ _ _ _ _ (by decide) ?_
    | with_reducible refine SameBut.set_fe _ _ _ _ (by decide) ?_

theorem pushRec_keeps (w : List Part) (a : Core) (x0 : Core) (x1 : Rec)
    (hw : [.io, .rsRegs, .rsPages, .fe, .pmu] ⊆ w) (h : SameBut w a x0) :
    SameBut w a (pushRec x0 x1) := by
  refine SameBut.next ?_ hw h
  clear hw h
  unfold pushRec
  repeat' first
    | with_reducible exact SameBut.refl _ _
    | with_reducible assumption
    | with_reducible refine SameBut.ite _ _ _ _ _ (fun _ => ?_) (fun _ => ?_)
    | with_reducible refine postRec_keeps _ _ _ _ (by decide) ?_
    | with_reducible refine SameBut.set_fe _ _ _ _ (by decide) ?_

theorem pumpRecs_keeps (w : List Part) (a : Core) (x0 : Core) (x1 : List Rec)
    (hw : [.io, .rsRegs, .rsPages, .fe, .pmu] ⊆ w) (h : SameBut w a x0) :
    SameBut w a (pumpRecs x0 x1) := by
  refine SameBut.next ?_ hw h
  clear hw h
  fun_induction pumpRecs x0 x1
  all_goals repeat' first
    | with_reducible exact SameBut.refl _ _
    | with_reducible assumption
    | (with_reducible refine SameBut.trans ?_ (by assumption))
    | with_reducible refine SameBut.ite _ _ _ _ _ (fun _ => ?_) (fun _ => ?_)
    | with_reducible refine postRec_keeps _ _ _ _ (by decide) ?_
    | split
    | with_reducible refine SameBut.set_fe _ _ _ _ (by decide) ?_

theorem respPump_keeps (w : List Part) (a : Core) (x0 : Core)
    (hw : [.io, .rsRegs, .rsPages, .fe, .pmu] ⊆ w) (h : SameBut w a x0) :
    SameBut w a (respPump x0) := by
  refine SameBut.next ?_ hw h
  clear hw h
  unfold respPump
  repeat' first
    | with_reducible exact SameBut.refl _ _
    | with_reducible assumption
    | with_reducible refine pumpRecs_keeps _ _ _ _ (by decide) ?_

theorem answerRec_keeps (w : List Part) (a : Core) (x0 : Core) (x1 : Rec)
    (hw : [.io, .rsRegs, .rsCnts, .rsPages, .fe, .pmu] ⊆ w) (h : SameBut w a x0) :
    SameBut w a (answerRec x0 x1) := by
  refine SameBut.next ?_ hw h
  clear hw h
  unfold answerRec
  repeat' first
    | with_reducible exact SameBut.refl _ _
    | with_reducible assumption
    | (extract_lets +onlyGivenNames z; first | (refine SameBut.cut (x := z) ?_ (fun _ => ?_) <;> [(unfold z; clear z); clear_value z]) | clear_value z)
    | with_reducible refine SameBut.ite _ _ _ _ _ (fun _ => ?_) (fun _ => ?_)
    | with_reducible refine cntAdd_keeps _ _ _ _ _ _ (by decide) ?_
    | with_reducible refine irqSet_keeps _ _ _ _ _ (by decide) ?_
    | with_reducible refine postRec_keeps _ _ _ _ (by decide) ?_
    | with_reducible refine SameBut.set_fe _ _ _ _ (by decide) ?_

theorem answer_keeps (w : List Part) (a : Core) (x0 : Core) (x1 : Hdr) (x2 : Nat) (x3 : Word) (x4 : Word) (x5 : Nat)
    (hw : [.io, .rsRegs, .rsCnts, .rsPages, .fe, .pmu] ⊆ w) (h : SameBut w a x0) :
    SameBut w a (answer x0 x1 x2 x3 x4 x5) := by
  refine SameBut.next ?_ hw h
  clear hw h
  unfold answer
  repeat' first
    | with_reducible exact SameBut.refl _ _
    | with_reducible assumption
    | with_reducible refine answerRec_keeps _ _ _ _ (by decide) ?_

theorem dropSub_keeps (w : List Part) (a : Core) (x0 : Core) (x1 : Nat) (x2 : Nat)
    (hw : [.io, .rsPages, .fe, .queues, .ctxs, .pmu] ⊆ w) (h : SameBut w a x0) :
    SameBut w a (dropSub x0 x1 x2) := by
  refine SameBut.next ?_ hw h
  clear hw h
  unfold dropSub
  repeat' first
    | with_reducible exact SameBut.refl _ _
    | with_reducible assumption
    | (extract_lets +onlyGivenNames z; first | (refine SameBut.cut (x := z) ?_ (fun _ => ?_) <;> [(unfold z; clear z); clear_value z]) | clear_value z)
    | with_reducible refine modQ_keeps _ _ _ _ _ (by decide) ?_
    | with_reducible refine otPump_keeps _ _ _ (by decide) ?_
    | split
    | with_reducible refine SameBut.set_fe _ _ _ _ (by decide) ?_

theorem modSub_keeps (w : List Part) (a : Core) (x0 : Core) (x1 : Nat) (x2 : Nat) (x3 : Sub → Sub)
    (hw : [.queues] ⊆ w) (h : SameBut w a x0) :
    SameBut w a (modSub x0 x1 x2 x3) := by
  refine SameBut.next ?_ hw h
  clear hw h
  unfold modSub
  repeat' first
    | with_reducible exact SameBut.refl _ _
    | with_reducible assumption
    | with_reducible refine SameBut.ite _ _ _ _ _ (fun _ => ?_) (fun _ => ?_)
    | with_reducible refine modQ_keeps _ _ _ _ _ (by decide) ?_

theorem subDone_keeps (w : List Part) (a : Core) (x0 : Core) (x1 : Nat) (x2 : Nat)
    (hw : [.io, .rsPages, .fe, .queues, .ctxs, .pmu] ⊆ w) (h : SameBut w a x0) :
    SameBut w a (subDone x0 x1 x2) := by
  refine SameBut.next ?_ hw h
  clear hw h
  unfold subDone
  repeat' first
    | with_reducible exact SameBut.refl _ _
    | with_reducible assumption
    | with_reducible refine SameBut.ite _ _ _ _ _ (fun _ => ?_) (fun _ => ?_)
    | with_reducible refine dropSub_keeps _ _ _ _ _ (by decide) ?_
    | split

theorem balCheck_keeps (w : List Part) (a : Core) (x0 : Core) (x1 : Nat)
    (hw : [.rsPages, .queues] ⊆ w) (h : SameBut w a x0) :
    SameBut w a (balCheck x0 x1) := by
  refine SameBut.next ?_ hw h
  clear hw h
  unfold balCheck
  repeat' first
    | with_reducible exact SameBut.refl _ _
    | with_reducible assumption
    | (extract_lets +onlyGivenNames z; first | (refine SameBut.cut (x := z) ?_ (fun _ => ?_) <;> [(unfold z; clear z); clear_value z]) | clear_value z)
    | with_reducible refine SameBut.ite _ _ _ _ _ (fun _ => ?_) (fun _ => ?_)
    | with_reducible refine pageErr_keeps _ _ _ _ _ _ _ (by decide) ?_
    | with_reducible refine modQ_keeps _ _ _ _ _ (by decide) ?_
    | with_reducible refine irqSet_keeps _ _ _ _ _ (by decide) ?_

end Sys2Proof.Machine
end

