-- ==== Sys2Proof/Laws/RouteEnd.lean ====
section
/-! SUPPORT. What the operations of RouteEnd.lean leave as it was. -/

set_option linter.unusedTactic false
set_option linter.unreachableTactic false
set_option linter.tactic.unusedName false

namespace Sys2Proof.Machine

theorem modRoute_keeps (w : List Part) (a : Core) (x0 : Core) (x1 : Nat) (x2 : Route → Route)
    (hw : [.shr] ⊆ w) (h : SameBut w a x0) :
    SameBut w a (modRoute x0 x1 x2) := by
  refine SameBut.next ?_ hw h
  clear hw h
  unfold modRoute
  repeat' first
    | with_reducible exact SameBut.refl _ _
    | with_reducible assumption
    | with_reducible refine SameBut.ite _ _ _ _ _ (fun _ => ?_) (fun _ => ?_)
    | with_reducible refine SameBut.set_shr _ _ _ _ (by decide) ?_

theorem sendAbort_keeps (w : List Part) (a : Core) (x0 : Core) (x1 : Route) (x2 : Peer)
    (hw : [.io, .rsCnts, .isr, .pp, .pmu, .free] ⊆ w) (h : SameBut w a x0) :
    SameBut w a (sendAbort x0 x1 x2) := by
  refine SameBut.next ?_ hw h
  clear hw h
  unfold sendAbort
  repeat' first
    | with_reducible exact SameBut.refl _ _
    | with_reducible assumption
    | (extract_lets +onlyGivenNames z; first | (refine SameBut.cut (x := z) ?_ (fun _ => ?_) <;> [(unfold z; clear z); clear_value z]) | (refine SameBut.cut (x := z.2) ?_ (fun _ => ?_) <;> [(unfold z; clear z); clear_value z]) | (refine SameBut.cut (x := z.1) ?_ (fun _ => ?_) <;> [(unfold z; clear z); clear_value z]) | clear_value z)
    | with_reducible refine SameBut.ite _ _ _ _ _ (fun _ => ?_) (fun _ => ?_)
    | with_reducible refine freeWord_keeps _ _ _ (by decide) ?_
    | with_reducible refine sendRemMsg_keeps _ _ _ _ _ _ (by decide) ?_
    | with_reducible refine freeNat_keeps _ _ _ (by decide) ?_
    | with_reducible refine freeWord_keeps_eq _ _ _ _ _ ‹_› (by decide) ?_
    | with_reducible refine freeNat_keeps_eq _ _ _ _ _ ‹_› (by decide) ?_
    | split

theorem writePlanState_keeps (w : List Part) (a : Core) (x0 : Core) (x1 : Route) (x2 : Nat)
    (hw : [.io, .pmu] ⊆ w) (h : SameBut w a x0) :
    SameBut w a (writePlanState x0 x1 x2) := by
  refine SameBut.next ?_ hw h
  clear hw h
  unfold writePlanState
  repeat' first
    | with_reducible exact SameBut.refl _ _
    | with_reducible assumption
    | with_reducible refine SameBut.ite _ _ _ _ _ (fun _ => ?_) (fun _ => ?_)
    | with_reducible refine sendReq_keeps _ _ _ _ (by decide) ?_
    | split

theorem endRoute_keeps (w : List Part) (a : Core) (x0 : Core) (x1 : Route)
    (hw : [.io, .rsCnts, .isr, .shr, .pp, .pmu, .free] ⊆ w) (h : SameBut w a x0) :
    SameBut w a (endRoute x0 x1) := by
  refine SameBut.next ?_ hw h
  clear hw h
  unfold endRoute
  repeat' first
    | with_reducible exact SameBut.refl _ _
    | with_reducible assumption
    | (extract_lets +onlyGivenNames z; first | (refine SameBut.cut (x := z) ?_ (fun _ => ?_) <;> [(unfold z; clear z); clear_value z]) | clear_value z)
    | with_reducible refine sendAbort_keeps _ _ _ _ _ (by decide) ?_
    | with_reducible refine writePlanState_keeps _ _ _ _ _ (by decide) ?_
    | with_reducible refine SameBut.fold _ _ _ _ _ (fun _ _ => ?_) ?_
    | with_reducible refine SameBut.set_shr _ _ _ _ (by decide) ?_

theorem routeKick_keeps (w : List Part) (a : Core) (x0 : Core)
    (hw : [.io, .shr, .pmu] ⊆ w) (h : SameBut w a x0) :
    SameBut w a (routeKick x0) := by
  refine SameBut.next ?_ hw h
  clear hw h
  unfold routeKick
  repeat' first
    | with_reducible exact SameBut.refl _ _
    | with_reducible assumption
    | (extract_lets +onlyGivenNames z; first | (refine SameBut.cut (x := z) ?_ (fun _ => ?_) <;> [(unfold z; clear z); clear_value z]) | clear_value z)
    | with_reducible refine SameBut.ite _ _ _ _ _ (fun _ => ?_) (fun _ => ?_)
    | with_reducible refine modRoute_keeps _ _ _ _ _ (by decide) ?_
    | with_reducible refine mpRead_keeps _ _ _ _ _ _ _ (by decide) ?_
    | split

theorem dropRoute_keeps (w : List Part) (a : Core) (x0 : Core) (x1 : Route)
    (hw : [.io, .rsCnts, .isr, .shr, .pp, .pmu, .free] ⊆ w) (h : SameBut w a x0) :
    SameBut w a (dropRoute x0 x1) := by
  refine SameBut.next ?_ hw h
  clear hw h
  unfold dropRoute
  repeat' first
    | with_reducible exact SameBut.refl _ _
    | with_reducible assumption
    | with_reducible refine SameBut.ite _ _ _ _ _ (fun _ => ?_) (fun _ => ?_)
    | with_reducible refine modRoute_keeps _ _ _ _ _ (by decide) ?_
    | with_reducible refine endRoute_keeps _ _ _ _ (by decide) ?_

theorem dropRoutes_keeps (w : List Part) (a : Core) (x0 : Core) (x1 : Nat)
    (hw : [.io, .rsCnts, .isr, .shr, .pp, .pmu, .free] ⊆ w) (h : SameBut w a x0) :
    SameBut w a (dropRoutes x0 x1) := by
  refine SameBut.next ?_ hw h
  clear hw h
  unfold dropRoutes
  repeat' first
    | with_reducible exact SameBut.refl _ _
    | with_reducible assumption
    | (extract_lets +onlyGivenNames z; first | (refine SameBut.cut (x := z) ?_ (fun _ => ?_) <;> [(unfold z; clear z); clear_value z]) | clear_value z)
    | with_reducible refine dropRoute_keeps _ _ _ _ (by decide) ?_
    | with_reducible refine routeKick_keeps _ _ _ (by decide) ?_
    | with_reducible refine SameBut.fold _ _ _ _ _ (fun _ _ => ?_) ?_

end Sys2Proof.Machine
end

