-- ==== Sys2Proof/Laws/Halt.lean ====
section
/-! SUPPORT. What the operations of Halt.lean leave as it was. -/

set_option linter.unusedTactic false
set_option linter.unreachableTactic false
set_option linter.tactic.unusedName false

namespace Sys2Proof.Machine

theorem abortIssue_keeps (w : List Part) (a : Core) (x0 : Core) (x1 : Nat) (x2 : Nat) (x3 : Nat)
    (hw : [.io, .lanes] ⊆ w) (h : SameBut w a x0) :
    SameBut w a (abortIssue x0 x1 x2 x3) := by
  refine SameBut.next ?_ hw h
  clear hw h
  unfold abortIssue
  repeat' first
    | with_reducible exact SameBut.refl _ _
    | with_reducible assumption
    | (extract_lets +onlyGivenNames z; first | (refine SameBut.cut (x := z) ?_ (fun _ => ?_) <;> [(unfold z; clear z); clear_value z]) | clear_value z)
    | with_reducible refine SameBut.ite _ _ _ _ _ (fun _ => ?_) (fun _ => ?_)
    | with_reducible refine emit_keeps _ _ _ _ (by decide) ?_
    | with_reducible refine modLane_keeps _ _ _ _ _ (by decide) ?_

theorem abortWhere_keeps (w : List Part) (a : Core) (x0 : Core) (x1 : Nat) (x2 : Issue → Bool)
    (hw : [.io, .lanes] ⊆ w) (h : SameBut w a x0) :
    SameBut w a (abortWhere x0 x1 x2).1 := by
  refine SameBut.next ?_ hw h
  clear hw h
  unfold abortWhere
  repeat' first
    | with_reducible exact SameBut.refl _ _
    | with_reducible assumption
    | (extract_lets +onlyGivenNames z; first | (refine SameBut.cut (x := z) ?_ (fun _ => ?_) <;> [(unfold z; clear z); clear_value z]) | clear_value z)
    | with_reducible refine abortIssue_keeps _ _ _ _ _ _ (by decide) ?_
    | with_reducible refine SameBut.fold _ _ _ _ _ (fun _ _ => ?_) ?_

theorem abortWhere_keeps_eq (w : List Part) (a : Core) (x0 : Core) (x1 : Nat) (x2 : Issue → Bool)
    (y d) (e : abortWhere x0 x1 x2 = (d, y)) (hw : [.io, .lanes] ⊆ w) (h : SameBut w a x0) :
    SameBut w a d := by
  have := abortWhere_keeps w a x0 x1 x2 hw h
  rw [e] at this
  exact this

theorem cruDrop_keeps (w : List Part) (a : Core) (x0 : Core) (x1 : Nat)
    (hw : [.rsCnts, .cru] ⊆ w) (h : SameBut w a x0) :
    SameBut w a (cruDrop x0 x1) := by
  refine SameBut.next ?_ hw h
  clear hw h
  unfold cruDrop
  repeat' first
    | with_reducible exact SameBut.refl _ _
    | with_reducible assumption
    | (extract_lets +onlyGivenNames z; first | (refine SameBut.cut (x := z) ?_ (fun _ => ?_) <;> [(unfold z; clear z); clear_value z]) | clear_value z)
    | with_reducible refine SameBut.ite _ _ _ _ _ (fun _ => ?_) (fun _ => ?_)
    | with_reducible refine cntAdd_keeps _ _ _ _ _ _ (by decide) ?_
    | with_reducible refine SameBut.fold _ _ _ _ _ (fun _ _ => ?_) ?_
    | with_reducible refine SameBut.set_cru _ _ _ _ (by decide) ?_

theorem dropInst_keeps (w : List Part) (a : Core) (x0 : Core) (x1 : Nat)
    (hw : [.io, .rsCnts, .isr, .de, .lanes, .cru, .shr, .pp, .pmu, .free] ⊆ w) (h : SameBut w a x0) :
    SameBut w a (dropInst x0 x1) := by
  refine SameBut.next ?_ hw h
  clear hw h
  unfold dropInst
  repeat' first
    | with_reducible exact SameBut.refl _ _
    | with_reducible assumption
    | (extract_lets +onlyGivenNames z; first | (refine SameBut.cut (x := z) ?_ (fun _ => ?_) <;> [(unfold z; clear z); clear_value z]) | (refine SameBut.cut (x := z.2) ?_ (fun _ => ?_) <;> [(unfold z; clear z); clear_value z]) | (refine SameBut.cut (x := z.1) ?_ (fun _ => ?_) <;> [(unfold z; clear z); clear_value z]) | clear_value z)
    | with_reducible refine SameBut.ite _ _ _ _ _ (fun _ => ?_) (fun _ => ?_)
    | with_reducible refine dropRoutes_keeps _ _ _ _ (by decide) ?_
    | with_reducible refine cruDrop_keeps _ _ _ _ (by decide) ?_
    | with_reducible refine SameBut.fold _ _ _ _ _ (fun _ _ => ?_) ?_
    | split
    | with_reducible refine SameBut.set_isr _ _ _ _ (by decide) ?_
    | with_reducible refine SameBut.set_de _ _ _ _ (by decide) ?_
    | with_reducible refine SameBut.set_lanes _ _ _ _ (by decide) ?_
    | ((with_reducible refine SameBut.upd _ _ _ _ _ _ _ _ _ _ _ _ _ _ _ _ _ _ _ _ _ _ _ _ _ _ _ _ _ _ _ _ _ _ _ _ _ _ ?_ ?_); rotate_left; exact (fun p => by cases p <;> first | exact Or.inr rfl | exact Or.inl (by decide) | exact Or.inr ⟨rfl, rfl⟩))

theorem instAbort_keeps (w : List Part) (a : Core) (x0 : Core) (x1 : Nat) (x2 : Option Nat)
    (hw : [.io, .rsCnts, .isr, .de, .lanes, .cru, .shr, .pp, .pmu, .free] ⊆ w) (h : SameBut w a x0) :
    SameBut w a (instAbort x0 x1 x2).1 := by
  refine SameBut.next ?_ hw h
  clear hw h
  unfold instAbort
  repeat' first
    | with_reducible exact SameBut.refl _ _
    | with_reducible assumption
    | (extract_lets +onlyGivenNames z; first | (refine SameBut.cut (x := z) ?_ (fun _ => ?_) <;> [(unfold z; clear z); clear_value z]) | clear_value z)
    | with_reducible refine SameBut.ite _ _ _ _ _ (fun _ => ?_) (fun _ => ?_)
    | with_reducible refine dropInst_keeps _ _ _ _ (by decide) ?_
    | with_reducible refine abortWhere_keeps _ _ _ _ _ (by decide) ?_
    | with_reducible refine modInst_keeps _ _ _ _ _ (by decide) ?_
    | with_reducible refine abortWhere_keeps_eq _ _ _ _ _ _ _ ‹_› (by decide) ?_
    | split

theorem instAbort_keeps_eq (w : List Part) (a : Core) (x0 : Core) (x1 : Nat) (x2 : Option Nat)
    (y d) (e : instAbort x0 x1 x2 = (d, y)) (hw : [.io, .rsCnts, .isr, .de, .lanes, .cru, .shr, .pp, .pmu, .free] ⊆ w) (h : SameBut w a x0) :
    SameBut w a d := by
  have := instAbort_keeps w a x0 x1 x2 hw h
  rw [e] at this
  exact this

theorem instsAbort_keeps (w : List Part) (a : Core) (x0 : Core) (x1 : List Nat) (x2 : Option Nat)
    (hw : [.io, .rsCnts, .isr, .de, .lanes, .cru, .shr, .pp, .pmu, .free] ⊆ w) (h : SameBut w a x0) :
    SameBut w a (instsAbort x0 x1 x2).1 := by
  refine SameBut.next ?_ hw h
  exact SameBut.fold_fst _ _ _ _ _ (fun p x => instAbort_keeps _ _ _ _ _ (by decide) (SameBut.refl _ _)) (SameBut.refl _ _)

theorem instsAbort_keeps_eq (w : List Part) (a : Core) (x0 : Core) (x1 : List Nat) (x2 : Option Nat)
    (y d) (e : instsAbort x0 x1 x2 = (d, y)) (hw : [.io, .rsCnts, .isr, .de, .lanes, .cru, .shr, .pp, .pmu, .free] ⊆ w) (h : SameBut w a x0) :
    SameBut w a d := by
  have := instsAbort_keeps w a x0 x1 x2 hw h
  rw [e] at this
  exact this

theorem rxRelease_keeps (w : List Part) (a : Core) (x0 : Core) (x1 : Nat) (x2 : Nat)
    (hw : [.mf] ⊆ w) (h : SameBut w a x0) :
    SameBut w a (rxRelease x0 x1 x2) := by
  refine SameBut.next ?_ hw h
  clear hw h
  unfold rxRelease
  repeat' first
    | with_reducible exact SameBut.refl _ _
    | with_reducible assumption
    | (extract_lets +onlyGivenNames z; first | (refine SameBut.cut (x := z) ?_ (fun _ => ?_) <;> [(unfold z; clear z); clear_value z]) | clear_value z)
    | with_reducible refine SameBut.ite _ _ _ _ _ (fun _ => ?_) (fun _ => ?_)
    | with_reducible refine modRxq_keeps _ _ _ _ _ (by decide) ?_

theorem rxGiveBack_keeps (w : List Part) (a : Core) (x0 : Core) (x1 : Nat)
    (hw : [.sqs, .mf] ⊆ w) (h : SameBut w a x0) :
    SameBut w a (rxGiveBack x0 x1) := by
  refine SameBut.next ?_ hw h
  clear hw h
  unfold rxGiveBack
  repeat' first
    | with_reducible exact SameBut.refl _ _
    | with_reducible assumption
    | with_reducible refine rxRelease_keeps _ _ _ _ _ (by decide) ?_
    | with_reducible refine modSq_keeps _ _ _ _ _ (by decide) ?_
    | split

theorem forgetSend_keeps (w : List Part) (a : Core) (x0 : Core) (x1 : Nat)
    (hw : [.mf, .pp] ⊆ w) (h : SameBut w a x0) :
    SameBut w a (forgetSend x0 x1) := by
  refine SameBut.next ?_ hw h
  clear hw h
  unfold forgetSend
  repeat' first
    | with_reducible exact SameBut.refl _ _
    | with_reducible assumption
    | (extract_lets +onlyGivenNames z; first | (refine SameBut.cut (x := z) ?_ (fun _ => ?_) <;> [(unfold z; clear z); clear_value z]) | (refine SameBut.cut (x := z.2) ?_ (fun _ => ?_) <;> [(unfold z; clear z); clear_value z]) | (refine SameBut.cut (x := z.1) ?_ (fun _ => ?_) <;> [(unfold z; clear z); clear_value z]) | clear_value z)
    | with_reducible refine SameBut.ite _ _ _ _ _ (fun _ => ?_) (fun _ => ?_)
    | with_reducible refine SameBut.set_mf _ _ _ _ (by decide) ?_
    | with_reducible refine SameBut.set_pp _ _ _ _ (by decide) ?_
    | ((with_reducible refine SameBut.upd _ _ _ _ _ _ _ _ _ _ _ _ _ _ _ _ _ _ _ _ _ _ _ _ _ _ _ _ _ _ _ _ _ _ _ _ _ _ ?_ ?_); rotate_left; exact (fun p => by cases p <;> first | exact Or.inr rfl | exact Or.inl (by decide) | exact Or.inr ⟨rfl, rfl⟩))

theorem dropHeld_keeps (w : List Part) (a : Core) (x0 : Core) (x1 : Nat) (x2 : Nat)
    (hw : [.pp] ⊆ w) (h : SameBut w a x0) :
    SameBut w a (dropHeld x0 x1 x2) := by
  refine SameBut.next ?_ hw h
  clear hw h
  unfold dropHeld
  repeat' first
    | with_reducible exact SameBut.refl _ _
    | with_reducible assumption
    | with_reducible refine modPeer_keeps _ _ _ _ _ (by decide) ?_

theorem cancelRemote_keeps (w : List Part) (a : Core) (x0 : Core) (x1 : Nat) (x2 : Nat) (x3 : Nat)
    (hw : [.io, .rsCnts, .isr, .pp, .pmu] ⊆ w) (h : SameBut w a x0) :
    SameBut w a (cancelRemote x0 x1 x2 x3) := by
  refine SameBut.next ?_ hw h
  clear hw h
  unfold cancelRemote
  repeat' first
    | with_reducible exact SameBut.refl _ _
    | with_reducible assumption
    | with_reducible refine SameBut.ite _ _ _ _ _ (fun _ => ?_) (fun _ => ?_)
    | with_reducible refine dropHeld_keeps _ _ _ _ _ (by decide) ?_
    | with_reducible refine linkOffer_keeps _ _ _ _ _ _ (by decide) ?_

theorem stopCommand_keeps (w : List Part) (a : Core) (x0 : Core) (x1 : Nat)
    (hw : [.io, .rsCnts, .queues, .isr, .st, .mf, .sched, .tu, .pp, .pmu, .trc] ⊆ w) (h : SameBut w a x0) :
    SameBut w a (stopCommand x0 x1) := by
  refine SameBut.next ?_ hw h
  clear hw h
  unfold stopCommand
  extract_lets +onlyGivenNames s u v c
  have hc : SameBut [.io, .rsCnts, .queues, .isr, .st, .mf, .sched, .tu, .pp, .pmu, .trc] x0 c := SameBut.upd _ _ _ _ _ _ _ _ _ _ _ _ _ _ _ _ _ _ _ _ _ _ _ _ _ _ _ _ _ _ _ _ _ _ _ _ _ _ (SameBut.refl _ x0) (fun p => by cases p <;> first | exact Or.inl (by decide) | exact Or.inr rfl | exact Or.inr ⟨rfl, rfl⟩)
  clear_value c
  clear_value s
  cases hk : s.stall with
  | waitObj h v => exact endWait_keeps _ _ _ _ _ (by decide) (SameBut.set_st _ _ _ _ (by decide) hc)
  | waitRemote die h v r => exact cancelRemote_keeps _ _ _ _ _ _ (by decide) hc
  | waitTally t => exact alarmDrop_keeps _ _ _ _ _ (by decide) hc
  | send m d s a n => exact forgetSend_keeps _ _ _ _ (by decide) hc
  | launch => exact SameBut.set_isr _ _ _ _ (by decide) hc
  | sig => exact SameBut.fold _ _ _ _ _ (fun _ _ => dropHeld_keeps _ _ _ _ _ (by decide) (SameBut.refl _ _)) (SameBut.set_st _ _ _ _ (by decide) hc)
  | _ => exact hc

theorem freeSq_keeps (w : List Part) (a : Core) (x0 : Core) (x1 : Nat)
    (hw : [.sqs, .mf] ⊆ w) (h : SameBut w a x0) :
    SameBut w a (freeSq x0 x1) := by
  refine SameBut.next ?_ hw h
  clear hw h
  unfold freeSq
  repeat' first
    | with_reducible exact SameBut.refl _ _
    | with_reducible assumption
    | (extract_lets +onlyGivenNames z; first | (refine SameBut.cut (x := z) ?_ (fun _ => ?_) <;> [(unfold z; clear z); clear_value z]) | clear_value z)
    | with_reducible refine modSq_keeps _ _ _ _ _ (by decide) ?_
    | with_reducible refine rxGiveBack_keeps _ _ _ _ (by decide) ?_

theorem programOver_keeps (w : List Part) (a : Core) (x0 : Core) (x1 : Nat)
    (hw : [.queues] ⊆ w) (h : SameBut w a x0) :
    SameBut w a (programOver x0 x1) := by
  refine SameBut.next ?_ hw h
  clear hw h
  unfold programOver
  repeat' first
    | with_reducible exact SameBut.refl _ _
    | with_reducible assumption
    | with_reducible refine modQ_keeps _ _ _ _ _ (by decide) ?_
    | with_reducible refine modSub_keeps _ _ _ _ _ _ (by decide) ?_
    | split

theorem programEnded_keeps (w : List Part) (a : Core) (x0 : Core) (x1 : Nat) (x2 : Nat)
    (hw : [.queues, .trc] ⊆ w) (h : SameBut w a x0) :
    SameBut w a (programEnded x0 x1 x2) := by
  refine SameBut.next ?_ hw h
  clear hw h
  unfold programEnded
  repeat' first
    | with_reducible exact SameBut.refl _ _
    | with_reducible assumption
    | (extract_lets +onlyGivenNames z; first | (refine SameBut.cut (x := z) ?_ (fun _ => ?_) <;> [(unfold z; clear z); clear_value z]) | clear_value z)
    | with_reducible refine programOver_keeps _ _ _ _ (by decide) ?_
    | with_reducible refine trace_keeps _ _ _ _ _ _ _ _ _ _ (by decide) ?_
    | split

theorem endPreempt_keeps (w : List Part) (a : Core) (x0 : Core) (x1 : Nat) (x2 : Option Nat)
    (hw : [.io, .lanes, .mf, .sched] ⊆ w) (h : SameBut w a x0) :
    SameBut w a (endPreempt x0 x1 x2).1 := by
  refine SameBut.next ?_ hw h
  clear hw h
  unfold endPreempt
  repeat' first
    | with_reducible exact SameBut.refl _ _
    | with_reducible assumption
    | (extract_lets +onlyGivenNames z; first | (refine SameBut.cut (x := z) ?_ (fun _ => ?_) <;> [(unfold z; clear z); clear_value z]) | clear_value z)
    | with_reducible refine SameBut.ite _ _ _ _ _ (fun _ => ?_) (fun _ => ?_)
    | with_reducible refine modPre_keeps _ _ _ _ _ (by decide) ?_
    | with_reducible refine rxRelease_keeps _ _ _ _ _ (by decide) ?_
    | with_reducible refine inheritKeep_keeps _ _ _ (by decide) ?_
    | with_reducible refine abortWhere_keeps _ _ _ _ _ (by decide) ?_
    | with_reducible refine abortWhere_keeps_eq _ _ _ _ _ _ _ ‹_› (by decide) ?_
    | split

theorem endPreempt_keeps_eq (w : List Part) (a : Core) (x0 : Core) (x1 : Nat) (x2 : Option Nat)
    (y d) (e : endPreempt x0 x1 x2 = (d, y)) (hw : [.io, .lanes, .mf, .sched] ⊆ w) (h : SameBut w a x0) :
    SameBut w a d := by
  have := endPreempt_keeps w a x0 x1 x2 hw h
  rw [e] at this
  exact this

theorem strmNext_keeps (w : List Part) (a : Core) (x0 : Core) (x1 : Nat)
    (hw : [.io, .strm, .pmu] ⊆ w) (h : SameBut w a x0) :
    SameBut w a (strmNext x0 x1) := by
  refine SameBut.next ?_ hw h
  clear hw h
  unfold strmNext
  repeat' first
    | with_reducible exact SameBut.refl _ _
    | with_reducible assumption
    | (extract_lets +onlyGivenNames z; first | (refine SameBut.cut (x := z) ?_ (fun _ => ?_) <;> [(unfold z; clear z); clear_value z]) | clear_value z)
    | with_reducible refine mpRead_keeps _ _ _ _ _ _ _ (by decide) ?_
    | with_reducible refine modStream_keeps _ _ _ _ _ (by decide) ?_
    | split

theorem strmStopped_keeps (w : List Part) (a : Core) (x0 : Core) (x1 : Nat)
    (hw : [.io, .strm, .pmu] ⊆ w) (h : SameBut w a x0) :
    SameBut w a (strmStopped x0 x1) := by
  refine SameBut.next ?_ hw h
  clear hw h
  unfold strmStopped
  repeat' first
    | with_reducible exact SameBut.refl _ _
    | with_reducible assumption
    | with_reducible refine SameBut.ite _ _ _ _ _ (fun _ => ?_) (fun _ => ?_)
    | with_reducible refine strmNext_keeps _ _ _ _ (by decide) ?_

theorem stopStream_keeps (w : List Part) (a : Core) (x0 : Core) (x1 : Nat) (x2 : Nat) (x3 : Option Nat)
    (hw : [.io, .lanes, .strm, .pmu] ⊆ w) (h : SameBut w a x0) :
    SameBut w a (stopStream x0 x1 x2 x3).1 := by
  refine SameBut.next ?_ hw h
  clear hw h
  unfold stopStream
  repeat' first
    | with_reducible exact SameBut.refl _ _
    | with_reducible assumption
    | (extract_lets +onlyGivenNames z; first | (refine SameBut.cut (x := z) ?_ (fun _ => ?_) <;> [(unfold z; clear z); clear_value z]) | (refine SameBut.cut (x := z.2) ?_ (fun _ => ?_) <;> [(unfold z; clear z); clear_value z]) | (refine SameBut.cut (x := z.1) ?_ (fun _ => ?_) <;> [(unfold z; clear z); clear_value z]) | clear_value z)
    | with_reducible refine SameBut.ite _ _ _ _ _ (fun _ => ?_) (fun _ => ?_)
    | with_reducible refine strmStopped_keeps _ _ _ _ (by decide) ?_
    | with_reducible refine modStream_keeps _ _ _ _ _ (by decide) ?_
    | with_reducible refine abortWhere_keeps _ _ _ _ _ (by decide) ?_
    | with_reducible refine abortWhere_keeps_eq _ _ _ _ _ _ _ ‹_› (by decide) ?_
    | split

theorem stopStream_keeps_eq (w : List Part) (a : Core) (x0 : Core) (x1 : Nat) (x2 : Nat) (x3 : Option Nat)
    (y d) (e : stopStream x0 x1 x2 x3 = (d, y)) (hw : [.io, .lanes, .strm, .pmu] ⊆ w) (h : SameBut w a x0) :
    SameBut w a d := by
  have := stopStream_keeps w a x0 x1 x2 x3 hw h
  rw [e] at this
  exact this

theorem stopStreams_keeps (w : List Part) (a : Core) (x0 : Core) (x1 : Nat) (x2 : Option Nat)
    (hw : [.io, .lanes, .strm, .pmu] ⊆ w) (h : SameBut w a x0) :
    SameBut w a (stopStreams x0 x1 x2).1 := by
  refine SameBut.next ?_ hw h
  exact SameBut.fold_fst _ _ _ _ _ (fun p x => stopStream_keeps _ _ _ _ _ _ (by decide) (SameBut.refl _ _)) (SameBut.refl _ _)

theorem stopStreams_keeps_eq (w : List Part) (a : Core) (x0 : Core) (x1 : Nat) (x2 : Option Nat)
    (y d) (e : stopStreams x0 x1 x2 = (d, y)) (hw : [.io, .lanes, .strm, .pmu] ⊆ w) (h : SameBut w a x0) :
    SameBut w a d := by
  have := stopStreams_keeps w a x0 x1 x2 hw h
  rw [e] at this
  exact this

theorem stopProgram_keeps (w : List Part) (a : Core) (x0 : Core) (x1 : Nat) (x2 : Nat)
    (hw : [.io, .rsCnts, .queues, .sqs, .isr, .st, .mf, .sched, .tu, .pp, .pmu, .trc] ⊆ w) (h : SameBut w a x0) :
    SameBut w a (stopProgram x0 x1 x2) := by
  refine SameBut.next ?_ hw h
  clear hw h
  unfold stopProgram
  repeat' first
    | with_reducible exact SameBut.refl _ _
    | with_reducible assumption
    | (extract_lets +onlyGivenNames z; first | (refine SameBut.cut (x := z) ?_ (fun _ => ?_) <;> [(unfold z; clear z); clear_value z]) | clear_value z)
    | with_reducible refine SameBut.ite _ _ _ _ _ (fun _ => ?_) (fun _ => ?_)
    | with_reducible refine stopCommand_keeps _ _ _ _ (by decide) ?_
    | with_reducible refine freeSq_keeps _ _ _ _ (by decide) ?_
    | with_reducible refine programEnded_keeps _ _ _ _ _ (by decide) ?_

theorem progress_keeps (w : List Part) (a : Core) (x0 : Core) (x1 : Nat)
    (hw : [.queues] ⊆ w) (h : SameBut w a x0) :
    SameBut w a (progress x0 x1) := by
  refine SameBut.next ?_ hw h
  clear hw h
  unfold progress
  repeat' first
    | with_reducible exact SameBut.refl _ _
    | with_reducible assumption
    | with_reducible refine modQ_keeps _ _ _ _ _ (by decide) ?_

theorem leaveGuilty_keeps (w : List Part) (a : Core) (x0 : Core) (x1 : Nat)
    (hw : [.queues] ⊆ w) (h : SameBut w a x0) :
    SameBut w a (leaveGuilty x0 x1) := by
  refine SameBut.next ?_ hw h
  clear hw h
  unfold leaveGuilty
  repeat' first
    | with_reducible exact SameBut.refl _ _
    | with_reducible assumption
    | (extract_lets +onlyGivenNames z; first | (refine SameBut.cut (x := z) ?_ (fun _ => ?_) <;> [(unfold z; clear z); clear_value z]) | clear_value z)
    | with_reducible refine SameBut.ite _ _ _ _ _ (fun _ => ?_) (fun _ => ?_)
    | with_reducible refine progress_keeps _ _ _ _ (by decide) ?_
    | with_reducible refine modQ_keeps _ _ _ _ _ (by decide) ?_

theorem checkGuilty_keeps (w : List Part) (a : Core) (x0 : Core) (x1 : Nat)
    (hw : [.io, .rsPages, .fe, .queues, .ctxs, .pmu] ⊆ w) (h : SameBut w a x0) :
    SameBut w a (checkGuilty x0 x1) := by
  refine SameBut.next ?_ hw h
  clear hw h
  unfold checkGuilty
  repeat' first
    | with_reducible exact SameBut.refl _ _
    | with_reducible assumption
    | (extract_lets +onlyGivenNames z; first | (refine SameBut.cut (x := z) ?_ (fun _ => ?_) <;> [(unfold z; clear z); clear_value z]) | clear_value z)
    | with_reducible refine SameBut.ite _ _ _ _ _ (fun _ => ?_) (fun _ => ?_)
    | with_reducible refine modQ_keeps _ _ _ _ _ (by decide) ?_
    | with_reducible refine modSub_keeps _ _ _ _ _ _ (by decide) ?_
    | with_reducible refine subDone_keeps _ _ _ _ _ (by decide) ?_
    | with_reducible refine leaveGuilty_keeps _ _ _ _ (by decide) ?_
    | with_reducible refine SameBut.fold _ _ _ _ _ (fun _ _ => ?_) ?_

theorem markFaulted_keeps (w : List Part) (a : Core) (x0 : Core) (x1 : Nat) (x2 : Nat)
    (hw : [.queues] ⊆ w) (h : SameBut w a x0) :
    SameBut w a (markFaulted x0 x1 x2) := by
  refine SameBut.next ?_ hw h
  clear hw h
  unfold markFaulted
  repeat' first
    | with_reducible exact SameBut.refl _ _
    | with_reducible assumption
    | with_reducible refine modSub_keeps _ _ _ _ _ _ (by decide) ?_

theorem firstFault_keeps (w : List Part) (a : Core) (x0 : Core) (x1 : Nat) (x2 : Nat) (x3 : Nat) (x4 : Nat) (x5 : Nat)
    (hw : [.io, .rsRegs, .rsCnts, .rsPages, .fe, .queues, .ctxs, .sqs, .isr, .de, .lanes, .st, .mf, .cru, .sched, .tu, .shr, .strm, .pp, .pmu, .trc, .free] ⊆ w) (h : SameBut w a x0) :
    SameBut w a (firstFault x0 x1 x2 x3 x4 x5) := by
  refine SameBut.next ?_ hw h
  clear hw h
  unfold firstFault
  repeat' first
    | with_reducible exact SameBut.refl _ _
    | with_reducible assumption
    | (extract_lets +onlyGivenNames z; first | (refine SameBut.cut (x := z) ?_ (fun _ => ?_) <;> [(unfold z; clear z); clear_value z]) | clear_value z)
    | with_reducible refine SameBut.ite _ _ _ _ _ (fun _ => ?_) (fun _ => ?_)
    | with_reducible refine pushRec_keeps _ _ _ _ (by decide) ?_
    | with_reducible refine stopStreams_keeps _ _ _ _ _ (by decide) ?_
    | with_reducible refine freeSq_keeps _ _ _ _ (by decide) ?_
    | with_reducible refine modQ_keeps _ _ _ _ _ (by decide) ?_
    | with_reducible refine regOr_keeps _ _ _ _ _ _ (by decide) ?_
    | with_reducible refine irqSet_keeps _ _ _ _ _ (by decide) ?_
    | with_reducible refine markFaulted_keeps _ _ _ _ _ (by decide) ?_
    | with_reducible refine endPreempt_keeps _ _ _ _ _ (by decide) ?_
    | with_reducible refine instsAbort_keeps _ _ _ _ _ (by decide) ?_
    | with_reducible refine balCheck_keeps _ _ _ _ (by decide) ?_
    | with_reducible refine checkGuilty_keeps _ _ _ _ (by decide) ?_
    | with_reducible refine dropSub_keeps _ _ _ _ _ (by decide) ?_
    | with_reducible refine stopProgram_keeps _ _ _ _ _ (by decide) ?_
    | with_reducible refine stopStreams_keeps_eq _ _ _ _ _ _ _ ‹_› (by decide) ?_
    | with_reducible refine endPreempt_keeps_eq _ _ _ _ _ _ _ ‹_› (by decide) ?_
    | with_reducible refine instsAbort_keeps_eq _ _ _ _ _ _ _ ‹_› (by decide) ?_
    | split
    | with_reducible refine SameBut.set_st _ _ _ _ (by decide) ?_

theorem queueFault_keeps (w : List Part) (a : Core) (x0 : Core) (x1 : Nat) (x2 : Nat) (x3 : Nat) (x4 : Nat) (x5 : Nat) (x6 : Option Nat)
    (hw : [.io, .rsRegs, .rsCnts, .rsPages, .fe, .queues, .ctxs, .sqs, .isr, .de, .lanes, .st, .mf, .cru, .sched, .tu, .shr, .strm, .pp, .pmu, .trc, .free] ⊆ w) (h : SameBut w a x0) :
    SameBut w a (queueFault x0 x1 x2 x3 x4 x5 x6) := by
  refine SameBut.next ?_ hw h
  clear hw h
  unfold queueFault
  repeat' first
    | with_reducible exact SameBut.refl _ _
    | with_reducible assumption
    | (extract_lets +onlyGivenNames z; first | (refine SameBut.cut (x := z) ?_ (fun _ => ?_) <;> [(unfold z; clear z); clear_value z]) | clear_value z)
    | with_reducible refine SameBut.ite _ _ _ _ _ (fun _ => ?_) (fun _ => ?_)
    | with_reducible refine firstFault_keeps _ _ _ _ _ _ _ _ (by decide) ?_
    | with_reducible refine instAbort_keeps _ _ _ _ _ (by decide) ?_
    | with_reducible refine markFaulted_keeps _ _ _ _ _ (by decide) ?_
    | with_reducible refine balCheck_keeps _ _ _ _ (by decide) ?_
    | with_reducible refine checkGuilty_keeps _ _ _ _ (by decide) ?_
    | with_reducible refine stopProgram_keeps _ _ _ _ _ (by decide) ?_
    | with_reducible refine instAbort_keeps_eq _ _ _ _ _ _ _ ‹_› (by decide) ?_
    | split

theorem instFault_keeps (w : List Part) (a : Core) (x0 : Core) (x1 : Nat) (x2 : Nat) (x3 : Nat) (x4 : Nat)
    (hw : [.io, .rsRegs, .rsCnts, .rsPages, .fe, .queues, .ctxs, .sqs, .isr, .de, .lanes, .st, .mf, .cru, .sched, .tu, .shr, .strm, .pp, .pmu, .trc, .free] ⊆ w) (h : SameBut w a x0) :
    SameBut w a (instFault x0 x1 x2 x3 x4) := by
  refine SameBut.next ?_ hw h
  clear hw h
  unfold instFault
  repeat' first
    | with_reducible exact SameBut.refl _ _
    | with_reducible assumption
    | (extract_lets +onlyGivenNames z; first | (refine SameBut.cut (x := z) ?_ (fun _ => ?_) <;> [(unfold z; clear z); clear_value z]) | clear_value z)
    | with_reducible refine SameBut.ite _ _ _ _ _ (fun _ => ?_) (fun _ => ?_)
    | with_reducible refine queueFault_keeps _ _ _ _ _ _ _ _ _ (by decide) ?_

theorem cmdFault_keeps (w : List Part) (a : Core) (x0 : Core) (x1 : Nat) (x2 : Nat)
    (hw : [.io, .rsRegs, .rsCnts, .rsPages, .fe, .queues, .ctxs, .sqs, .isr, .de, .lanes, .st, .mf, .cru, .sched, .tu, .shr, .strm, .pp, .pmu, .trc, .free] ⊆ w) (h : SameBut w a x0) :
    SameBut w a (cmdFault x0 x1 x2) := by
  refine SameBut.next ?_ hw h
  clear hw h
  unfold cmdFault
  repeat' first
    | with_reducible exact SameBut.refl _ _
    | with_reducible assumption
    | (extract_lets +onlyGivenNames z; first | (refine SameBut.cut (x := z) ?_ (fun _ => ?_) <;> [(unfold z; clear z); clear_value z]) | clear_value z)
    | with_reducible refine irqSet_keeps _ _ _ _ _ (by decide) ?_
    | with_reducible refine queueFault_keeps _ _ _ _ _ _ _ _ _ (by decide) ?_
    | split

end Sys2Proof.Machine
end

