-- ==== Sys2Proof/Laws/RasOps.lean ====
section
/-! SUPPORT. What the operations of RasOps.lean leave as it was. -/

set_option linter.unusedTactic false
set_option linter.unreachableTactic false
set_option linter.tactic.unusedName false

namespace Sys2Proof.Machine

theorem commitLog_keeps (w : List Part) (a : Core) (x0 : Core) (x1 : List Reg)
    (hw : [.rsRegs, .rsPages, .ras, .trc] ⊆ w) (h : SameBut w a x0) :
    SameBut w a (commitLog x0 x1) := by
  refine SameBut.next ?_ hw h
  clear hw h
  unfold commitLog
  repeat' first
    | with_reducible exact SameBut.refl _ _
    | with_reducible assumption
    | with_reducible refine logWords_keeps _ _ _ _ _ (by decide) ?_

theorem containRec_keeps (w : List Part) (a : Core) (x0 : Core) (x1 : Contain)
    (hw : [.io, .rsRegs, .rsPages, .fe, .pmu] ⊆ w) (h : SameBut w a x0) :
    SameBut w a (containRec x0 x1) := by
  refine SameBut.next ?_ hw h
  clear hw h
  unfold containRec
  repeat' first
    | with_reducible exact SameBut.refl _ _
    | with_reducible assumption
    | (extract_lets +onlyGivenNames z; first | (refine SameBut.cut (x := z) ?_ (fun _ => ?_) <;> [(unfold z; clear z); clear_value z]) | clear_value z)
    | with_reducible refine pushRec_keeps _ _ _ _ (by decide) ?_
    | split

theorem holdNext_keeps (w : List Part) (a : Core) (x0 : Core) (x1 : List Contain)
    (hw : [.io, .rsRegs, .rsCnts, .rsPages, .fe, .ctxs, .ras, .pmu, .trc] ⊆ w) (h : SameBut w a x0) :
    SameBut w a (holdNext x0 x1) := by
  refine SameBut.next ?_ hw h
  clear hw h
  fun_induction holdNext x0 x1
  all_goals repeat' first
    | with_reducible exact SameBut.refl _ _
    | with_reducible assumption
    | (with_reducible refine SameBut.trans ?_ (by assumption))
    | (extract_lets +onlyGivenNames z; first | (refine SameBut.cut (x := z) ?_ (fun _ => ?_) <;> [(unfold z; clear z); clear_value z]) | clear_value z)
    | with_reducible refine SameBut.ite _ _ _ _ _ (fun _ => ?_) (fun _ => ?_)
    | with_reducible refine modCtx_keeps _ _ _ _ _ (by decide) ?_
    | with_reducible refine cntAdd_keeps _ _ _ _ _ _ (by decide) ?_
    | with_reducible refine commitLog_keeps _ _ _ _ (by decide) ?_
    | with_reducible refine irqSet_keeps _ _ _ _ _ (by decide) ?_
    | with_reducible refine containRec_keeps _ _ _ _ (by decide) ?_
    | split
    | with_reducible refine SameBut.set_ras _ _ _ _ (by decide) ?_

theorem startHold_keeps (w : List Part) (a : Core) (x0 : Core)
    (hw : [.io, .rsRegs, .rsCnts, .rsPages, .fe, .ctxs, .ras, .pmu, .trc] ⊆ w) (h : SameBut w a x0) :
    SameBut w a (startHold x0) := by
  refine SameBut.next ?_ hw h
  clear hw h
  unfold startHold
  repeat' first
    | with_reducible exact SameBut.refl _ _
    | with_reducible assumption
    | with_reducible refine SameBut.ite _ _ _ _ _ (fun _ => ?_) (fun _ => ?_)
    | with_reducible refine holdNext_keeps _ _ _ _ (by decide) ?_

theorem contain_keeps (w : List Part) (a : Core) (x0 : Core) (x1 : Contain)
    (hw : [.io, .rsRegs, .rsCnts, .rsPages, .fe, .ctxs, .ras, .pmu, .trc] ⊆ w) (h : SameBut w a x0) :
    SameBut w a (contain x0 x1) := by
  refine SameBut.next ?_ hw h
  clear hw h
  unfold contain
  repeat' first
    | with_reducible exact SameBut.refl _ _
    | with_reducible assumption
    | with_reducible refine startHold_keeps _ _ _ (by decide) ?_
    | with_reducible refine SameBut.set_ras _ _ _ _ (by decide) ?_

end Sys2Proof.Machine
end

