-- ==== Sys2Proof/Laws/QscOps.lean ====
section
/-! SUPPORT. What the operations of QscOps.lean leave as it was. -/

set_option linter.unusedTactic false
set_option linter.unreachableTactic false
set_option linter.tactic.unusedName false

namespace Sys2Proof.Machine

theorem quiesceAborts_keeps (w : List Part) (a : Core) (x0 : Core)
    (hw : [.io, .lanes] ⊆ w) (h : SameBut w a x0) :
    SameBut w a (quiesceAborts x0) := by
  refine SameBut.next ?_ hw h
  clear hw h
  unfold quiesceAborts
  repeat' first
    | with_reducible exact SameBut.refl _ _
    | with_reducible assumption
    | with_reducible refine abortWhere_keeps _ _ _ _ _ (by decide) ?_
    | with_reducible refine abortWhere_keeps_eq _ _ _ _ _ _ _ ‹_› (by decide) ?_

theorem quiesceStart_keeps (w : List Part) (a : Core) (x0 : Core) (x1 : Bool)
    (hw : [.io, .rsRegs, .rsPages, .qsc, .lanes] ⊆ w) (h : SameBut w a x0) :
    SameBut w a (quiesceStart x0 x1) := by
  refine SameBut.next ?_ hw h
  clear hw h
  unfold quiesceStart
  repeat' first
    | with_reducible exact SameBut.refl _ _
    | with_reducible assumption
    | (extract_lets +onlyGivenNames z; first | (refine SameBut.cut (x := z) ?_ (fun _ => ?_) <;> [(unfold z; clear z); clear_value z]) | clear_value z)
    | with_reducible refine SameBut.ite _ _ _ _ _ (fun _ => ?_) (fun _ => ?_)
    | with_reducible refine regOr_keeps _ _ _ _ _ _ (by decide) ?_
    | with_reducible refine quiesceAborts_keeps _ _ _ (by decide) ?_
    | with_reducible refine SameBut.set_qsc _ _ _ _ (by decide) ?_

end Sys2Proof.Machine
end

