-- ==== Sys2Proof/Laws/Det.lean ====
section
/-! SUPPORT. What the operations of Det.lean leave as it was. -/

set_option linter.unusedTactic false
set_option linter.unreachableTactic false
set_option linter.tactic.unusedName false

namespace Sys2Proof.Machine

theorem lsSend_keeps (w : List Part) (a : Core) (x0 : Core) (x1 : Nat)
    (hw : [.io, .rsCnts, .isr, .pp, .det, .pmu] ⊆ w) (h : SameBut w a x0) :
    SameBut w a (lsSend x0 x1) := by
  refine SameBut.next ?_ hw h
  clear hw h
  unfold lsSend
  repeat' first
    | with_reducible exact SameBut.refl _ _
    | with_reducible assumption
    | (extract_lets +onlyGivenNames z; first | (refine SameBut.cut (x := z) ?_ (fun _ => ?_) <;> [(unfold z; clear z); clear_value z]) | clear_value z)
    | with_reducible refine SameBut.ite _ _ _ _ _ (fun _ => ?_) (fun _ => ?_)
    | with_reducible refine linkOffer_keeps _ _ _ _ _ _ (by decide) ?_
    | with_reducible refine SameBut.set_det _ _ _ _ (by decide) ?_

theorem lsPumpN_keeps (w : List Part) (a : Core) (x0 : Nat) (x1 : Core)
    (hw : [.io, .rsCnts, .isr, .pp, .det, .pmu] ⊆ w) (h : SameBut w a x1) :
    SameBut w a (lsPumpN x0 x1) := by
  refine SameBut.next ?_ hw h
  clear hw h
  fun_induction lsPumpN x0 x1
  all_goals repeat' first
    | with_reducible exact SameBut.refl _ _
    | with_reducible assumption
    | (with_reducible refine SameBut.trans ?_ (by assumption))
    | with_reducible refine SameBut.ite _ _ _ _ _ (fun _ => ?_) (fun _ => ?_)
    | with_reducible refine lsSend_keeps _ _ _ _ (by decide) ?_
    | split

theorem lsPump_keeps (w : List Part) (a : Core) (x0 : Core)
    (hw : [.io, .rsCnts, .isr, .pp, .det, .pmu] ⊆ w) (h : SameBut w a x0) :
    SameBut w a (lsPump x0) := by
  refine SameBut.next ?_ hw h
  clear hw h
  unfold lsPump
  repeat' first
    | with_reducible exact SameBut.refl _ _
    | with_reducible assumption
    | with_reducible refine lsPumpN_keeps _ _ _ _ (by decide) ?_

theorem diverge_keeps (w : List Part) (a : Core) (x0 : Core) (x1 : Nat) (x2 : Word) (x3 : Reg) (x4 : Reg) (x5 : Word) (x6 : Bool)
    (hw : [.io, .rsRegs, .rsCnts, .rsPages, .qsc, .isr, .lanes, .pp, .det, .pmu] ⊆ w) (h : SameBut w a x0) :
    SameBut w a (diverge x0 x1 x2 x3 x4 x5 x6) := by
  refine SameBut.next ?_ hw h
  clear hw h
  unfold diverge
  repeat' first
    | with_reducible exact SameBut.refl _ _
    | with_reducible assumption
    | (extract_lets +onlyGivenNames z; first | (refine SameBut.cut (x := z) ?_ (fun _ => ?_) <;> [(unfold z; clear z); clear_value z]) | clear_value z)
    | with_reducible refine SameBut.ite _ _ _ _ _ (fun _ => ?_) (fun _ => ?_)
    | with_reducible refine quiesceStart_keeps _ _ _ _ (by decide) ?_
    | with_reducible refine cntAdd_keeps _ _ _ _ _ _ (by decide) ?_
    | with_reducible refine irqSet_keeps _ _ _ _ _ (by decide) ?_
    | with_reducible refine linkOffer_keeps _ _ _ _ _ _ (by decide) ?_
    | split
    | with_reducible refine SameBut.set_det _ _ _ _ (by decide) ?_

theorem lsMatch_keeps (w : List Part) (a : Core) (x0 : Core) (x1 : LsEntry)
    (hw : [.io, .rsRegs, .rsCnts, .rsPages, .qsc, .isr, .lanes, .pp, .det, .pmu] ⊆ w) (h : SameBut w a x0) :
    SameBut w a (lsMatch x0 x1) := by
  refine SameBut.next ?_ hw h
  clear hw h
  unfold lsMatch
  repeat' first
    | with_reducible exact SameBut.refl _ _
    | with_reducible assumption
    | (extract_lets +onlyGivenNames z; first | (refine SameBut.cut (x := z) ?_ (fun _ => ?_) <;> [(unfold z; clear z); clear_value z]) | clear_value z)
    | with_reducible refine SameBut.ite _ _ _ _ _ (fun _ => ?_) (fun _ => ?_)
    | with_reducible refine cntAdd_keeps _ _ _ _ _ _ (by decide) ?_
    | with_reducible refine diverge_keeps _ _ _ _ _ _ _ _ _ (by decide) ?_
    | split
    | with_reducible refine SameBut.set_det _ _ _ _ (by decide) ?_

theorem lsNote_keeps (w : List Part) (a : Core) (x0 : Core) (x1 : Nat) (x2 : Nat) (x3 : Nat) (x4 : Bool) (x5 : Word) (x6 : Bool)
    (hw : [.io, .rsRegs, .rsCnts, .rsPages, .qsc, .isr, .lanes, .pp, .det, .pmu] ⊆ w) (h : SameBut w a x0) :
    SameBut w a (lsNote x0 x1 x2 x3 x4 x5 x6) := by
  refine SameBut.next ?_ hw h
  clear hw h
  unfold lsNote
  repeat' first
    | with_reducible exact SameBut.refl _ _
    | with_reducible assumption
    | (extract_lets +onlyGivenNames z; first | (refine SameBut.cut (x := z) ?_ (fun _ => ?_) <;> [(unfold z; clear z); clear_value z]) | clear_value z)
    | with_reducible refine SameBut.ite _ _ _ _ _ (fun _ => ?_) (fun _ => ?_)
    | with_reducible refine cntAdd_keeps _ _ _ _ _ _ (by decide) ?_
    | with_reducible refine lsMatch_keeps _ _ _ _ (by decide) ?_
    | with_reducible refine lsPump_keeps _ _ _ (by decide) ?_
    | with_reducible refine SameBut.set_det _ _ _ _ (by decide) ?_

end Sys2Proof.Machine
end

