-- ==== Sys2Proof/Laws/Fetch.lean ====
section
/-! SUPPORT. What the operations of Fetch.lean leave as it was. -/

set_option linter.unusedTactic false
set_option linter.unreachableTactic false
set_option linter.tactic.unusedName false

namespace Sys2Proof.Machine

theorem feKick_keeps (w : List Part) (a : Core) (x0 : Core)
    (hw : [.io, .fe, .pmu] ⊆ w) (h : SameBut w a x0) :
    SameBut w a (feKick x0) := by
  refine SameBut.next ?_ hw h
  clear hw h
  unfold feKick
  repeat' first
    | with_reducible exact SameBut.refl _ _
    | with_reducible assumption
    | (extract_lets +onlyGivenNames z; first | (refine SameBut.cut (x := z) ?_ (fun _ => ?_) <;> [(unfold z; clear z); clear_value z]) | clear_value z)
    | with_reducible refine SameBut.ite _ _ _ _ _ (fun _ => ?_) (fun _ => ?_)
    | with_reducible refine hipRead_keeps _ _ _ _ _ _ _ (by decide) ?_
    | with_reducible refine SameBut.set_fe _ _ _ _ (by decide) ?_

theorem feDone_keeps (w : List Part) (a : Core) (x0 : Core)
    (hw : [.io, .fe, .pmu] ⊆ w) (h : SameBut w a x0) :
    SameBut w a (feDone x0) := by
  refine SameBut.next ?_ hw h
  clear hw h
  unfold feDone
  repeat' first
    | with_reducible exact SameBut.refl _ _
    | with_reducible assumption
    | with_reducible refine feKick_keeps _ _ _ (by decide) ?_
    | with_reducible refine SameBut.set_fe _ _ _ _ (by decide) ?_

end Sys2Proof.Machine
end

