-- ==== Sys2Proof/Laws/Save.lean ====
section
/-! SUPPORT. What the operations of Save.lean leave as it was. -/

set_option linter.unusedTactic false
set_option linter.unreachableTactic false
set_option linter.tactic.unusedName false

namespace Sys2Proof.Machine

theorem enterPhase_keeps (w : List Part) (a : Core) (x0 : Core) (x1 : Nat) (x2 : Phase)
    (hw : [.sched, .trc] ⊆ w) (h : SameBut w a x0) :
    SameBut w a (enterPhase x0 x1 x2) := by
  refine SameBut.next ?_ hw h
  clear hw h
  unfold enterPhase
  repeat' first
    | with_reducible exact SameBut.refl _ _
    | with_reducible assumption
    | (extract_lets +onlyGivenNames z; first | (refine SameBut.cut (x := z) ?_ (fun _ => ?_) <;> [(unfold z; clear z); clear_value z]) | clear_value z)
    | with_reducible refine modPre_keeps _ _ _ _ _ (by decide) ?_
    | with_reducible refine trace_keeps _ _ _ _ _ _ _ _ _ _ (by decide) ?_
    | split

theorem takeSave_keeps (w : List Part) (a : Core) (x0 : Core) (x1 : Nat) (x2 : Nat) (x3 : Bool) (x4 : List LiveSet)
    (hw : [.io, .rsCnts, .queues, .sqs, .lanes, .sched, .pmu, .trc] ⊆ w) (h : SameBut w a x0) :
    SameBut w a (takeSave x0 x1 x2 x3 x4) := by
  refine SameBut.next ?_ hw h
  clear hw h
  unfold takeSave
  repeat' first
    | with_reducible exact SameBut.refl _ _
    | with_reducible assumption
    | (extract_lets +onlyGivenNames z; first | (refine SameBut.cut (x := z) ?_ (fun _ => ?_) <;> [(unfold z; clear z); clear_value z]) | clear_value z)
    | with_reducible refine SameBut.ite _ _ _ _ _ (fun _ => ?_) (fun _ => ?_)
    | with_reducible refine modPre_keeps _ _ _ _ _ (by decide) ?_
    | with_reducible refine abortIssue_keeps _ _ _ _ _ _ (by decide) ?_
    | with_reducible refine modQ_keeps _ _ _ _ _ (by decide) ?_
    | with_reducible refine cntAdd_keeps _ _ _ _ _ _ (by decide) ?_
    | with_reducible refine enterPhase_keeps _ _ _ _ _ (by decide) ?_
    | with_reducible refine modSq_keeps _ _ _ _ _ (by decide) ?_
    | with_reducible refine mpWrite_keeps _ _ _ _ _ _ _ (by decide) ?_
    | with_reducible refine SameBut.fold _ _ _ _ _ (fun _ _ => ?_) ?_

theorem writeDirectory_keeps (w : List Part) (a : Core) (x0 : Core) (x1 : Nat)
    (hw : [.io, .sched, .pmu] ⊆ w) (h : SameBut w a x0) :
    SameBut w a (writeDirectory x0 x1) := by
  refine SameBut.next ?_ hw h
  clear hw h
  unfold writeDirectory
  repeat' first
    | with_reducible exact SameBut.refl _ _
    | with_reducible assumption
    | (extract_lets +onlyGivenNames z; first | (refine SameBut.cut (x := z) ?_ (fun _ => ?_) <;> [(unfold z; clear z); clear_value z]) | clear_value z)
    | with_reducible refine modPre_keeps _ _ _ _ _ (by decide) ?_
    | with_reducible refine mpWrite_keeps _ _ _ _ _ _ _ (by decide) ?_

theorem writeHeader_keeps (w : List Part) (a : Core) (x0 : Core) (x1 : Nat)
    (hw : [.io, .sched, .pmu] ⊆ w) (h : SameBut w a x0) :
    SameBut w a (writeHeader x0 x1) := by
  refine SameBut.next ?_ hw h
  clear hw h
  unfold writeHeader
  repeat' first
    | with_reducible exact SameBut.refl _ _
    | with_reducible assumption
    | (extract_lets +onlyGivenNames z; first | (refine SameBut.cut (x := z) ?_ (fun _ => ?_) <;> [(unfold z; clear z); clear_value z]) | clear_value z)
    | with_reducible refine modPre_keeps _ _ _ _ _ (by decide) ?_
    | with_reducible refine mpWrite_keeps _ _ _ _ _ _ _ (by decide) ?_

theorem saveAdvance_keeps (w : List Part) (a : Core) (x0 : Core) (x1 : Nat)
    (hw : [.io, .sched, .pmu, .trc] ⊆ w) (h : SameBut w a x0) :
    SameBut w a (saveAdvance x0 x1) := by
  refine SameBut.next ?_ hw h
  clear hw h
  unfold saveAdvance
  repeat' first
    | with_reducible exact SameBut.refl _ _
    | with_reducible assumption
    | (extract_lets +onlyGivenNames z; first | (refine SameBut.cut (x := z) ?_ (fun _ => ?_) <;> [(unfold z; clear z); clear_value z]) | clear_value z)
    | with_reducible refine SameBut.ite _ _ _ _ _ (fun _ => ?_) (fun _ => ?_)
    | with_reducible refine modPre_keeps _ _ _ _ _ (by decide) ?_
    | with_reducible refine writeDirectory_keeps _ _ _ _ (by decide) ?_
    | with_reducible refine enterPhase_keeps _ _ _ _ _ (by decide) ?_
    | split

theorem takeFullSave_keeps (w : List Part) (a : Core) (x0 : Core) (x1 : Nat) (x2 : Nat)
    (hw : [.io, .rsCnts, .rsPages, .queues, .sqs, .isr, .lanes, .st, .mf, .sched, .tu, .pp, .pmu, .trc] ⊆ w) (h : SameBut w a x0) :
    SameBut w a (takeFullSave x0 x1 x2) := by
  refine SameBut.next ?_ hw h
  unfold takeFullSave
  have hr (code : Nat) : SameBut [.io, .rsCnts, .rsPages, .queues, .sqs, .isr, .lanes, .st, .mf, .sched, .tu, .pp, .pmu, .trc] x0 (irqSet (pageErr x0 pgSched code x1 0) pgSched 7) :=
    irqSet_keeps _ _ _ _ _ (by decide) (pageErr_keeps _ _ _ _ _ _ _ (by decide) (SameBut.refl _ _))
  refine SameBut.ite _ _ _ _ _ (fun _ => hr _) (fun _ => SameBut.ite _ _ _ _ _ (fun _ => hr _) (fun _ => ?_))
  exact takeSave_keeps _ _ _ _ _ _ _ (by decide) (stopCommand_keeps _ _ _ _ (by decide) (SameBut.refl _ _))

theorem lateSave_keeps (w : List Part) (a : Core) (x0 : Core) (x1 : Nat)
    (hw : [.io, .rsCnts, .rsPages, .queues, .sqs, .isr, .lanes, .st, .mf, .sched, .tu, .pp, .pmu, .trc] ⊆ w) (h : SameBut w a x0) :
    SameBut w a (lateSave x0 x1) := by
  refine SameBut.next ?_ hw h
  clear hw h
  unfold lateSave
  repeat' first
    | with_reducible exact SameBut.refl _ _
    | with_reducible assumption
    | (extract_lets +onlyGivenNames z; first | (refine SameBut.cut (x := z) ?_ (fun _ => ?_) <;> [(unfold z; clear z); clear_value z]) | clear_value z)
    | with_reducible refine SameBut.ite _ _ _ _ _ (fun _ => ?_) (fun _ => ?_)
    | with_reducible refine takeFullSave_keeps _ _ _ _ _ (by decide) ?_
    | split

end Sys2Proof.Machine
end

