-- ==== Sys2Proof/Laws/SqOps.lean ====
section
/-! SUPPORT. What the operations of SqOps.lean leave as it was. -/

set_option linter.unusedTactic false
set_option linter.unreachableTactic false
set_option linter.tactic.unusedName false

namespace Sys2Proof.Machine

theorem pointTimer_keeps (w : List Part) (a : Core) (x0 : Core) (x1 : Nat)
    (hw : [.queues] ⊆ w) (h : SameBut w a x0) :
    SameBut w a (pointTimer x0 x1) := by
  refine SameBut.next ?_ hw h
  clear hw h
  unfold pointTimer
  repeat' first
    | with_reducible exact SameBut.refl _ _
    | with_reducible assumption
    | (extract_lets +onlyGivenNames z; first | (refine SameBut.cut (x := z) ?_ (fun _ => ?_) <;> [(unfold z; clear z); clear_value z]) | clear_value z)
    | with_reducible refine SameBut.ite _ _ _ _ _ (fun _ => ?_) (fun _ => ?_)
    | with_reducible refine modQ_keeps _ _ _ _ _ (by decide) ?_

theorem pointRestart_keeps (w : List Part) (a : Core) (x0 : Core) (x1 : Nat)
    (hw : [.queues] ⊆ w) (h : SameBut w a x0) :
    SameBut w a (pointRestart x0 x1) := by
  refine SameBut.next ?_ hw h
  clear hw h
  unfold pointRestart
  repeat' first
    | with_reducible exact SameBut.refl _ _
    | with_reducible assumption
    | with_reducible refine pointTimer_keeps _ _ _ _ (by decide) ?_
    | with_reducible refine modQ_keeps _ _ _ _ _ (by decide) ?_

theorem setBlocked_keeps (w : List Part) (a : Core) (x0 : Core) (x1 : Nat)
    (hw : [.queues] ⊆ w) (h : SameBut w a x0) :
    SameBut w a (setBlocked x0 x1) := by
  refine SameBut.next ?_ hw h
  clear hw h
  unfold setBlocked
  repeat' first
    | with_reducible exact SameBut.refl _ _
    | with_reducible assumption
    | (extract_lets +onlyGivenNames z; first | (refine SameBut.cut (x := z) ?_ (fun _ => ?_) <;> [(unfold z; clear z); clear_value z]) | clear_value z)
    | with_reducible refine SameBut.ite _ _ _ _ _ (fun _ => ?_) (fun _ => ?_)
    | with_reducible refine progress_keeps _ _ _ _ (by decide) ?_
    | with_reducible refine modQ_keeps _ _ _ _ _ (by decide) ?_
    | split

theorem stallAt_keeps (w : List Part) (a : Core) (x0 : Core) (x1 : Nat) (x2 : Stall)
    (hw : [.queues, .sqs] ⊆ w) (h : SameBut w a x0) :
    SameBut w a (stallAt x0 x1 x2) := by
  refine SameBut.next ?_ hw h
  clear hw h
  unfold stallAt
  repeat' first
    | with_reducible exact SameBut.refl _ _
    | with_reducible assumption
    | with_reducible refine setBlocked_keeps _ _ _ _ (by decide) ?_
    | with_reducible refine modSq_keeps _ _ _ _ _ (by decide) ?_

theorem markOffers_keeps (w : List Part) (a : Core) (x0 : Core) (x1 : Bool)
    (hw : [.queues, .isr] ⊆ w) (h : SameBut w a x0) :
    SameBut w a (markOffers x0 x1) := by
  refine SameBut.next ?_ hw h
  clear hw h
  unfold markOffers
  repeat' first
    | with_reducible exact SameBut.refl _ _
    | with_reducible assumption
    | (extract_lets +onlyGivenNames z; first | (refine SameBut.cut (x := z) ?_ (fun _ => ?_) <;> [(unfold z; clear z); clear_value z]) | clear_value z)
    | with_reducible refine setBlocked_keeps _ _ _ _ (by decide) ?_
    | with_reducible refine SameBut.fold _ _ _ _ _ (fun _ _ => ?_) ?_
    | with_reducible refine SameBut.set_isr _ _ _ _ (by decide) ?_

theorem bpHalt_keeps (w : List Part) (a : Core) (x0 : Core) (x1 : Nat) (x2 : Nat)
    (hw : [.rsPages, .sqs, .dbg] ⊆ w) (h : SameBut w a x0) :
    SameBut w a (bpHalt x0 x1 x2) := by
  refine SameBut.next ?_ hw h
  clear hw h
  unfold bpHalt
  repeat' first
    | with_reducible exact SameBut.refl _ _
    | with_reducible assumption
    | (extract_lets +onlyGivenNames z; first | (refine SameBut.cut (x := z) ?_ (fun _ => ?_) <;> [(unfold z; clear z); clear_value z]) | clear_value z)
    | with_reducible refine irqSet_keeps _ _ _ _ _ (by decide) ?_
    | with_reducible refine modSq_keeps _ _ _ _ _ (by decide) ?_
    | with_reducible refine SameBut.set_dbg _ _ _ _ (by decide) ?_

theorem bpCheck_keeps (w : List Part) (a : Core) (x0 : Core) (x1 : Nat)
    (hw : [.rsPages, .sqs, .dbg] ⊆ w) (h : SameBut w a x0) :
    SameBut w a (bpCheck x0 x1) := by
  refine SameBut.next ?_ hw h
  clear hw h
  unfold bpCheck
  repeat' first
    | with_reducible exact SameBut.refl _ _
    | with_reducible assumption
    | (extract_lets +onlyGivenNames z; first | (refine SameBut.cut (x := z) ?_ (fun _ => ?_) <;> [(unfold z; clear z); clear_value z]) | clear_value z)
    | with_reducible refine SameBut.ite _ _ _ _ _ (fun _ => ?_) (fun _ => ?_)
    | with_reducible refine bpHalt_keeps _ _ _ _ _ (by decide) ?_
    | split

theorem moveTo_keeps (w : List Part) (a : Core) (x0 : Core) (x1 : Nat) (x2 : Nat)
    (hw : [.io, .rsRegs, .rsCnts, .rsPages, .fe, .queues, .ctxs, .sqs, .isr, .de, .lanes, .st, .mf, .cru, .sched, .tu, .shr, .strm, .pp, .pmu, .trc, .dbg, .free] ⊆ w) (h : SameBut w a x0) :
    SameBut w a (moveTo x0 x1 x2) := by
  refine SameBut.next ?_ hw h
  clear hw h
  unfold moveTo
  repeat' first
    | with_reducible exact SameBut.refl _ _
    | with_reducible assumption
    | (extract_lets +onlyGivenNames z; first | (refine SameBut.cut (x := z) ?_ (fun _ => ?_) <;> [(unfold z; clear z); clear_value z]) | clear_value z)
    | with_reducible refine SameBut.ite _ _ _ _ _ (fun _ => ?_) (fun _ => ?_)
    | with_reducible refine progress_keeps _ _ _ _ (by decide) ?_
    | with_reducible refine modQ_keeps _ _ _ _ _ (by decide) ?_
    | with_reducible refine irqSet_keeps _ _ _ _ _ (by decide) ?_
    | with_reducible refine takeFullSave_keeps _ _ _ _ _ (by decide) ?_
    | with_reducible refine bpHalt_keeps _ _ _ _ _ (by decide) ?_
    | with_reducible refine cmdFault_keeps _ _ _ _ _ (by decide) ?_
    | with_reducible refine modSq_keeps _ _ _ _ _ (by decide) ?_
    | split
    | with_reducible refine SameBut.set_st _ _ _ _ (by decide) ?_

theorem moveOn_keeps (w : List Part) (a : Core) (x0 : Core) (x1 : Nat)
    (hw : [.io, .rsRegs, .rsCnts, .rsPages, .fe, .queues, .ctxs, .sqs, .isr, .de, .lanes, .st, .mf, .cru, .sched, .tu, .shr, .strm, .pp, .pmu, .trc, .dbg, .free] ⊆ w) (h : SameBut w a x0) :
    SameBut w a (moveOn x0 x1) := by
  refine SameBut.next ?_ hw h
  clear hw h
  unfold moveOn
  repeat' first
    | with_reducible exact SameBut.refl _ _
    | with_reducible assumption
    | with_reducible refine moveTo_keeps _ _ _ _ _ (by decide) ?_

theorem setSreg_keeps (w : List Part) (a : Core) (x0 : Core) (x1 : Nat) (x2 : Nat) (x3 : Word)
    (hw : [.sqs] ⊆ w) (h : SameBut w a x0) :
    SameBut w a (setSreg x0 x1 x2 x3) := by
  refine SameBut.next ?_ hw h
  clear hw h
  unfold setSreg
  repeat' first
    | with_reducible exact SameBut.refl _ _
    | with_reducible assumption
    | with_reducible refine modSq_keeps _ _ _ _ _ (by decide) ?_

theorem drainAccepted_keeps (w : List Part) (a : Core) (x0 : Core)
    (hw : [.io, .rsRegs, .rsCnts, .rsPages, .fe, .queues, .ctxs, .sqs, .isr, .de, .lanes, .st, .mf, .cru, .sched, .tu, .shr, .strm, .pp, .pmu, .trc, .dbg, .free] ⊆ w) (h : SameBut w a x0) :
    SameBut w a (drainAccepted x0) := by
  refine SameBut.next ?_ hw h
  clear hw h
  unfold drainAccepted
  repeat' first
    | with_reducible exact SameBut.refl _ _
    | with_reducible assumption
    | (extract_lets +onlyGivenNames z; first | (refine SameBut.cut (x := z) ?_ (fun _ => ?_) <;> [(unfold z; clear z); clear_value z]) | clear_value z)
    | with_reducible refine SameBut.ite _ _ _ _ _ (fun _ => ?_) (fun _ => ?_)
    | with_reducible refine moveOn_keeps _ _ _ _ (by decide) ?_
    | with_reducible refine SameBut.fold _ _ _ _ _ (fun _ _ => ?_) ?_
    | with_reducible refine SameBut.set_pp _ _ _ _ (by decide) ?_

theorem reproVaries_keeps (w : List Part) (a : Core) (x0 : Core) (x1 : Nat) (x2 : Nat) (x3 : Nat)
    (hw : [.rsCnts, .rsPages, .det] ⊆ w) (h : SameBut w a x0) :
    SameBut w a (reproVaries x0 x1 x2 x3) := by
  refine SameBut.next ?_ hw h
  clear hw h
  unfold reproVaries
  repeat' first
    | with_reducible exact SameBut.refl _ _
    | with_reducible assumption
    | (extract_lets +onlyGivenNames z; first | (refine SameBut.cut (x := z) ?_ (fun _ => ?_) <;> [(unfold z; clear z); clear_value z]) | clear_value z)
    | with_reducible refine SameBut.ite _ _ _ _ _ (fun _ => ?_) (fun _ => ?_)
    | with_reducible refine cntAdd_keeps _ _ _ _ _ _ (by decide) ?_
    | with_reducible refine irqSet_keeps _ _ _ _ _ (by decide) ?_
    | with_reducible refine SameBut.set_det _ _ _ _ (by decide) ?_

theorem countCommand_keeps (w : List Part) (a : Core) (x0 : Core) (x1 : Nat) (x2 : Nat) (x3 : Word)
    (hw : [.rsCnts, .rsPages, .sqs, .det, .pmu, .trc] ⊆ w) (h : SameBut w a x0) :
    SameBut w a (countCommand x0 x1 x2 x3) := by
  refine SameBut.next ?_ hw h
  clear hw h
  unfold countCommand
  repeat' first
    | with_reducible exact SameBut.refl _ _
    | with_reducible assumption
    | (extract_lets +onlyGivenNames z; first | (refine SameBut.cut (x := z) ?_ (fun _ => ?_) <;> [(unfold z; clear z); clear_value z]) | clear_value z)
    | with_reducible refine SameBut.ite _ _ _ _ _ (fun _ => ?_) (fun _ => ?_)
    | with_reducible refine pmuEv_keeps _ _ _ _ _ _ (by decide) ?_
    | with_reducible refine reproVaries_keeps _ _ _ _ _ _ (by decide) ?_
    | with_reducible refine cntAdd_keeps _ _ _ _ _ _ (by decide) ?_
    | with_reducible refine modSq_keeps _ _ _ _ _ (by decide) ?_
    | with_reducible refine trace_keeps _ _ _ _ _ _ _ _ _ _ (by decide) ?_

theorem sqBegin_keeps (w : List Part) (a : Core) (sq : Nat) (is : Nat → Bool) (f : Core → Nat → Word → Word → Core) (c : Core)
    (hw : [.io, .rsRegs, .rsCnts, .rsPages, .fe, .queues, .ctxs, .sqs, .isr, .de, .lanes, .st, .mf, .cru, .sched, .tu, .shr, .strm, .pp, .det, .pmu, .trc, .dbg, .free] ⊆ w) (hf : ∀ c q x y, SameBut w c (f c q x y)) (h : SameBut w a c) : SameBut w a (sqBegin sq is f c) := by
  refine h.trans ?_
  unfold sqBegin
  extract_lets +onlyGivenNames s
  split
  · exact SameBut.refl _ _
  extract_lets +onlyGivenNames x y
  refine SameBut.ite _ _ _ _ _ (fun _ => SameBut.refl _ _) (fun _ => ?_)
  split
  · exact bpHalt_keeps _ _ _ _ _ (List.Subset.trans (by decide) hw) (SameBut.refl _ _)
  refine SameBut.ite _ _ _ _ _ (fun _ => cmdFault_keeps _ _ _ _ _ (List.Subset.trans (by decide) hw) (SameBut.refl _ _)) (fun _ => ?_)
  refine SameBut.ite _ _ _ _ _ (fun _ => cmdFault_keeps _ _ _ _ _ (List.Subset.trans (by decide) hw) (SameBut.refl _ _)) (fun _ => ?_)
  extract_lets +onlyGivenNames d
  have hd : SameBut w c d := by
    unfold d
    exact SameBut.ite _ _ _ _ _ (fun _ => SameBut.refl _ _) (fun _ => countCommand_keeps _ _ _ _ _ _ (List.Subset.trans (by decide) hw) (SameBut.refl _ _))
  clear_value d
  split
  · exact cmdFault_keeps _ _ _ _ _ (List.Subset.trans (by decide) hw) hd
  · exact hd.trans (hf _ _ _ _)

end Sys2Proof.Machine
end

