-- ==== Sys2Proof/Laws/StreamBase.lean ====
section
/-! SUPPORT. What the operations of StreamBase.lean leave as it was. -/

set_option linter.unusedTactic false
set_option linter.unreachableTactic false
set_option linter.tactic.unusedName false

namespace Sys2Proof.Machine

theorem detachOne_keeps (w : List Part) (a : Core) (x0 : Nat) (x1 : Core) (x2 : Nat)
    (hw : [.rsCnts, .rsPages, .strm] ⊆ w) (h : SameBut w a x1) :
    SameBut w a (detachOne x0 x1 x2) := by
  refine SameBut.next ?_ hw h
  clear hw h
  unfold detachOne
  repeat' first
    | with_reducible exact SameBut.refl _ _
    | with_reducible assumption
    | (extract_lets +onlyGivenNames z; first | (refine SameBut.cut (x := z) ?_ (fun _ => ?_) <;> [(unfold z; clear z); clear_value z]) | clear_value z)
    | with_reducible refine SameBut.ite _ _ _ _ _ (fun _ => ?_) (fun _ => ?_)
    | with_reducible refine cntAdd_keeps _ _ _ _ _ _ (by decide) ?_
    | with_reducible refine irqSet_keeps _ _ _ _ _ (by decide) ?_
    | with_reducible refine modStream_keeps _ _ _ _ _ (by decide) ?_
    | with_reducible refine SameBut.set_strm _ _ _ _ (by decide) ?_

theorem detachAll_keeps (w : List Part) (a : Core) (x0 : Core)
    (hw : [.rsCnts, .rsPages, .strm] ⊆ w) (h : SameBut w a x0) :
    SameBut w a (detachAll x0) := by
  refine SameBut.next ?_ hw h
  clear hw h
  unfold detachAll
  repeat' first
    | with_reducible exact SameBut.refl _ _
    | with_reducible assumption
    | with_reducible refine detachOne_keeps _ _ _ _ _ (by decide) ?_
    | with_reducible refine SameBut.fold _ _ _ _ _ (fun _ _ => ?_) ?_

end Sys2Proof.Machine
end

