-- ==== Sys2Proof/Laws/Sync.lean ====
section
/-! SUPPORT. What the operations of Sync.lean leave as it was. -/

set_option linter.unusedTactic false
set_option linter.unreachableTactic false
set_option linter.tactic.unusedName false

namespace Sys2Proof.Machine

theorem stFill_keeps (w : List Part) (a : Core) (x0 : Core)
    (hw : [.st] ⊆ w) (h : SameBut w a x0) :
    SameBut w a (stFill x0) := by
  refine SameBut.next ?_ hw h
  clear hw h
  unfold stFill
  repeat' first
    | with_reducible exact SameBut.refl _ _
    | with_reducible assumption
    | (extract_lets +onlyGivenNames z; first | (refine SameBut.cut (x := z) ?_ (fun _ => ?_) <;> [(unfold z; clear z); clear_value z]) | clear_value z)
    | with_reducible refine SameBut.set_st _ _ _ _ (by decide) ?_

theorem stOffer_keeps (w : List Part) (a : Core) (x0 : Core) (x1 : StOp)
    (hw : [.st] ⊆ w) (h : SameBut w a x0) :
    SameBut w a (stOffer x0 x1) := by
  refine SameBut.next ?_ hw h
  clear hw h
  unfold stOffer
  repeat' first
    | with_reducible exact SameBut.refl _ _
    | with_reducible assumption
    | with_reducible refine stFill_keeps _ _ _ (by decide) ?_
    | with_reducible refine SameBut.set_st _ _ _ _ (by decide) ?_

theorem oooSignal_keeps (w : List Part) (a : Core) (x0 : Core) (x1 : StSrc) (x2 : Nat) (x3 : Word)
    (hw : [.rsCnts, .rsPages, .st] ⊆ w) (h : SameBut w a x0) :
    SameBut w a (oooSignal x0 x1 x2 x3) := by
  refine SameBut.next ?_ hw h
  clear hw h
  unfold oooSignal
  repeat' first
    | with_reducible exact SameBut.refl _ _
    | with_reducible assumption
    | (extract_lets +onlyGivenNames z; first | (refine SameBut.cut (x := z) ?_ (fun _ => ?_) <;> [(unfold z; clear z); clear_value z]) | clear_value z)
    | with_reducible refine modObj_keeps _ _ _ _ _ (by decide) ?_
    | with_reducible refine cntAdd_keeps _ _ _ _ _ _ (by decide) ?_
    | with_reducible refine irqSet_keeps _ _ _ _ _ (by decide) ?_
    | with_reducible refine SameBut.set_st _ _ _ _ (by decide) ?_

theorem semRelease_keeps (w : List Part) (a : Core) (x0 : Core) (x1 : StSrc) (x2 : Nat) (x3 : Word)
    (hw : [.rsPages, .queues, .st, .sched] ⊆ w) (h : SameBut w a x0) :
    SameBut w a (semRelease x0 x1 x2 x3) := by
  refine SameBut.next ?_ hw h
  clear hw h
  unfold semRelease
  repeat' first
    | with_reducible exact SameBut.refl _ _
    | with_reducible assumption
    | (extract_lets +onlyGivenNames z; first | (refine SameBut.cut (x := z) ?_ (fun _ => ?_) <;> [(unfold z; clear z); clear_value z]) | clear_value z)
    | with_reducible refine SameBut.ite _ _ _ _ _ (fun _ => ?_) (fun _ => ?_)
    | with_reducible refine pageErr_keeps _ _ _ _ _ _ _ (by decide) ?_
    | with_reducible refine balAdd_keeps _ _ _ _ _ (by decide) ?_
    | with_reducible refine modObj_keeps _ _ _ _ _ (by decide) ?_
    | with_reducible refine inheritKeep_keeps _ _ _ (by decide) ?_
    | split

theorem arrive_keeps (w : List Part) (a : Core) (x0 : Core) (x1 : Nat) (x2 : Word)
    (hw : [.io, .rsCnts, .queues, .isr, .st, .pp, .pmu, .trc] ⊆ w) (h : SameBut w a x0) :
    SameBut w a (arrive x0 x1 x2) := by
  refine SameBut.next ?_ hw h
  clear hw h
  unfold arrive
  repeat' first
    | with_reducible exact SameBut.refl _ _
    | with_reducible assumption
    | (extract_lets +onlyGivenNames z; first | (refine SameBut.cut (x := z) ?_ (fun _ => ?_) <;> [(unfold z; clear z); clear_value z]) | clear_value z)
    | with_reducible refine SameBut.ite _ _ _ _ _ (fun _ => ?_) (fun _ => ?_)
    | with_reducible refine modObj_keeps _ _ _ _ _ (by decide) ?_
    | with_reducible refine releaseAll_keeps _ _ _ _ (by decide) ?_

theorem doSignal_keeps (w : List Part) (a : Core) (x0 : Core) (x1 : StSrc) (x2 : Nat) (x3 : Word)
    (hw : [.io, .rsCnts, .rsPages, .queues, .isr, .st, .sched, .pp, .pmu, .trc] ⊆ w) (h : SameBut w a x0) :
    SameBut w a (doSignal x0 x1 x2 x3) := by
  refine SameBut.next ?_ hw h
  clear hw h
  unfold doSignal
  repeat' first
    | with_reducible exact SameBut.refl _ _
    | with_reducible assumption
    | (extract_lets +onlyGivenNames z; first | (refine SameBut.cut (x := z) ?_ (fun _ => ?_) <;> [(unfold z; clear z); clear_value z]) | clear_value z)
    | with_reducible refine SameBut.ite _ _ _ _ _ (fun _ => ?_) (fun _ => ?_)
    | with_reducible refine arrive_keeps _ _ _ _ _ (by decide) ?_
    | with_reducible refine semRelease_keeps _ _ _ _ _ _ (by decide) ?_
    | with_reducible refine modObj_keeps _ _ _ _ _ (by decide) ?_
    | with_reducible refine oooSignal_keeps _ _ _ _ _ _ (by decide) ?_
    | with_reducible refine notifyCookie_keeps _ _ _ _ (by decide) ?_
    | split

theorem doAdd_keeps (w : List Part) (a : Core) (x0 : Core) (x1 : StSrc) (x2 : Nat) (x3 : Word)
    (hw : [.io, .rsCnts, .rsPages, .queues, .isr, .st, .sched, .pp, .pmu, .trc] ⊆ w) (h : SameBut w a x0) :
    SameBut w a (doAdd x0 x1 x2 x3) := by
  refine SameBut.next ?_ hw h
  clear hw h
  unfold doAdd
  repeat' first
    | with_reducible exact SameBut.refl _ _
    | with_reducible assumption
    | (extract_lets +onlyGivenNames z; first | (refine SameBut.cut (x := z) ?_ (fun _ => ?_) <;> [(unfold z; clear z); clear_value z]) | clear_value z)
    | with_reducible refine SameBut.ite _ _ _ _ _ (fun _ => ?_) (fun _ => ?_)
    | with_reducible refine arrive_keeps _ _ _ _ _ (by decide) ?_
    | with_reducible refine semRelease_keeps _ _ _ _ _ _ (by decide) ?_
    | with_reducible refine modObj_keeps _ _ _ _ _ (by decide) ?_
    | with_reducible refine notifyCookie_keeps _ _ _ _ (by decide) ?_
    | split

theorem register_keeps (w : List Part) (a : Core) (x0 : Core) (x1 : Nat) (x2 : Wait)
    (hw : [.st] ⊆ w) (h : SameBut w a x0) :
    SameBut w a (register x0 x1 x2) := by
  refine SameBut.next ?_ hw h
  clear hw h
  unfold register
  repeat' first
    | with_reducible exact SameBut.refl _ _
    | with_reducible assumption
    | with_reducible refine modObj_keeps _ _ _ _ _ (by decide) ?_

theorem doWait_keeps (w : List Part) (a : Core) (x0 : Core) (x1 : Nat) (x2 : Wait)
    (hw : [.io, .rsCnts, .rsPages, .queues, .isr, .st, .sched, .pp, .pmu, .trc] ⊆ w) (h : SameBut w a x0) :
    SameBut w a (doWait x0 x1 x2) := by
  refine SameBut.next ?_ hw h
  clear hw h
  unfold doWait
  repeat' first
    | with_reducible exact SameBut.refl _ _
    | with_reducible assumption
    | (extract_lets +onlyGivenNames z; first | (refine SameBut.cut (x := z) ?_ (fun _ => ?_) <;> [(unfold z; clear z); clear_value z]) | clear_value z)
    | with_reducible refine SameBut.ite _ _ _ _ _ (fun _ => ?_) (fun _ => ?_)
    | with_reducible refine register_keeps _ _ _ _ _ (by decide) ?_
    | with_reducible refine arrive_keeps _ _ _ _ _ (by decide) ?_
    | with_reducible refine releaseOne_keeps _ _ _ _ _ (by decide) ?_
    | with_reducible refine inheritStart_keeps _ _ _ _ _ (by decide) ?_
    | split

theorem faultAbandoned_keeps (w : List Part) (a : Core) (x0 : Core)
    (hw : [.io, .rsRegs, .rsCnts, .rsPages, .fe, .queues, .ctxs, .sqs, .isr, .de, .lanes, .st, .mf, .cru, .sched, .tu, .shr, .strm, .pp, .pmu, .trc, .free] ⊆ w) (h : SameBut w a x0) :
    SameBut w a (faultAbandoned x0) := by
  refine SameBut.next ?_ hw h
  clear hw h
  unfold faultAbandoned
  repeat' first
    | with_reducible exact SameBut.refl _ _
    | with_reducible assumption
    | (extract_lets +onlyGivenNames z; first | (refine SameBut.cut (x := z) ?_ (fun _ => ?_) <;> [(unfold z; clear z); clear_value z]) | clear_value z)
    | with_reducible refine cmdFault_keeps _ _ _ _ _ (by decide) ?_
    | with_reducible refine SameBut.fold _ _ _ _ _ (fun _ _ => ?_) ?_
    | with_reducible refine SameBut.set_st _ _ _ _ (by decide) ?_

theorem signalDone_keeps (w : List Part) (a : Core) (x0 : Core) (x1 : StSrc)
    (hw : [.io, .rsRegs, .rsCnts, .rsPages, .fe, .queues, .ctxs, .sqs, .isr, .de, .lanes, .st, .mf, .cru, .sched, .tu, .shr, .strm, .pp, .pmu, .trc, .dbg, .free] ⊆ w) (h : SameBut w a x0) :
    SameBut w a (signalDone x0 x1) := by
  refine SameBut.next ?_ hw h
  clear hw h
  unfold signalDone
  repeat' first
    | with_reducible exact SameBut.refl _ _
    | with_reducible assumption
    | with_reducible refine SameBut.ite _ _ _ _ _ (fun _ => ?_) (fun _ => ?_)
    | with_reducible refine moveOn_keeps _ _ _ _ (by decide) ?_
    | with_reducible refine modInst_keeps _ _ _ _ _ (by decide) ?_
    | split

theorem signalRefused_keeps (w : List Part) (a : Core) (x0 : Core) (x1 : StSrc) (x2 : Nat) (x3 : Nat) (x4 : Nat)
    (hw : [.io, .rsRegs, .rsCnts, .rsPages, .fe, .queues, .ctxs, .sqs, .isr, .de, .lanes, .st, .mf, .cru, .sched, .tu, .shr, .strm, .pp, .pmu, .trc, .free] ⊆ w) (h : SameBut w a x0) :
    SameBut w a (signalRefused x0 x1 x2 x3 x4) := by
  refine SameBut.next ?_ hw h
  clear hw h
  unfold signalRefused
  repeat' first
    | with_reducible exact SameBut.refl _ _
    | with_reducible assumption
    | with_reducible refine SameBut.ite _ _ _ _ _ (fun _ => ?_) (fun _ => ?_)
    | with_reducible refine pageErr_keeps _ _ _ _ _ _ _ (by decide) ?_
    | with_reducible refine instFault_keeps _ _ _ _ _ _ _ (by decide) ?_
    | with_reducible refine cmdFault_keeps _ _ _ _ _ (by decide) ?_
    | with_reducible refine modInst_keeps _ _ _ _ _ (by decide) ?_
    | split

theorem applySignal_keeps (w : List Part) (a : Core) (x0 : Core) (x1 : Bool) (x2 : StSrc) (x3 : Nat) (x4 : Word)
    (hw : [.io, .rsRegs, .rsCnts, .rsPages, .fe, .queues, .ctxs, .sqs, .isr, .de, .lanes, .st, .mf, .cru, .sched, .tu, .shr, .strm, .pp, .pmu, .trc, .dbg, .free] ⊆ w) (h : SameBut w a x0) :
    SameBut w a (applySignal x0 x1 x2 x3 x4) := by
  refine SameBut.next ?_ hw h
  clear hw h
  unfold applySignal
  repeat' first
    | with_reducible exact SameBut.refl _ _
    | with_reducible assumption
    | (extract_lets +onlyGivenNames z; first | (refine SameBut.cut (x := z) ?_ (fun _ => ?_) <;> [(unfold z; clear z); clear_value z]) | clear_value z)
    | with_reducible refine SameBut.ite _ _ _ _ _ (fun _ => ?_) (fun _ => ?_)
    | with_reducible refine doSignal_keeps _ _ _ _ _ _ (by decide) ?_
    | with_reducible refine signalDone_keeps _ _ _ _ (by decide) ?_
    | with_reducible refine signalRefused_keeps _ _ _ _ _ _ _ (by decide) ?_
    | with_reducible refine cntAdd_keeps _ _ _ _ _ _ (by decide) ?_
    | with_reducible refine doAdd_keeps _ _ _ _ _ _ (by decide) ?_
    | split

theorem applyWait_keeps (w : List Part) (a : Core) (x0 : Core) (x1 : Nat) (x2 : Nat) (x3 : Nat) (x4 : Word)
    (hw : [.io, .rsRegs, .rsCnts, .rsPages, .fe, .queues, .ctxs, .sqs, .isr, .de, .lanes, .st, .mf, .cru, .sched, .tu, .shr, .strm, .pp, .pmu, .trc, .free] ⊆ w) (h : SameBut w a x0) :
    SameBut w a (applyWait x0 x1 x2 x3 x4) := by
  refine SameBut.next ?_ hw h
  clear hw h
  unfold applyWait
  repeat' first
    | with_reducible exact SameBut.refl _ _
    | with_reducible assumption
    | (extract_lets +onlyGivenNames z; first | (refine SameBut.cut (x := z) ?_ (fun _ => ?_) <;> [(unfold z; clear z); clear_value z]) | clear_value z)
    | with_reducible refine SameBut.ite _ _ _ _ _ (fun _ => ?_) (fun _ => ?_)
    | with_reducible refine doWait_keeps _ _ _ _ _ (by decide) ?_
    | with_reducible refine cmdFault_keeps _ _ _ _ _ (by decide) ?_

theorem refuseRemote_keeps (w : List Part) (a : Core) (x0 : Core) (x1 : Nat) (x2 : Nat) (x3 : Nat) (x4 : Nat) (x5 : Nat) (x6 : Word)
    (hw : [.io, .rsCnts, .isr, .pp, .pmu] ⊆ w) (h : SameBut w a x0) :
    SameBut w a (refuseRemote x0 x1 x2 x3 x4 x5 x6) := by
  refine SameBut.next ?_ hw h
  clear hw h
  unfold refuseRemote
  repeat' first
    | with_reducible exact SameBut.refl _ _
    | with_reducible assumption
    | (extract_lets +onlyGivenNames z; first | (refine SameBut.cut (x := z) ?_ (fun _ => ?_) <;> [(unfold z; clear z); clear_value z]) | clear_value z)
    | with_reducible refine linkOffer_keeps _ _ _ _ _ _ (by decide) ?_
    | split

theorem applyRemoteWait_keeps (w : List Part) (a : Core) (x0 : Core) (x1 : Nat) (x2 : Nat) (x3 : Nat) (x4 : Nat) (x5 : Word)
    (hw : [.io, .rsCnts, .rsPages, .queues, .isr, .st, .sched, .pp, .pmu, .trc] ⊆ w) (h : SameBut w a x0) :
    SameBut w a (applyRemoteWait x0 x1 x2 x3 x4 x5) := by
  refine SameBut.next ?_ hw h
  clear hw h
  unfold applyRemoteWait
  repeat' first
    | with_reducible exact SameBut.refl _ _
    | with_reducible assumption
    | (extract_lets +onlyGivenNames z; first | (refine SameBut.cut (x := z) ?_ (fun _ => ?_) <;> [(unfold z; clear z); clear_value z]) | clear_value z)
    | with_reducible refine SameBut.ite _ _ _ _ _ (fun _ => ?_) (fun _ => ?_)
    | with_reducible refine refuseRemote_keeps _ _ _ _ _ _ _ _ _ (by decide) ?_
    | with_reducible refine doWait_keeps _ _ _ _ _ (by decide) ?_

theorem applyForce_keeps (w : List Part) (a : Core) (x0 : Core) (x1 : Nat) (x2 : Word)
    (hw : [.rsCnts, .rsPages, .st] ⊆ w) (h : SameBut w a x0) :
    SameBut w a (applyForce x0 x1 x2) := by
  refine SameBut.next ?_ hw h
  clear hw h
  unfold applyForce
  repeat' first
    | with_reducible exact SameBut.refl _ _
    | with_reducible assumption
    | (extract_lets +onlyGivenNames z; first | (refine SameBut.cut (x := z) ?_ (fun _ => ?_) <;> [(unfold z; clear z); clear_value z]) | clear_value z)
    | with_reducible refine SameBut.ite _ _ _ _ _ (fun _ => ?_) (fun _ => ?_)
    | with_reducible refine modObj_keeps _ _ _ _ _ (by decide) ?_
    | with_reducible refine notifyCookie_keeps _ _ _ _ (by decide) ?_
    | with_reducible refine SameBut.set_st _ _ _ _ (by decide) ?_

theorem applyOp_keeps (w : List Part) (a : Core) (x0 : Core) (x1 : StOp)
    (hw : [.io, .rsRegs, .rsCnts, .rsPages, .fe, .queues, .ctxs, .sqs, .isr, .de, .lanes, .st, .mf, .cru, .sched, .tu, .shr, .strm, .pp, .pmu, .trc, .dbg, .free] ⊆ w) (h : SameBut w a x0) :
    SameBut w a (applyOp x0 x1) := by
  refine SameBut.next ?_ hw h
  clear hw h
  unfold applyOp
  repeat' first
    | with_reducible exact SameBut.refl _ _
    | with_reducible assumption
    | (extract_lets +onlyGivenNames z; first | (refine SameBut.cut (x := z) ?_ (fun _ => ?_) <;> [(unfold z; clear z); clear_value z]) | clear_value z)
    | with_reducible refine applyForce_keeps _ _ _ _ _ (by decide) ?_
    | with_reducible refine answer_keeps _ _ _ _ _ _ _ _ (by decide) ?_
    | with_reducible refine applyRemoteWait_keeps _ _ _ _ _ _ _ _ (by decide) ?_
    | with_reducible refine applySignal_keeps _ _ _ _ _ _ _ (by decide) ?_
    | with_reducible refine feDone_keeps _ _ _ (by decide) ?_
    | with_reducible refine applyWait_keeps _ _ _ _ _ _ _ (by decide) ?_
    | with_reducible refine faultAbandoned_keeps _ _ _ (by decide) ?_
    | with_reducible refine abandonWaits_keeps _ _ _ _ (by decide) ?_
    | split
    | with_reducible refine SameBut.set_st _ _ _ _ (by decide) ?_

theorem applyOps_keeps (w : List Part) (a : Core) (x0 : Core) (x1 : List StOp)
    (hw : [.io, .rsRegs, .rsCnts, .rsPages, .fe, .queues, .ctxs, .sqs, .isr, .de, .lanes, .st, .mf, .cru, .sched, .tu, .shr, .strm, .pp, .pmu, .trc, .dbg, .free] ⊆ w) (h : SameBut w a x0) :
    SameBut w a (applyOps x0 x1) := by
  refine SameBut.next ?_ hw h
  clear hw h
  unfold applyOps
  repeat' first
    | with_reducible exact SameBut.refl _ _
    | with_reducible assumption
    | (extract_lets +onlyGivenNames z; first | (refine SameBut.cut (x := z) ?_ (fun _ => ?_) <;> [(unfold z; clear z); clear_value z]) | clear_value z)
    | with_reducible refine pmuEv_keeps _ _ _ _ _ _ (by decide) ?_
    | with_reducible refine cntAdd_keeps _ _ _ _ _ _ (by decide) ?_
    | with_reducible refine serveObj_keeps _ _ _ _ (by decide) ?_
    | with_reducible refine detachAll_keeps _ _ _ (by decide) ?_
    | with_reducible refine faultAbandoned_keeps _ _ _ (by decide) ?_
    | with_reducible refine applyOp_keeps _ _ _ _ (by decide) ?_
    | with_reducible refine SameBut.fold _ _ _ _ _ (fun _ _ => ?_) ?_

theorem applyHead_keeps (w : List Part) (a : Core) (x0 : Core) (x1 : Nat)
    (hw : [.io, .rsRegs, .rsCnts, .rsPages, .fe, .queues, .ctxs, .sqs, .isr, .de, .lanes, .st, .mf, .cru, .sched, .tu, .shr, .strm, .pp, .pmu, .trc, .dbg, .free] ⊆ w) (h : SameBut w a x0) :
    SameBut w a (applyHead x0 x1) := by
  refine SameBut.next ?_ hw h
  clear hw h
  unfold applyHead
  repeat' first
    | with_reducible exact SameBut.refl _ _
    | with_reducible assumption
    | (extract_lets +onlyGivenNames z; first | (refine SameBut.cut (x := z) ?_ (fun _ => ?_) <;> [(unfold z; clear z); clear_value z]) | clear_value z)
    | with_reducible refine applyOps_keeps _ _ _ _ (by decide) ?_
    | with_reducible refine stFill_keeps _ _ _ (by decide) ?_
    | with_reducible refine SameBut.set_st _ _ _ _ (by decide) ?_

theorem stDrain_keeps (w : List Part) (a : Core) (x0 : Core)
    (hw : [.io, .rsRegs, .rsCnts, .rsPages, .fe, .queues, .ctxs, .sqs, .isr, .de, .lanes, .st, .mf, .cru, .sched, .tu, .shr, .strm, .pp, .pmu, .trc, .dbg, .free] ⊆ w) (h : SameBut w a x0) :
    SameBut w a (stDrain x0) := by
  refine SameBut.next ?_ hw h
  clear hw h
  unfold stDrain
  repeat' first
    | with_reducible exact SameBut.refl _ _
    | with_reducible assumption
    | with_reducible refine SameBut.ite _ _ _ _ _ (fun _ => ?_) (fun _ => ?_)
    | with_reducible refine applyHead_keeps _ _ _ _ (by decide) ?_

theorem dbgSnap_keeps (w : List Part) (a : Core) (x0 : Core)
    (hw : [.st] ⊆ w) (h : SameBut w a x0) :
    SameBut w a (dbgSnap x0) := by
  refine SameBut.next ?_ hw h
  clear hw h
  unfold dbgSnap
  repeat' first
    | with_reducible exact SameBut.refl _ _
    | with_reducible assumption
    | (extract_lets +onlyGivenNames z; first | (refine SameBut.cut (x := z) ?_ (fun _ => ?_) <;> [(unfold z; clear z); clear_value z]) | clear_value z)
    | with_reducible refine SameBut.set_st _ _ _ _ (by decide) ?_

theorem forceHi_keeps (w : List Part) (a : Core) (x0 : Core) (x1 : Reg)
    (hw : [.st] ⊆ w) (h : SameBut w a x0) :
    SameBut w a (forceHi x0 x1) := by
  refine SameBut.next ?_ hw h
  clear hw h
  unfold forceHi
  repeat' first
    | with_reducible exact SameBut.refl _ _
    | with_reducible assumption
    | (extract_lets +onlyGivenNames z; first | (refine SameBut.cut (x := z) ?_ (fun _ => ?_) <;> [(unfold z; clear z); clear_value z]) | clear_value z)
    | with_reducible refine SameBut.ite _ _ _ _ _ (fun _ => ?_) (fun _ => ?_)
    | with_reducible refine stOffer_keeps _ _ _ _ (by decide) ?_
    | with_reducible refine SameBut.set_st _ _ _ _ (by decide) ?_

end Sys2Proof.Machine
end

