-- ==== Sys2Proof/Laws/Program.lean ====
section
/-! SUPPORT. What the operations of Program.lean leave as it was. -/

set_option linter.unusedTactic false
set_option linter.unreachableTactic false
set_option linter.tactic.unusedName false

namespace Sys2Proof.Machine

theorem issueCpl_keeps (w : List Part) (a : Core) (x0 : Core) (x1 : Nat)
    (hw : [.io, .pmu] ⊆ w) (h : SameBut w a x0) :
    SameBut w a (issueCpl x0 x1) := by
  refine SameBut.next ?_ hw h
  clear hw h
  unfold issueCpl
  repeat' first
    | with_reducible exact SameBut.refl _ _
    | with_reducible assumption
    | with_reducible refine hipWrite_keeps _ _ _ _ _ _ _ (by decide) ?_
    | split

theorem handCpl_keeps (w : List Part) (a : Core) (x0 : Core) (x1 : Nat) (x2 : Cpl)
    (hw : [.io, .queues, .pmu] ⊆ w) (h : SameBut w a x0) :
    SameBut w a (handCpl x0 x1 x2) := by
  refine SameBut.next ?_ hw h
  clear hw h
  unfold handCpl
  repeat' first
    | with_reducible exact SameBut.refl _ _
    | with_reducible assumption
    | (extract_lets +onlyGivenNames z; first | (refine SameBut.cut (x := z) ?_ (fun _ => ?_) <;> [(unfold z; clear z); clear_value z]) | clear_value z)
    | with_reducible refine SameBut.ite _ _ _ _ _ (fun _ => ?_) (fun _ => ?_)
    | with_reducible refine modQ_keeps _ _ _ _ _ (by decide) ?_
    | with_reducible refine issueCpl_keeps _ _ _ _ (by decide) ?_

theorem endProgram_keeps (w : List Part) (a : Core) (x0 : Core) (x1 : Nat) (x2 : Nat) (x3 : Nat)
    (hw : [.io, .rsPages, .fe, .queues, .ctxs, .sqs, .mf, .pmu, .trc] ⊆ w) (h : SameBut w a x0) :
    SameBut w a (endProgram x0 x1 x2 x3) := by
  refine SameBut.next ?_ hw h
  clear hw h
  unfold endProgram
  repeat' first
    | with_reducible exact SameBut.refl _ _
    | with_reducible assumption
    | (extract_lets +onlyGivenNames z; first | (refine SameBut.cut (x := z) ?_ (fun _ => ?_) <;> [(unfold z; clear z); clear_value z]) | clear_value z)
    | with_reducible refine SameBut.ite _ _ _ _ _ (fun _ => ?_) (fun _ => ?_)
    | with_reducible refine freeSq_keeps _ _ _ _ (by decide) ?_
    | with_reducible refine programEnded_keeps _ _ _ _ _ (by decide) ?_
    | with_reducible refine modQ_keeps _ _ _ _ _ (by decide) ?_
    | with_reducible refine irqSet_keeps _ _ _ _ _ (by decide) ?_
    | with_reducible refine subDone_keeps _ _ _ _ _ (by decide) ?_
    | with_reducible refine balCheck_keeps _ _ _ _ (by decide) ?_
    | split

theorem opHalt_keeps (w : List Part) (a : Core) (x0 : Nat) (x1 : Core) (x2 : Nat) (x3 : Word) (x4 : Word)
    (hw : [.io, .rsPages, .fe, .queues, .ctxs, .sqs, .mf, .pmu, .trc] ⊆ w) (h : SameBut w a x1) :
    SameBut w a (opHalt x0 x1 x2 x3 x4) := by
  refine SameBut.next ?_ hw h
  clear hw h
  unfold opHalt
  repeat' first
    | with_reducible exact SameBut.refl _ _
    | with_reducible assumption
    | with_reducible refine endProgram_keeps _ _ _ _ _ _ (by decide) ?_

theorem fenceDone_keeps (w : List Part) (a : Core) (x0 : Core) (x1 : Nat) (x2 : Nat)
    (hw : [.io, .rsPages, .fe, .queues, .ctxs, .sqs, .mf, .pmu, .trc] ⊆ w) (h : SameBut w a x0) :
    SameBut w a (fenceDone x0 x1 x2) := by
  refine SameBut.next ?_ hw h
  clear hw h
  unfold fenceDone
  repeat' first
    | with_reducible exact SameBut.refl _ _
    | with_reducible assumption
    | with_reducible refine endProgram_keeps _ _ _ _ _ _ (by decide) ?_
    | with_reducible refine handCpl_keeps _ _ _ _ _ (by decide) ?_
    | split

theorem opFenceOut_keeps (w : List Part) (a : Core) (x0 : Nat) (x1 : Core) (x2 : Nat) (x3 : Word) (x4 : Word)
    (hw : [.io, .rsPages, .fe, .queues, .ctxs, .sqs, .mf, .pmu, .trc] ⊆ w) (h : SameBut w a x1) :
    SameBut w a (opFenceOut x0 x1 x2 x3 x4) := by
  refine SameBut.next ?_ hw h
  clear hw h
  unfold opFenceOut
  repeat' first
    | with_reducible exact SameBut.refl _ _
    | with_reducible assumption
    | with_reducible refine SameBut.ite _ _ _ _ _ (fun _ => ?_) (fun _ => ?_)
    | with_reducible refine fenceDone_keeps _ _ _ _ _ (by decide) ?_
    | with_reducible refine stallAt_keeps _ _ _ _ _ (by decide) ?_

theorem pollFence_keeps (w : List Part) (a : Core) (x0 : Core) (x1 : Nat)
    (hw : [.io, .rsPages, .fe, .queues, .ctxs, .sqs, .mf, .pmu, .trc] ⊆ w) (h : SameBut w a x0) :
    SameBut w a (pollFence x0 x1) := by
  refine SameBut.next ?_ hw h
  clear hw h
  unfold pollFence
  repeat' first
    | with_reducible exact SameBut.refl _ _
    | with_reducible assumption
    | with_reducible refine SameBut.ite _ _ _ _ _ (fun _ => ?_) (fun _ => ?_)
    | with_reducible refine fenceDone_keeps _ _ _ _ _ (by decide) ?_
    | split

theorem opTimeoutSet_keeps (w : List Part) (a : Core) (x0 : Nat) (x1 : Core) (x2 : Nat) (x3 : Word) (x4 : Word)
    (hw : [.io, .rsRegs, .rsCnts, .rsPages, .fe, .queues, .ctxs, .sqs, .isr, .de, .lanes, .st, .mf, .cru, .sched, .tu, .shr, .strm, .pp, .pmu, .trc, .dbg, .free] ⊆ w) (h : SameBut w a x1) :
    SameBut w a (opTimeoutSet x0 x1 x2 x3 x4) := by
  refine SameBut.next ?_ hw h
  clear hw h
  unfold opTimeoutSet
  repeat' first
    | with_reducible exact SameBut.refl _ _
    | with_reducible assumption
    | (extract_lets +onlyGivenNames z; first | (refine SameBut.cut (x := z) ?_ (fun _ => ?_) <;> [(unfold z; clear z); clear_value z]) | clear_value z)
    | with_reducible refine SameBut.ite _ _ _ _ _ (fun _ => ?_) (fun _ => ?_)
    | with_reducible refine moveOn_keeps _ _ _ _ (by decide) ?_
    | with_reducible refine cmdFault_keeps _ _ _ _ _ (by decide) ?_
    | with_reducible refine regSet_keeps _ _ _ _ _ _ (by decide) ?_

theorem takePoint_keeps (w : List Part) (a : Core) (x0 : Core) (x1 : Nat) (x2 : Nat) (x3 : List LiveSet)
    (hw : [.io, .rsRegs, .rsCnts, .rsPages, .fe, .queues, .ctxs, .sqs, .isr, .de, .lanes, .st, .mf, .cru, .sched, .tu, .shr, .strm, .pp, .pmu, .trc, .dbg, .free] ⊆ w) (h : SameBut w a x0) :
    SameBut w a (takePoint x0 x1 x2 x3) := by
  refine SameBut.next ?_ hw h
  clear hw h
  unfold takePoint
  repeat' first
    | with_reducible exact SameBut.refl _ _
    | with_reducible assumption
    | (extract_lets +onlyGivenNames z; first | (refine SameBut.cut (x := z) ?_ (fun _ => ?_) <;> [(unfold z; clear z); clear_value z]) | clear_value z)
    | with_reducible refine SameBut.ite _ _ _ _ _ (fun _ => ?_) (fun _ => ?_)
    | with_reducible refine moveOn_keeps _ _ _ _ (by decide) ?_
    | with_reducible refine takeSave_keeps _ _ _ _ _ _ _ (by decide) ?_
    | with_reducible refine modSq_keeps _ _ _ _ _ (by decide) ?_

theorem opPreemptPoint_keeps (w : List Part) (a : Core) (x0 : Nat) (x1 : Core) (x2 : Nat) (x3 : Word) (x4 : Word)
    (hw : [.io, .rsRegs, .rsCnts, .rsPages, .fe, .queues, .ctxs, .sqs, .isr, .de, .lanes, .st, .mf, .cru, .sched, .tu, .shr, .strm, .pp, .pmu, .trc, .dbg, .free] ⊆ w) (h : SameBut w a x1) :
    SameBut w a (opPreemptPoint x0 x1 x2 x3 x4) := by
  refine SameBut.next ?_ hw h
  clear hw h
  unfold opPreemptPoint
  repeat' first
    | with_reducible exact SameBut.refl _ _
    | with_reducible assumption
    | (extract_lets +onlyGivenNames z; first | (refine SameBut.cut (x := z) ?_ (fun _ => ?_) <;> [(unfold z; clear z); clear_value z]) | clear_value z)
    | with_reducible refine SameBut.ite _ _ _ _ _ (fun _ => ?_) (fun _ => ?_)
    | with_reducible refine pageErr_keeps _ _ _ _ _ _ _ (by decide) ?_
    | with_reducible refine moveOn_keeps _ _ _ _ (by decide) ?_
    | with_reducible refine takePoint_keeps _ _ _ _ _ _ (by decide) ?_
    | with_reducible refine modQ_keeps _ _ _ _ _ (by decide) ?_
    | with_reducible refine cntAdd_keeps _ _ _ _ _ _ (by decide) ?_
    | with_reducible refine irqSet_keeps _ _ _ _ _ (by decide) ?_
    | with_reducible refine pointRestart_keeps _ _ _ _ (by decide) ?_
    | split

theorem opNop_keeps (w : List Part) (a : Core) (x0 : Nat) (x1 : Core) (x2 : Nat) (x3 : Word) (x4 : Word)
    (hw : [.io, .rsRegs, .rsCnts, .rsPages, .fe, .queues, .ctxs, .sqs, .isr, .de, .lanes, .st, .mf, .cru, .sched, .tu, .shr, .strm, .pp, .pmu, .trc, .dbg, .free] ⊆ w) (h : SameBut w a x1) :
    SameBut w a (opNop x0 x1 x2 x3 x4) := by
  refine SameBut.next ?_ hw h
  clear hw h
  unfold opNop
  repeat' first
    | with_reducible exact SameBut.refl _ _
    | with_reducible assumption
    | with_reducible refine moveOn_keeps _ _ _ _ (by decide) ?_

theorem opJump_keeps (w : List Part) (a : Core) (x0 : Nat) (x1 : Core) (x2 : Nat) (x3 : Word) (x4 : Word)
    (hw : [.io, .rsRegs, .rsCnts, .rsPages, .fe, .queues, .ctxs, .sqs, .isr, .de, .lanes, .st, .mf, .cru, .sched, .tu, .shr, .strm, .pp, .pmu, .trc, .dbg, .free] ⊆ w) (h : SameBut w a x1) :
    SameBut w a (opJump x0 x1 x2 x3 x4) := by
  refine SameBut.next ?_ hw h
  clear hw h
  unfold opJump
  repeat' first
    | with_reducible exact SameBut.refl _ _
    | with_reducible assumption
    | with_reducible refine moveTo_keeps _ _ _ _ _ (by decide) ?_

theorem opBranch_keeps (w : List Part) (a : Core) (x0 : Nat) (x1 : Core) (x2 : Nat) (x3 : Word) (x4 : Word)
    (hw : [.io, .rsRegs, .rsCnts, .rsPages, .fe, .queues, .ctxs, .sqs, .isr, .de, .lanes, .st, .mf, .cru, .sched, .tu, .shr, .strm, .pp, .pmu, .trc, .dbg, .free] ⊆ w) (h : SameBut w a x1) :
    SameBut w a (opBranch x0 x1 x2 x3 x4) := by
  refine SameBut.next ?_ hw h
  clear hw h
  unfold opBranch
  repeat' first
    | with_reducible exact SameBut.refl _ _
    | with_reducible assumption
    | with_reducible refine SameBut.ite _ _ _ _ _ (fun _ => ?_) (fun _ => ?_)
    | with_reducible refine moveOn_keeps _ _ _ _ (by decide) ?_
    | with_reducible refine moveTo_keeps _ _ _ _ _ (by decide) ?_

theorem opSop_keeps (w : List Part) (a : Core) (x0 : Nat) (x1 : Core) (x2 : Nat) (x3 : Word) (x4 : Word)
    (hw : [.io, .rsRegs, .rsCnts, .rsPages, .fe, .queues, .ctxs, .sqs, .isr, .de, .lanes, .st, .mf, .cru, .sched, .tu, .shr, .strm, .pp, .pmu, .trc, .dbg, .free] ⊆ w) (h : SameBut w a x1) :
    SameBut w a (opSop x0 x1 x2 x3 x4) := by
  refine SameBut.next ?_ hw h
  clear hw h
  unfold opSop
  repeat' first
    | with_reducible exact SameBut.refl _ _
    | with_reducible assumption
    | with_reducible refine moveOn_keeps _ _ _ _ (by decide) ?_
    | with_reducible refine setSreg_keeps _ _ _ _ _ _ (by decide) ?_
    | with_reducible refine cmdFault_keeps _ _ _ _ _ (by decide) ?_
    | split

theorem opPatch_keeps (w : List Part) (a : Core) (x0 : Nat) (x1 : Core) (x2 : Nat) (x3 : Word) (x4 : Word)
    (hw : [.io, .rsRegs, .rsCnts, .rsPages, .fe, .queues, .ctxs, .sqs, .isr, .de, .lanes, .st, .mf, .cru, .sched, .tu, .shr, .strm, .pp, .pmu, .trc, .dbg, .free] ⊆ w) (h : SameBut w a x1) :
    SameBut w a (opPatch x0 x1 x2 x3 x4) := by
  refine SameBut.next ?_ hw h
  clear hw h
  unfold opPatch
  repeat' first
    | with_reducible exact SameBut.refl _ _
    | with_reducible assumption
    | (extract_lets +onlyGivenNames z; first | (refine SameBut.cut (x := z) ?_ (fun _ => ?_) <;> [(unfold z; clear z); clear_value z]) | clear_value z)
    | with_reducible refine moveOn_keeps _ _ _ _ (by decide) ?_
    | with_reducible refine modSq_keeps _ _ _ _ _ (by decide) ?_

theorem opLdshape_keeps (w : List Part) (a : Core) (x0 : Nat) (x1 : Core) (x2 : Nat) (x3 : Word) (x4 : Word)
    (hw : [.io, .rsRegs, .rsCnts, .rsPages, .fe, .queues, .ctxs, .sqs, .isr, .de, .lanes, .st, .mf, .cru, .sched, .tu, .shr, .strm, .pp, .pmu, .trc, .dbg, .free] ⊆ w) (h : SameBut w a x1) :
    SameBut w a (opLdshape x0 x1 x2 x3 x4) := by
  refine SameBut.next ?_ hw h
  clear hw h
  unfold opLdshape
  repeat' first
    | with_reducible exact SameBut.refl _ _
    | with_reducible assumption
    | (extract_lets +onlyGivenNames z; first | (refine SameBut.cut (x := z) ?_ (fun _ => ?_) <;> [(unfold z; clear z); clear_value z]) | clear_value z)
    | with_reducible refine moveOn_keeps _ _ _ _ (by decide) ?_
    | with_reducible refine setSreg_keeps _ _ _ _ _ _ (by decide) ?_
    | with_reducible refine mpRead_keeps _ _ _ _ _ _ _ (by decide) ?_
    | with_reducible refine cmdFault_keeps _ _ _ _ _ (by decide) ?_
    | with_reducible refine stallAt_keeps _ _ _ _ _ (by decide) ?_
    | with_reducible refine SameBut.fold _ _ _ _ _ (fun _ _ => ?_) ?_
    | split

theorem opStshape_keeps (w : List Part) (a : Core) (x0 : Nat) (x1 : Core) (x2 : Nat) (x3 : Word) (x4 : Word)
    (hw : [.io, .rsRegs, .rsCnts, .rsPages, .fe, .queues, .ctxs, .sqs, .isr, .de, .lanes, .st, .mf, .cru, .sched, .tu, .shr, .strm, .pp, .pmu, .trc, .dbg, .free] ⊆ w) (h : SameBut w a x1) :
    SameBut w a (opStshape x0 x1 x2 x3 x4) := by
  refine SameBut.next ?_ hw h
  clear hw h
  unfold opStshape
  repeat' first
    | with_reducible exact SameBut.refl _ _
    | with_reducible assumption
    | (extract_lets +onlyGivenNames z; first | (refine SameBut.cut (x := z) ?_ (fun _ => ?_) <;> [(unfold z; clear z); clear_value z]) | clear_value z)
    | with_reducible refine moveOn_keeps _ _ _ _ (by decide) ?_
    | with_reducible refine cmdFault_keeps _ _ _ _ _ (by decide) ?_
    | with_reducible refine stallAt_keeps _ _ _ _ _ (by decide) ?_
    | with_reducible refine modSq_keeps _ _ _ _ _ (by decide) ?_
    | with_reducible refine mpWrite_keeps _ _ _ _ _ _ _ (by decide) ?_
    | with_reducible refine SameBut.fold _ _ _ _ _ (fun _ _ => ?_) ?_
    | split

theorem opLaunch_keeps (w : List Part) (a : Core) (x0 : Nat) (x1 : Bool) (x2 : Core) (x3 : Nat) (x4 : Word) (x5 : Word)
    (hw : [.io, .rsRegs, .rsCnts, .rsPages, .fe, .queues, .ctxs, .sqs, .isr, .de, .lanes, .st, .mf, .cru, .sched, .tu, .shr, .strm, .pp, .pmu, .trc, .free] ⊆ w) (h : SameBut w a x2) :
    SameBut w a (opLaunch x0 x1 x2 x3 x4 x5) := by
  refine SameBut.next ?_ hw h
  clear hw h
  unfold opLaunch
  repeat' first
    | with_reducible exact SameBut.refl _ _
    | with_reducible assumption
    | (extract_lets +onlyGivenNames z; first | (refine SameBut.cut (x := z) ?_ (fun _ => ?_) <;> [(unfold z; clear z); clear_value z]) | clear_value z)
    | with_reducible refine SameBut.ite _ _ _ _ _ (fun _ => ?_) (fun _ => ?_)
    | with_reducible refine cmdFault_keeps _ _ _ _ _ (by decide) ?_
    | with_reducible refine stallAt_keeps _ _ _ _ _ (by decide) ?_
    | with_reducible refine SameBut.set_isr _ _ _ _ (by decide) ?_

theorem opSignal_keeps (w : List Part) (a : Core) (x0 : Nat) (x1 : Bool) (x2 : Core) (x3 : Nat) (x4 : Word) (x5 : Word)
    (hw : [.io, .rsRegs, .rsCnts, .rsPages, .fe, .queues, .ctxs, .sqs, .isr, .de, .lanes, .st, .mf, .cru, .sched, .tu, .shr, .strm, .pp, .pmu, .trc, .dbg, .free] ⊆ w) (h : SameBut w a x2) :
    SameBut w a (opSignal x0 x1 x2 x3 x4 x5) := by
  refine SameBut.next ?_ hw h
  clear hw h
  unfold opSignal
  repeat' first
    | with_reducible exact SameBut.refl _ _
    | with_reducible assumption
    | (extract_lets +onlyGivenNames z; first | (refine SameBut.cut (x := z) ?_ (fun _ => ?_) <;> [(unfold z; clear z); clear_value z]) | clear_value z)
    | with_reducible refine SameBut.ite _ _ _ _ _ (fun _ => ?_) (fun _ => ?_)
    | with_reducible refine stOffer_keeps _ _ _ _ (by decide) ?_
    | with_reducible refine cmdFault_keeps _ _ _ _ _ (by decide) ?_
    | with_reducible refine linkOffer_keeps _ _ _ _ _ _ (by decide) ?_
    | with_reducible refine stallAt_keeps _ _ _ _ _ (by decide) ?_
    | with_reducible refine drainAccepted_keeps _ _ _ (by decide) ?_
    | split

theorem sendRemoteWait_keeps (w : List Part) (a : Core) (x0 : Core) (x1 : Nat) (x2 : Nat) (x3 : Nat) (x4 : Nat) (x5 : Word)
    (hw : [.io, .rsCnts, .isr, .pp, .pmu] ⊆ w) (h : SameBut w a x0) :
    SameBut w a (sendRemoteWait x0 x1 x2 x3 x4 x5) := by
  refine SameBut.next ?_ hw h
  clear hw h
  unfold sendRemoteWait
  repeat' first
    | with_reducible exact SameBut.refl _ _
    | with_reducible assumption
    | (extract_lets +onlyGivenNames z; first | (refine SameBut.cut (x := z) ?_ (fun _ => ?_) <;> [(unfold z; clear z); clear_value z]) | clear_value z)
    | with_reducible refine linkOffer_keeps _ _ _ _ _ _ (by decide) ?_
    | with_reducible refine SameBut.set_pp _ _ _ _ (by decide) ?_

theorem opWait_keeps (w : List Part) (a : Core) (x0 : Nat) (x1 : Core) (x2 : Nat) (x3 : Word) (x4 : Word)
    (hw : [.io, .rsRegs, .rsCnts, .rsPages, .fe, .queues, .ctxs, .sqs, .isr, .de, .lanes, .st, .mf, .cru, .sched, .tu, .shr, .strm, .pp, .pmu, .trc, .dbg, .free] ⊆ w) (h : SameBut w a x1) :
    SameBut w a (opWait x0 x1 x2 x3 x4) := by
  refine SameBut.next ?_ hw h
  clear hw h
  unfold opWait
  repeat' first
    | with_reducible exact SameBut.refl _ _
    | with_reducible assumption
    | (extract_lets +onlyGivenNames z; first | (refine SameBut.cut (x := z) ?_ (fun _ => ?_) <;> [(unfold z; clear z); clear_value z]) | clear_value z)
    | with_reducible refine SameBut.ite _ _ _ _ _ (fun _ => ?_) (fun _ => ?_)
    | with_reducible refine moveOn_keeps _ _ _ _ (by decide) ?_
    | with_reducible refine stOffer_keeps _ _ _ _ (by decide) ?_
    | with_reducible refine alarmAdd_keeps _ _ _ _ _ _ (by decide) ?_
    | with_reducible refine lateSave_keeps _ _ _ _ (by decide) ?_
    | with_reducible refine sendRemoteWait_keeps _ _ _ _ _ _ _ _ (by decide) ?_
    | with_reducible refine cmdFault_keeps _ _ _ _ _ (by decide) ?_
    | with_reducible refine stallAt_keeps _ _ _ _ _ (by decide) ?_
    | with_reducible refine drainAccepted_keeps _ _ _ (by decide) ?_
    | split

theorem pollInst_keeps (w : List Part) (a : Core) (x0 : Core) (x1 : Nat)
    (hw : [.io, .rsRegs, .rsCnts, .rsPages, .fe, .queues, .ctxs, .sqs, .isr, .de, .lanes, .st, .mf, .cru, .sched, .tu, .shr, .strm, .pp, .pmu, .trc, .dbg, .free] ⊆ w) (h : SameBut w a x0) :
    SameBut w a (pollInst x0 x1) := by
  refine SameBut.next ?_ hw h
  clear hw h
  unfold pollInst
  repeat' first
    | with_reducible exact SameBut.refl _ _
    | with_reducible assumption
    | (extract_lets +onlyGivenNames z; first | (refine SameBut.cut (x := z) ?_ (fun _ => ?_) <;> [(unfold z; clear z); clear_value z]) | clear_value z)
    | with_reducible refine SameBut.ite _ _ _ _ _ (fun _ => ?_) (fun _ => ?_)
    | with_reducible refine moveOn_keeps _ _ _ _ (by decide) ?_
    | split

end Sys2Proof.Machine
end

