-- ==== Sys2Proof/Laws/De.lean ====
section
/-! SUPPORT. What the operations of De.lean leave as it was. -/

set_option linter.unusedTactic false
set_option linter.unreachableTactic false
set_option linter.tactic.unusedName false

namespace Sys2Proof.Machine

theorem patchUse_keeps (w : List Part) (a : Core) (x0 : Core) (x1 : Nat)
    (hw : [.isr] ⊆ w) (h : SameBut w a x0) :
    SameBut w a (patchUse x0 x1) := by
  refine SameBut.next ?_ hw h
  clear hw h
  unfold patchUse
  repeat' first
    | with_reducible exact SameBut.refl _ _
    | with_reducible assumption
    | with_reducible refine SameBut.set_isr _ _ _ _ (by decide) ?_

theorem patchFetch_keeps (w : List Part) (a : Core) (x0 : Core) (x1 : Nat)
    (hw : [.io, .rsCnts, .isr, .pmu] ⊆ w) (h : SameBut w a x0) :
    SameBut w a (patchFetch x0 x1) := by
  refine SameBut.next ?_ hw h
  clear hw h
  unfold patchFetch
  repeat' first
    | with_reducible exact SameBut.refl _ _
    | with_reducible assumption
    | (extract_lets +onlyGivenNames z; first | (refine SameBut.cut (x := z) ?_ (fun _ => ?_) <;> [(unfold z; clear z); clear_value z]) | clear_value z)
    | with_reducible refine SameBut.ite _ _ _ _ _ (fun _ => ?_) (fun _ => ?_)
    | with_reducible refine cntAdd_keeps _ _ _ _ _ _ (by decide) ?_
    | with_reducible refine mpRead_keeps _ _ _ _ _ _ _ (by decide) ?_
    | with_reducible refine SameBut.set_isr _ _ _ _ (by decide) ?_

theorem patchEvict_keeps (w : List Part) (a : Core) (x0 : Core) (x1 : Nat)
    (hw : [.io, .isr, .pmu] ⊆ w) (h : SameBut w a x0) :
    SameBut w a (patchEvict x0 x1) := by
  refine SameBut.next ?_ hw h
  clear hw h
  unfold patchEvict
  repeat' first
    | with_reducible exact SameBut.refl _ _
    | with_reducible assumption
    | (extract_lets +onlyGivenNames z; first | (refine SameBut.cut (x := z) ?_ (fun _ => ?_) <;> [(unfold z; clear z); clear_value z]) | clear_value z)
    | with_reducible refine mpWrite_keeps _ _ _ _ _ _ _ (by decide) ?_
    | with_reducible refine SameBut.set_isr _ _ _ _ (by decide) ?_

theorem patchInsert_keeps (w : List Part) (a : Core) (x0 : Core) (x1 : Nat) (x2 : List Word)
    (hw : [.io, .isr, .pmu] ⊆ w) (h : SameBut w a x0) :
    SameBut w a (patchInsert x0 x1 x2) := by
  refine SameBut.next ?_ hw h
  clear hw h
  unfold patchInsert
  repeat' first
    | with_reducible exact SameBut.refl _ _
    | with_reducible assumption
    | (extract_lets +onlyGivenNames z; first | (refine SameBut.cut (x := z) ?_ (fun _ => ?_) <;> [(unfold z; clear z); clear_value z]) | clear_value z)
    | with_reducible refine SameBut.ite _ _ _ _ _ (fun _ => ?_) (fun _ => ?_)
    | with_reducible refine patchUse_keeps _ _ _ _ (by decide) ?_
    | with_reducible refine patchEvict_keeps _ _ _ _ (by decide) ?_
    | split
    | with_reducible refine SameBut.set_isr _ _ _ _ (by decide) ?_

theorem patchPut_keeps (w : List Part) (a : Core) (x0 : Core) (x1 : Nat) (x2 : Nat) (x3 : Word)
    (hw : [.isr] ⊆ w) (h : SameBut w a x0) :
    SameBut w a (patchPut x0 x1 x2 x3) := by
  refine SameBut.next ?_ hw h
  clear hw h
  unfold patchPut
  repeat' first
    | with_reducible exact SameBut.refl _ _
    | with_reducible assumption
    | with_reducible refine SameBut.set_isr _ _ _ _ (by decide) ?_

theorem ctrSet_keeps (w : List Part) (a : Core) (x0 : Core) (x1 : Nat) (x2 : Nat) (x3 : Nat)
    (hw : [.isr] ⊆ w) (h : SameBut w a x0) :
    SameBut w a (ctrSet x0 x1 x2 x3) := by
  refine SameBut.next ?_ hw h
  clear hw h
  unfold ctrSet
  repeat' first
    | with_reducible exact SameBut.refl _ _
    | with_reducible assumption
    | with_reducible refine SameBut.set_isr _ _ _ _ (by decide) ?_

theorem taskReady_keeps (w : List Part) (a : Core) (x0 : Core) (x1 : Nat) (x2 : Nat)
    (hw : [.isr, .de] ⊆ w) (h : SameBut w a x0) :
    SameBut w a (taskReady x0 x1 x2) := by
  refine SameBut.next ?_ hw h
  clear hw h
  unfold taskReady
  repeat' first
    | with_reducible exact SameBut.refl _ _
    | with_reducible assumption
    | with_reducible refine SameBut.ite _ _ _ _ _ (fun _ => ?_) (fun _ => ?_)
    | with_reducible refine modInst_keeps _ _ _ _ _ (by decide) ?_
    | with_reducible refine SameBut.set_de _ _ _ _ (by decide) ?_

theorem countDec_keeps (w : List Part) (a : Core) (x0 : Core) (x1 : Nat)
    (hw : [.rsCnts, .pmu] ⊆ w) (h : SameBut w a x0) :
    SameBut w a (countDec x0 x1) := by
  refine SameBut.next ?_ hw h
  clear hw h
  unfold countDec
  repeat' first
    | with_reducible exact SameBut.refl _ _
    | with_reducible assumption
    | with_reducible refine pmuEv_keeps _ _ _ _ _ _ (by decide) ?_
    | with_reducible refine cntAdd_keeps _ _ _ _ _ _ (by decide) ?_

theorem decCounter_keeps (w : List Part) (a : Core) (x0 : Core) (x1 : Nat) (x2 : Nat)
    (hw : [.rsCnts, .isr, .de, .pmu] ⊆ w) (h : SameBut w a x0) :
    SameBut w a (decCounter x0 x1 x2) := by
  refine SameBut.next ?_ hw h
  clear hw h
  unfold decCounter
  repeat' first
    | with_reducible exact SameBut.refl _ _
    | with_reducible assumption
    | (extract_lets +onlyGivenNames z; first | (refine SameBut.cut (x := z) ?_ (fun _ => ?_) <;> [(unfold z; clear z); clear_value z]) | clear_value z)
    | with_reducible refine SameBut.ite _ _ _ _ _ (fun _ => ?_) (fun _ => ?_)
    | with_reducible refine ctrSet_keeps _ _ _ _ _ _ (by decide) ?_
    | with_reducible refine taskReady_keeps _ _ _ _ _ (by decide) ?_
    | with_reducible refine countDec_keeps _ _ _ _ (by decide) ?_

theorem signalEdge_keeps (w : List Part) (a : Core) (x0 : Core) (x1 : Nat) (x2 : Nat) (x3 : Word)
    (hw : [.io, .rsRegs, .rsCnts, .rsPages, .fe, .queues, .ctxs, .sqs, .isr, .de, .lanes, .st, .mf, .cru, .sched, .tu, .shr, .strm, .pp, .pmu, .trc, .free] ⊆ w) (h : SameBut w a x0) :
    SameBut w a (signalEdge x0 x1 x2 x3) := by
  refine SameBut.next ?_ hw h
  clear hw h
  unfold signalEdge
  repeat' first
    | with_reducible exact SameBut.refl _ _
    | with_reducible assumption
    | (extract_lets +onlyGivenNames z; first | (refine SameBut.cut (x := z) ?_ (fun _ => ?_) <;> [(unfold z; clear z); clear_value z]) | clear_value z)
    | with_reducible refine SameBut.ite _ _ _ _ _ (fun _ => ?_) (fun _ => ?_)
    | with_reducible refine instFault_keeps _ _ _ _ _ _ _ (by decide) ?_
    | with_reducible refine stOffer_keeps _ _ _ _ (by decide) ?_
    | with_reducible refine patchUse_keeps _ _ _ _ (by decide) ?_
    | with_reducible refine linkOffer_keeps _ _ _ _ _ _ (by decide) ?_
    | with_reducible refine modInst_keeps _ _ _ _ _ (by decide) ?_
    | split

theorem walkEdges_keeps (w : List Part) (a : Core) (x0 : Nat) (x1 : Nat) (x2 : Nat) (x3 : Nat) (x4 : Nat) (x5 : Core)
    (hw : [.io, .rsRegs, .rsCnts, .rsPages, .fe, .queues, .ctxs, .sqs, .isr, .de, .lanes, .st, .mf, .cru, .sched, .tu, .shr, .strm, .pp, .pmu, .trc, .free] ⊆ w) (h : SameBut w a x5) :
    SameBut w a (walkEdges x0 x1 x2 x3 x4 x5) := by
  refine SameBut.next ?_ hw h
  clear hw h
  fun_induction walkEdges x0 x1 x2 x3 x4 x5
  all_goals repeat' first
    | with_reducible exact SameBut.refl _ _
    | with_reducible assumption
    | (with_reducible refine SameBut.trans ?_ (by assumption))
    | (extract_lets +onlyGivenNames z; first | (refine SameBut.cut (x := z) ?_ (fun _ => ?_) <;> [(unfold z; clear z); clear_value z]) | clear_value z)
    | with_reducible refine SameBut.ite _ _ _ _ _ (fun _ => ?_) (fun _ => ?_)
    | with_reducible refine patchFetch_keeps _ _ _ _ (by decide) ?_
    | with_reducible refine signalEdge_keeps _ _ _ _ _ _ (by decide) ?_
    | with_reducible refine decCounter_keeps _ _ _ _ _ (by decide) ?_
    | split
    | with_reducible refine SameBut.set_de _ _ _ _ (by decide) ?_

theorem walkTask_keeps (w : List Part) (a : Core) (x0 : Core) (x1 : Nat) (x2 : Nat) (x3 : Nat) (x4 : Nat)
    (hw : [.io, .rsRegs, .rsCnts, .rsPages, .fe, .queues, .ctxs, .sqs, .isr, .de, .lanes, .st, .mf, .cru, .sched, .tu, .shr, .strm, .pp, .pmu, .trc, .free] ⊆ w) (h : SameBut w a x0) :
    SameBut w a (walkTask x0 x1 x2 x3 x4) := by
  refine SameBut.next ?_ hw h
  clear hw h
  unfold walkTask
  repeat' first
    | with_reducible exact SameBut.refl _ _
    | with_reducible assumption
    | (extract_lets +onlyGivenNames z; first | (refine SameBut.cut (x := z) ?_ (fun _ => ?_) <;> [(unfold z; clear z); clear_value z]) | clear_value z)
    | with_reducible refine SameBut.ite _ _ _ _ _ (fun _ => ?_) (fun _ => ?_)
    | with_reducible refine progress_keeps _ _ _ _ (by decide) ?_
    | with_reducible refine walkEdges_keeps _ _ _ _ _ _ _ _ (by decide) ?_
    | with_reducible refine modInst_keeps _ _ _ _ _ (by decide) ?_

theorem taskDone_keeps (w : List Part) (a : Core) (x0 : Core) (x1 : Nat) (x2 : Nat)
    (hw : [.io, .rsRegs, .rsCnts, .rsPages, .fe, .queues, .ctxs, .sqs, .isr, .de, .lanes, .st, .mf, .cru, .sched, .tu, .shr, .strm, .pp, .pmu, .trc, .free] ⊆ w) (h : SameBut w a x0) :
    SameBut w a (taskDone x0 x1 x2) := by
  refine SameBut.next ?_ hw h
  clear hw h
  unfold taskDone
  repeat' first
    | with_reducible exact SameBut.refl _ _
    | with_reducible assumption
    | (extract_lets +onlyGivenNames z; first | (refine SameBut.cut (x := z) ?_ (fun _ => ?_) <;> [(unfold z; clear z); clear_value z]) | clear_value z)
    | with_reducible refine walkTask_keeps _ _ _ _ _ _ _ (by decide) ?_

theorem mixCopyDone_keeps (w : List Part) (a : Core) (x0 : Core) (x1 : Nat) (x2 : Nat) (x3 : List Word)
    (hw : [.isr] ⊆ w) (h : SameBut w a x0) :
    SameBut w a (mixCopyDone x0 x1 x2 x3) := by
  refine SameBut.next ?_ hw h
  clear hw h
  unfold mixCopyDone
  repeat' first
    | with_reducible exact SameBut.refl _ _
    | with_reducible assumption
    | (extract_lets +onlyGivenNames z; first | (refine SameBut.cut (x := z) ?_ (fun _ => ?_) <;> [(unfold z; clear z); clear_value z]) | clear_value z)
    | with_reducible refine SameBut.ite _ _ _ _ _ (fun _ => ?_) (fun _ => ?_)
    | with_reducible refine modInst_keeps _ _ _ _ _ (by decide) ?_

theorem takeCpl_keeps (w : List Part) (a : Core) (x0 : Core) (x1 : CplBeat)
    (hw : [.io, .rsRegs, .rsCnts, .rsPages, .qsc, .fe, .queues, .ctxs, .sqs, .isr, .de, .lanes, .st, .mf, .cru, .sched, .tu, .shr, .strm, .pp, .det, .pmu, .trc, .free] ⊆ w) (h : SameBut w a x0) :
    SameBut w a (takeCpl x0 x1) := by
  refine SameBut.next ?_ hw h
  clear hw h
  unfold takeCpl
  repeat' first
    | with_reducible exact SameBut.refl _ _
    | with_reducible assumption
    | (extract_lets +onlyGivenNames z; first | (refine SameBut.cut (x := z) ?_ (fun _ => ?_) <;> [(unfold z; clear z); clear_value z]) | clear_value z)
    | with_reducible refine SameBut.ite _ _ _ _ _ (fun _ => ?_) (fun _ => ?_)
    | with_reducible refine mixCopyDone_keeps _ _ _ _ _ _ (by decide) ?_
    | with_reducible refine pmuEv_keeps _ _ _ _ _ _ (by decide) ?_
    | with_reducible refine ctrSet_keeps _ _ _ _ _ _ (by decide) ?_
    | with_reducible refine cntAdd_keeps _ _ _ _ _ _ (by decide) ?_
    | with_reducible refine taskDone_keeps _ _ _ _ _ (by decide) ?_
    | with_reducible refine lsNote_keeps _ _ _ _ _ _ _ _ _ (by decide) ?_
    | with_reducible refine countDec_keeps _ _ _ _ (by decide) ?_

theorem takeHeld_keeps (w : List Part) (a : Core) (x0 : Nat) (x1 : Nat) (x2 : Core)
    (hw : [.io, .rsRegs, .rsCnts, .rsPages, .qsc, .fe, .queues, .ctxs, .sqs, .isr, .de, .lanes, .st, .mf, .cru, .sched, .tu, .shr, .strm, .pp, .det, .pmu, .trc, .free] ⊆ w) (h : SameBut w a x2) :
    SameBut w a (takeHeld x0 x1 x2) := by
  refine SameBut.next ?_ hw h
  clear hw h
  fun_induction takeHeld x0 x1 x2
  all_goals repeat' first
    | with_reducible exact SameBut.refl _ _
    | with_reducible assumption
    | (with_reducible refine SameBut.trans ?_ (by assumption))
    | with_reducible refine SameBut.ite _ _ _ _ _ (fun _ => ?_) (fun _ => ?_)
    | with_reducible refine takeCpl_keeps _ _ _ _ (by decide) ?_
    | with_reducible refine modInst_keeps _ _ _ _ _ (by decide) ?_
    | split

theorem acceptCpl_keeps (w : List Part) (a : Core) (x0 : Core) (x1 : CplBeat)
    (hw : [.io, .rsRegs, .rsCnts, .rsPages, .qsc, .fe, .queues, .ctxs, .sqs, .isr, .de, .lanes, .st, .mf, .cru, .sched, .tu, .shr, .strm, .pp, .det, .pmu, .trc, .free] ⊆ w) (h : SameBut w a x0) :
    SameBut w a (acceptCpl x0 x1) := by
  refine SameBut.next ?_ hw h
  clear hw h
  unfold acceptCpl
  repeat' first
    | with_reducible exact SameBut.refl _ _
    | with_reducible assumption
    | (extract_lets +onlyGivenNames z; first | (refine SameBut.cut (x := z) ?_ (fun _ => ?_) <;> [(unfold z; clear z); clear_value z]) | clear_value z)
    | with_reducible refine SameBut.ite _ _ _ _ _ (fun _ => ?_) (fun _ => ?_)
    | with_reducible refine takeCpl_keeps _ _ _ _ (by decide) ?_
    | with_reducible refine modInst_keeps _ _ _ _ _ (by decide) ?_

theorem resumeWalks_keeps (w : List Part) (a : Core) (x0 : Core) (x1 : Nat)
    (hw : [.io, .rsRegs, .rsCnts, .rsPages, .qsc, .fe, .queues, .ctxs, .sqs, .isr, .de, .lanes, .st, .mf, .cru, .sched, .tu, .shr, .strm, .pp, .det, .pmu, .trc, .free] ⊆ w) (h : SameBut w a x0) :
    SameBut w a (resumeWalks x0 x1) := by
  refine SameBut.next ?_ hw h
  clear hw h
  unfold resumeWalks
  repeat' first
    | with_reducible exact SameBut.refl _ _
    | with_reducible assumption
    | (extract_lets +onlyGivenNames z; first | (refine SameBut.cut (x := z) ?_ (fun _ => ?_) <;> [(unfold z; clear z); clear_value z]) | clear_value z)
    | with_reducible refine walkTask_keeps _ _ _ _ _ _ _ (by decide) ?_
    | with_reducible refine takeHeld_keeps _ _ _ _ _ (by decide) ?_
    | with_reducible refine SameBut.fold _ _ _ _ _ (fun _ _ => ?_) ?_
    | with_reducible refine SameBut.set_de _ _ _ _ (by decide) ?_

theorem nullCane_keeps (w : List Part) (a : Core) (x0 : Core) (x1 : Nat) (x2 : Nat)
    (hw : [.io, .rsRegs, .rsCnts, .rsPages, .qsc, .fe, .queues, .ctxs, .sqs, .isr, .de, .lanes, .st, .mf, .cru, .sched, .tu, .shr, .strm, .pp, .det, .pmu, .trc, .free] ⊆ w) (h : SameBut w a x0) :
    SameBut w a (nullCane x0 x1 x2) := by
  refine SameBut.next ?_ hw h
  clear hw h
  unfold nullCane
  repeat' first
    | with_reducible exact SameBut.refl _ _
    | with_reducible assumption
    | (extract_lets +onlyGivenNames z; first | (refine SameBut.cut (x := z) ?_ (fun _ => ?_) <;> [(unfold z; clear z); clear_value z]) | clear_value z)
    | with_reducible refine SameBut.ite _ _ _ _ _ (fun _ => ?_) (fun _ => ?_)
    | with_reducible refine pmuEv_keeps _ _ _ _ _ _ (by decide) ?_
    | with_reducible refine cntAdd_keeps _ _ _ _ _ _ (by decide) ?_
    | with_reducible refine taskDone_keeps _ _ _ _ _ (by decide) ?_
    | with_reducible refine lsNote_keeps _ _ _ _ _ _ _ _ _ (by decide) ?_

theorem putReady_keeps (w : List Part) (a : Core) (x0 : Core) (x1 : Nat) (x2 : Ready)
    (hw : [.rsCnts, .de, .lanes, .sched, .pmu] ⊆ w) (h : SameBut w a x0) :
    SameBut w a (putReady x0 x1 x2) := by
  refine SameBut.next ?_ hw h
  clear hw h
  unfold putReady
  repeat' first
    | with_reducible exact SameBut.refl _ _
    | with_reducible assumption
    | (extract_lets +onlyGivenNames z; first | (refine SameBut.cut (x := z) ?_ (fun _ => ?_) <;> [(unfold z; clear z); clear_value z]) | clear_value z)
    | with_reducible refine pmuEv_keeps _ _ _ _ _ _ (by decide) ?_
    | with_reducible refine modLane_keeps _ _ _ _ _ (by decide) ?_
    | with_reducible refine cntAdd_keeps _ _ _ _ _ _ (by decide) ?_
    | with_reducible refine modSched_keeps _ _ _ _ _ (by decide) ?_
    | with_reducible refine SameBut.set_de _ _ _ _ (by decide) ?_

end Sys2Proof.Machine
end

