-- ==== Sys2Proof/Laws/Crucible.lean ====
section
/-! SUPPORT. What the operations of Crucible.lean leave as it was. -/

set_option linter.unusedTactic false
set_option linter.unreachableTactic false
set_option linter.tactic.unusedName false

namespace Sys2Proof.Machine

theorem cqFault_keeps (w : List Part) (a : Core) (x0 : Core) (x1 : Nat) (x2 : Nat) (x3 : Nat)
    (hw : [.io, .rsRegs, .rsCnts, .rsPages, .fe, .queues, .ctxs, .sqs, .isr, .de, .lanes, .st, .mf, .cru, .sched, .tu, .shr, .strm, .pp, .pmu, .trc, .free] ⊆ w) (h : SameBut w a x0) :
    SameBut w a (cqFault x0 x1 x2 x3) := by
  refine SameBut.next ?_ hw h
  clear hw h
  unfold cqFault
  repeat' first
    | with_reducible exact SameBut.refl _ _
    | with_reducible assumption
    | (extract_lets +onlyGivenNames z; first | (refine SameBut.cut (x := z) ?_ (fun _ => ?_) <;> [(unfold z; clear z); clear_value z]) | clear_value z)
    | with_reducible refine SameBut.ite _ _ _ _ _ (fun _ => ?_) (fun _ => ?_)
    | with_reducible refine instFault_keeps _ _ _ _ _ _ _ (by decide) ?_
    | with_reducible refine irqSet_keeps _ _ _ _ _ (by decide) ?_

theorem cqOpen_keeps (w : List Part) (a : Core) (x0 : Core) (x1 : Nat) (x2 : Nat) (x3 : Nat) (x4 : Nat)
    (hw : [.cru] ⊆ w) (h : SameBut w a x0) :
    SameBut w a (cqOpen x0 x1 x2 x3 x4) := by
  refine SameBut.next ?_ hw h
  clear hw h
  unfold cqOpen
  repeat' first
    | with_reducible exact SameBut.refl _ _
    | with_reducible assumption
    | (extract_lets +onlyGivenNames z; first | (refine SameBut.cut (x := z) ?_ (fun _ => ?_) <;> [(unfold z; clear z); clear_value z]) | clear_value z)
    | with_reducible refine modCq_keeps _ _ _ _ _ (by decide) ?_

theorem cqRead_keeps (w : List Part) (a : Core) (x0 : Core) (x1 : Nat) (x2 : Nat)
    (hw : [.io, .isr, .pmu] ⊆ w) (h : SameBut w a x0) :
    SameBut w a (cqRead x0 x1 x2) := by
  refine SameBut.next ?_ hw h
  clear hw h
  unfold cqRead
  repeat' first
    | with_reducible exact SameBut.refl _ _
    | with_reducible assumption
    | (extract_lets +onlyGivenNames z; first | (refine SameBut.cut (x := z) ?_ (fun _ => ?_) <;> [(unfold z; clear z); clear_value z]) | clear_value z)
    | with_reducible refine patchUse_keeps _ _ _ _ (by decide) ?_
    | with_reducible refine mpRead_keeps _ _ _ _ _ _ _ (by decide) ?_

theorem cqBack_keeps (w : List Part) (a : Core) (x0 : Nat) (x1 : Tbl ℤ) (x2 : List Nat) (x3 : Core)
    (hw : [.rsCnts, .free] ⊆ w) (h : SameBut w a x3) :
    SameBut w a (cqBack x0 x1 x2 x3).2 := by
  refine SameBut.next ?_ hw h
  clear hw h
  fun_induction cqBack x0 x1 x2 x3
  all_goals repeat' first
    | with_reducible exact SameBut.refl _ _
    | with_reducible assumption
    | (with_reducible refine SameBut.trans ?_ (by assumption))
    | (extract_lets +onlyGivenNames z; first | (refine SameBut.cut (x := z) ?_ (fun _ => ?_) <;> [(unfold z; clear z); clear_value z]) | clear_value z)
    | with_reducible refine SameBut.ite _ _ _ _ _ (fun _ => ?_) (fun _ => ?_)
    | with_reducible refine cntAdd_keeps _ _ _ _ _ _ (by decide) ?_
    | with_reducible refine freeNat_keeps _ _ _ (by decide) ?_
    | with_reducible refine freeNat_keeps_eq _ _ _ _ _ ‹_› (by decide) ?_
    | split

theorem cqBack_keeps_eq (w : List Part) (a : Core) (x0 : Nat) (x1 : Tbl ℤ) (x2 : List Nat) (x3 : Core)
    (y d) (e : cqBack x0 x1 x2 x3 = (y, d)) (hw : [.rsCnts, .free] ⊆ w) (h : SameBut w a x3) :
    SameBut w a d := by
  have := cqBack_keeps w a x0 x1 x2 x3 hw h
  rw [e] at this
  exact this

theorem freeNats_keeps (w : List Part) (a : Core) (x0 : Nat) (x1 : Core)
    (hw : [.free] ⊆ w) (h : SameBut w a x1) :
    SameBut w a (freeNats x0 x1).2 := by
  refine SameBut.next ?_ hw h
  clear hw h
  fun_induction freeNats x0 x1
  all_goals repeat' first
    | with_reducible exact SameBut.refl _ _
    | with_reducible assumption
    | (with_reducible refine SameBut.trans ?_ (by assumption))
    | (extract_lets +onlyGivenNames z; first | (refine SameBut.cut (x := z) ?_ (fun _ => ?_) <;> [(unfold z; clear z); clear_value z]) | clear_value z)
    | with_reducible refine freeNat_keeps _ _ _ (by decide) ?_
    | with_reducible refine freeNat_keeps_eq _ _ _ _ _ ‹_› (by decide) ?_
    | split

theorem freeNats_keeps_eq (w : List Part) (a : Core) (x0 : Nat) (x1 : Core)
    (y d) (e : freeNats x0 x1 = (y, d)) (hw : [.free] ⊆ w) (h : SameBut w a x1) :
    SameBut w a d := by
  have := freeNats_keeps w a x0 x1 hw h
  rw [e] at this
  exact this

theorem cqSum_keeps (w : List Part) (a : Core) (x0 : Core) (x1 : Cq)
    (hw : [.rsCnts, .free] ⊆ w) (h : SameBut w a x0) :
    SameBut w a (cqSum x0 x1).2 := by
  refine SameBut.next ?_ hw h
  clear hw h
  unfold cqSum
  repeat' first
    | with_reducible exact SameBut.refl _ _
    | with_reducible assumption
    | (extract_lets +onlyGivenNames z; first | (refine SameBut.cut (x := z) ?_ (fun _ => ?_) <;> [(unfold z; clear z); clear_value z]) | (refine SameBut.cut (x := z.2) ?_ (fun _ => ?_) <;> [(unfold z; clear z); clear_value z]) | (refine SameBut.cut (x := z.1) ?_ (fun _ => ?_) <;> [(unfold z; clear z); clear_value z]) | clear_value z)
    | with_reducible refine SameBut.ite _ _ _ _ _ (fun _ => ?_) (fun _ => ?_)
    | with_reducible refine cqBack_keeps _ _ _ _ _ _ (by decide) ?_
    | with_reducible refine freeNats_keeps _ _ _ _ (by decide) ?_
    | with_reducible refine cqBack_keeps_eq _ _ _ _ _ _ _ _ ‹_› (by decide) ?_
    | with_reducible refine freeNats_keeps_eq _ _ _ _ _ _ ‹_› (by decide) ?_
    | split

theorem cqSum_keeps_eq (w : List Part) (a : Core) (x0 : Core) (x1 : Cq)
    (y d) (e : cqSum x0 x1 = (y, d)) (hw : [.rsCnts, .free] ⊆ w) (h : SameBut w a x0) :
    SameBut w a d := by
  have := cqSum_keeps w a x0 x1 hw h
  rw [e] at this
  exact this

theorem cqWriteSum_keeps (w : List Part) (a : Core) (x0 : Core) (x1 : Nat)
    (hw : [.io, .rsRegs, .rsCnts, .rsPages, .fe, .queues, .ctxs, .sqs, .isr, .de, .lanes, .st, .mf, .cru, .sched, .tu, .shr, .strm, .pp, .pmu, .trc, .free] ⊆ w) (h : SameBut w a x0) :
    SameBut w a (cqWriteSum x0 x1) := by
  refine SameBut.next ?_ hw h
  clear hw h
  unfold cqWriteSum
  repeat' first
    | with_reducible exact SameBut.refl _ _
    | with_reducible assumption
    | (extract_lets +onlyGivenNames z; first | (refine SameBut.cut (x := z) ?_ (fun _ => ?_) <;> [(unfold z; clear z); clear_value z]) | (refine SameBut.cut (x := z.2) ?_ (fun _ => ?_) <;> [(unfold z; clear z); clear_value z]) | (refine SameBut.cut (x := z.1) ?_ (fun _ => ?_) <;> [(unfold z; clear z); clear_value z]) | clear_value z)
    | with_reducible refine SameBut.ite _ _ _ _ _ (fun _ => ?_) (fun _ => ?_)
    | with_reducible refine patchUse_keeps _ _ _ _ (by decide) ?_
    | with_reducible refine cqFault_keeps _ _ _ _ _ _ (by decide) ?_
    | with_reducible refine modCq_keeps _ _ _ _ _ (by decide) ?_
    | with_reducible refine mpWrite_keeps _ _ _ _ _ _ _ (by decide) ?_
    | with_reducible refine cqSum_keeps _ _ _ _ (by decide) ?_
    | with_reducible refine cqSum_keeps_eq _ _ _ _ _ _ ‹_› (by decide) ?_
    | with_reducible refine SameBut.set_st _ _ _ _ (by decide) ?_

theorem cqReadAll_keeps (w : List Part) (a : Core) (x0 : Core) (x1 : Nat)
    (hw : [.io, .rsRegs, .rsCnts, .rsPages, .fe, .queues, .ctxs, .sqs, .isr, .de, .lanes, .st, .mf, .cru, .sched, .tu, .shr, .strm, .pp, .pmu, .trc, .free] ⊆ w) (h : SameBut w a x0) :
    SameBut w a (cqReadAll x0 x1) := by
  refine SameBut.next ?_ hw h
  clear hw h
  unfold cqReadAll
  repeat' first
    | with_reducible exact SameBut.refl _ _
    | with_reducible assumption
    | (extract_lets +onlyGivenNames z; first | (refine SameBut.cut (x := z) ?_ (fun _ => ?_) <;> [(unfold z; clear z); clear_value z]) | clear_value z)
    | with_reducible refine SameBut.ite _ _ _ _ _ (fun _ => ?_) (fun _ => ?_)
    | with_reducible refine cqFault_keeps _ _ _ _ _ _ (by decide) ?_
    | with_reducible refine cqRead_keeps _ _ _ _ _ (by decide) ?_
    | with_reducible refine modCq_keeps _ _ _ _ _ (by decide) ?_
    | with_reducible refine SameBut.fold _ _ _ _ _ (fun _ _ => ?_) ?_

theorem cqDue_keeps (w : List Part) (a : Core) (x0 : Core) (x1 : Nat)
    (hw : [.io, .rsRegs, .rsCnts, .rsPages, .fe, .queues, .ctxs, .sqs, .isr, .de, .lanes, .st, .mf, .cru, .sched, .tu, .shr, .strm, .pp, .pmu, .trc, .free] ⊆ w) (h : SameBut w a x0) :
    SameBut w a (cqDue x0 x1) := by
  refine SameBut.next ?_ hw h
  clear hw h
  unfold cqDue
  repeat' first
    | with_reducible exact SameBut.refl _ _
    | with_reducible assumption
    | (extract_lets +onlyGivenNames z; first | (refine SameBut.cut (x := z) ?_ (fun _ => ?_) <;> [(unfold z; clear z); clear_value z]) | (refine SameBut.cut (x := z.2) ?_ (fun _ => ?_) <;> [(unfold z; clear z); clear_value z]) | (refine SameBut.cut (x := z.1) ?_ (fun _ => ?_) <;> [(unfold z; clear z); clear_value z]) | clear_value z)
    | with_reducible refine SameBut.ite _ _ _ _ _ (fun _ => ?_) (fun _ => ?_)
    | with_reducible refine cqWriteSum_keeps _ _ _ _ (by decide) ?_
    | with_reducible refine patchFetch_keeps _ _ _ _ (by decide) ?_
    | with_reducible refine cqReadAll_keeps _ _ _ _ (by decide) ?_
    | split

theorem cqCounted_keeps (w : List Part) (a : Core) (x0 : Core) (x1 : Nat) (x2 : CplBeat)
    (hw : [.io, .rsRegs, .rsCnts, .rsPages, .qsc, .fe, .queues, .ctxs, .sqs, .isr, .de, .lanes, .st, .mf, .cru, .sched, .tu, .shr, .strm, .pp, .det, .pmu, .trc, .free] ⊆ w) (h : SameBut w a x0) :
    SameBut w a (cqCounted x0 x1 x2) := by
  refine SameBut.next ?_ hw h
  clear hw h
  unfold cqCounted
  repeat' first
    | with_reducible exact SameBut.refl _ _
    | with_reducible assumption
    | (extract_lets +onlyGivenNames z; first | (refine SameBut.cut (x := z) ?_ (fun _ => ?_) <;> [(unfold z; clear z); clear_value z]) | clear_value z)
    | with_reducible refine SameBut.ite _ _ _ _ _ (fun _ => ?_) (fun _ => ?_)
    | with_reducible refine modCq_keeps _ _ _ _ _ (by decide) ?_
    | with_reducible refine acceptCpl_keeps _ _ _ _ (by decide) ?_

theorem cqEnter_keeps (w : List Part) (a : Core) (x0 : Core) (x1 : Nat) (x2 : CplBeat)
    (hw : [.io, .rsRegs, .rsCnts, .rsPages, .qsc, .fe, .queues, .ctxs, .sqs, .isr, .de, .lanes, .st, .mf, .cru, .sched, .tu, .shr, .strm, .pp, .det, .pmu, .trc, .free] ⊆ w) (h : SameBut w a x0) :
    SameBut w a (cqEnter x0 x1 x2) := by
  refine SameBut.next ?_ hw h
  clear hw h
  unfold cqEnter
  repeat' first
    | with_reducible exact SameBut.refl _ _
    | with_reducible assumption
    | (extract_lets +onlyGivenNames z; first | (refine SameBut.cut (x := z) ?_ (fun _ => ?_) <;> [(unfold z; clear z); clear_value z]) | clear_value z)
    | with_reducible refine SameBut.ite _ _ _ _ _ (fun _ => ?_) (fun _ => ?_)
    | with_reducible refine cqFault_keeps _ _ _ _ _ _ (by decide) ?_
    | with_reducible refine cqRead_keeps _ _ _ _ _ (by decide) ?_
    | with_reducible refine cntAdd_keeps _ _ _ _ _ _ (by decide) ?_
    | with_reducible refine modCq_keeps _ _ _ _ _ (by decide) ?_
    | with_reducible refine cqCounted_keeps _ _ _ _ _ (by decide) ?_

theorem cqNext_keeps (w : List Part) (a : Core) (x0 : Core) (x1 : Nat) (d : Core)
    (e : cqNext x0 x1 = some d) (hw : [.io, .rsRegs, .rsCnts, .rsPages, .qsc, .fe, .queues, .ctxs, .sqs, .isr, .de, .lanes, .st, .mf, .cru, .sched, .tu, .shr, .strm, .pp, .det, .pmu, .trc, .free] ⊆ w) (h : SameBut w a x0) :
    SameBut w a d := by
  refine SameBut.next ?_ hw h
  clear hw h
  unfold cqNext at e
  repeat' first
    | (cases e)
    | with_reducible exact SameBut.refl _ _
    | with_reducible assumption
    | (extract_lets +onlyGivenNames z; first | (refine SameBut.cut (x := z) ?_ (fun _ => ?_) <;> [(unfold z; clear z); clear_value z]) | clear_value z)
    | with_reducible refine SameBut.ite _ _ _ _ _ (fun _ => ?_) (fun _ => ?_)
    | with_reducible refine modCq_keeps _ _ _ _ _ (by decide) ?_
    | with_reducible refine cqOpen_keeps _ _ _ _ _ _ _ (by decide) ?_
    | with_reducible refine cqEnter_keeps _ _ _ _ _ (by decide) ?_
    | split
    | (injection e with e; subst e)
    | dsimp only at e
    | split at e

theorem cqPumpN_keeps (w : List Part) (a : Core) (x0 : Nat) (x1 : Nat) (x2 : Core)
    (hw : [.io, .rsRegs, .rsCnts, .rsPages, .qsc, .fe, .queues, .ctxs, .sqs, .isr, .de, .lanes, .st, .mf, .cru, .sched, .tu, .shr, .strm, .pp, .det, .pmu, .trc, .free] ⊆ w) (h : SameBut w a x2) :
    SameBut w a (cqPumpN x0 x1 x2) := by
  refine SameBut.next ?_ hw h
  clear hw h
  fun_induction cqPumpN x0 x1 x2
  all_goals repeat' first
    | with_reducible exact SameBut.refl _ _
    | with_reducible assumption
    | (with_reducible refine SameBut.trans ?_ (by assumption))
    | with_reducible refine cqDue_keeps _ _ _ _ (by decide) ?_
    | with_reducible refine cqNext_keeps _ _ _ _ _ ‹_› (by decide) ?_
    | split

theorem cqPump_keeps (w : List Part) (a : Core) (x0 : Core) (x1 : Nat)
    (hw : [.io, .rsRegs, .rsCnts, .rsPages, .qsc, .fe, .queues, .ctxs, .sqs, .isr, .de, .lanes, .st, .mf, .cru, .sched, .tu, .shr, .strm, .pp, .det, .pmu, .trc, .free] ⊆ w) (h : SameBut w a x0) :
    SameBut w a (cqPump x0 x1) := by
  refine SameBut.next ?_ hw h
  clear hw h
  unfold cqPump
  repeat' first
    | with_reducible exact SameBut.refl _ _
    | with_reducible assumption
    | (extract_lets +onlyGivenNames z; first | (refine SameBut.cut (x := z) ?_ (fun _ => ?_) <;> [(unfold z; clear z); clear_value z]) | clear_value z)
    | with_reducible refine SameBut.ite _ _ _ _ _ (fun _ => ?_) (fun _ => ?_)
    | with_reducible refine patchFetch_keeps _ _ _ _ (by decide) ?_
    | with_reducible refine cqPumpN_keeps _ _ _ _ _ (by decide) ?_
    | split

theorem cruResume_keeps (w : List Part) (a : Core) (x0 : Core) (x1 : Nat → Bool)
    (hw : [.io, .rsRegs, .rsCnts, .rsPages, .qsc, .fe, .queues, .ctxs, .sqs, .isr, .de, .lanes, .st, .mf, .cru, .sched, .tu, .shr, .strm, .pp, .det, .pmu, .trc, .free] ⊆ w) (h : SameBut w a x0) :
    SameBut w a (cruResume x0 x1) := by
  refine SameBut.next ?_ hw h
  clear hw h
  unfold cruResume
  repeat' first
    | with_reducible exact SameBut.refl _ _
    | with_reducible assumption
    | with_reducible refine cqPump_keeps _ _ _ _ (by decide) ?_
    | with_reducible refine SameBut.fold _ _ _ _ _ (fun _ _ => ?_) ?_
    | split

theorem cruTake_keeps (w : List Part) (a : Core) (x0 : Core) (x1 : CplBeat)
    (hw : [.io, .rsRegs, .rsCnts, .rsPages, .qsc, .fe, .queues, .ctxs, .sqs, .isr, .de, .lanes, .st, .mf, .cru, .sched, .tu, .shr, .strm, .pp, .det, .pmu, .trc, .free] ⊆ w) (h : SameBut w a x0) :
    SameBut w a (cruTake x0 x1) := by
  refine SameBut.next ?_ hw h
  clear hw h
  unfold cruTake
  repeat' first
    | with_reducible exact SameBut.refl _ _
    | with_reducible assumption
    | (extract_lets +onlyGivenNames z; first | (refine SameBut.cut (x := z) ?_ (fun _ => ?_) <;> [(unfold z; clear z); clear_value z]) | clear_value z)
    | with_reducible refine SameBut.ite _ _ _ _ _ (fun _ => ?_) (fun _ => ?_)
    | with_reducible refine cqFault_keeps _ _ _ _ _ _ (by decide) ?_
    | with_reducible refine modCq_keeps _ _ _ _ _ (by decide) ?_
    | with_reducible refine acceptCpl_keeps _ _ _ _ (by decide) ?_
    | with_reducible refine cqPump_keeps _ _ _ _ (by decide) ?_
    | split

theorem cruCane_keeps (w : List Part) (a : Core) (x0 : Core) (x1 : Nat) (x2 : Nat) (x3 : Nat)
    (hw : [.io, .rsRegs, .rsCnts, .rsPages, .fe, .queues, .ctxs, .sqs, .isr, .de, .lanes, .st, .mf, .cru, .sched, .tu, .shr, .strm, .pp, .pmu, .trc, .free] ⊆ w) (h : SameBut w a x0) :
    SameBut w a (cruCane x0 x1 x2 x3).1 := by
  refine SameBut.next ?_ hw h
  clear hw h
  unfold cruCane
  repeat' first
    | with_reducible exact SameBut.refl _ _
    | with_reducible assumption
    | (extract_lets +onlyGivenNames z; first | (refine SameBut.cut (x := z) ?_ (fun _ => ?_) <;> [(unfold z; clear z); clear_value z]) | clear_value z)
    | with_reducible refine SameBut.ite _ _ _ _ _ (fun _ => ?_) (fun _ => ?_)
    | with_reducible refine cqDue_keeps _ _ _ _ (by decide) ?_
    | with_reducible refine cqFault_keeps _ _ _ _ _ _ (by decide) ?_
    | with_reducible refine modCq_keeps _ _ _ _ _ (by decide) ?_
    | with_reducible refine cqOpen_keeps _ _ _ _ _ _ _ (by decide) ?_
    | split

theorem cruCane_keeps_eq (w : List Part) (a : Core) (x0 : Core) (x1 : Nat) (x2 : Nat) (x3 : Nat)
    (y d) (e : cruCane x0 x1 x2 x3 = (d, y)) (hw : [.io, .rsRegs, .rsCnts, .rsPages, .fe, .queues, .ctxs, .sqs, .isr, .de, .lanes, .st, .mf, .cru, .sched, .tu, .shr, .strm, .pp, .pmu, .trc, .free] ⊆ w) (h : SameBut w a x0) :
    SameBut w a d := by
  have := cruCane_keeps w a x0 x1 x2 x3 hw h
  rw [e] at this
  exact this

theorem cqAdd_keeps (w : List Part) (a : Core) (x0 : Core) (x1 : Nat) (x2 : List Word)
    (hw : [.rsCnts, .cru, .pmu] ⊆ w) (h : SameBut w a x0) :
    SameBut w a (cqAdd x0 x1 x2) := by
  refine SameBut.next ?_ hw h
  clear hw h
  unfold cqAdd
  repeat' first
    | with_reducible exact SameBut.refl _ _
    | with_reducible assumption
    | (extract_lets +onlyGivenNames z; first | (refine SameBut.cut (x := z) ?_ (fun _ => ?_) <;> [(unfold z; clear z); clear_value z]) | clear_value z)
    | with_reducible refine pmuEv_keeps _ _ _ _ _ _ (by decide) ?_
    | with_reducible refine cntAdd_keeps _ _ _ _ _ _ (by decide) ?_
    | with_reducible refine modCq_keeps _ _ _ _ _ (by decide) ?_
    | with_reducible refine SameBut.fold _ _ _ _ _ (fun _ _ => ?_) ?_

theorem cqDrain_keeps (w : List Part) (a : Core) (x0 : Nat) (x1 : Nat) (x2 : Core)
    (hw : [.rsCnts, .cru, .pmu] ⊆ w) (h : SameBut w a x2) :
    SameBut w a (cqDrain x0 x1 x2) := by
  refine SameBut.next ?_ hw h
  clear hw h
  fun_induction cqDrain x0 x1 x2
  all_goals repeat' first
    | with_reducible exact SameBut.refl _ _
    | with_reducible assumption
    | (with_reducible refine SameBut.trans ?_ (by assumption))
    | (extract_lets +onlyGivenNames z; first | (refine SameBut.cut (x := z) ?_ (fun _ => ?_) <;> [(unfold z; clear z); clear_value z]) | clear_value z)
    | with_reducible refine modCq_keeps _ _ _ _ _ (by decide) ?_
    | with_reducible refine cqAdd_keeps _ _ _ _ _ (by decide) ?_
    | split

theorem cqData_keeps (w : List Part) (a : Core) (x0 : Core) (x1 : Nat) (x2 : Nat) (x3 : QStatus) (x4 : List Word)
    (hw : [.io, .rsRegs, .rsCnts, .rsPages, .qsc, .fe, .queues, .ctxs, .sqs, .isr, .de, .lanes, .st, .mf, .cru, .sched, .tu, .shr, .strm, .pp, .det, .pmu, .trc, .free] ⊆ w) (h : SameBut w a x0) :
    SameBut w a (cqData x0 x1 x2 x3 x4) := by
  refine SameBut.next ?_ hw h
  clear hw h
  unfold cqData
  repeat' first
    | with_reducible exact SameBut.refl _ _
    | with_reducible assumption
    | (extract_lets +onlyGivenNames z; first | (refine SameBut.cut (x := z) ?_ (fun _ => ?_) <;> [(unfold z; clear z); clear_value z]) | clear_value z)
    | with_reducible refine SameBut.ite _ _ _ _ _ (fun _ => ?_) (fun _ => ?_)
    | with_reducible refine cqDue_keeps _ _ _ _ (by decide) ?_
    | with_reducible refine cqFault_keeps _ _ _ _ _ _ (by decide) ?_
    | with_reducible refine modCq_keeps _ _ _ _ _ (by decide) ?_
    | with_reducible refine cqCounted_keeps _ _ _ _ _ (by decide) ?_
    | with_reducible refine cqAdd_keeps _ _ _ _ _ (by decide) ?_
    | with_reducible refine cqDrain_keeps _ _ _ _ _ (by decide) ?_
    | with_reducible refine cqPump_keeps _ _ _ _ (by decide) ?_
    | split

theorem cqFinish_keeps (w : List Part) (a : Core) (x0 : Core) (x1 : Nat)
    (hw : [.io, .rsRegs, .rsCnts, .rsPages, .qsc, .fe, .queues, .ctxs, .sqs, .isr, .de, .lanes, .st, .mf, .cru, .sched, .tu, .shr, .strm, .pp, .det, .pmu, .trc, .free] ⊆ w) (h : SameBut w a x0) :
    SameBut w a (cqFinish x0 x1) := by
  refine SameBut.next ?_ hw h
  clear hw h
  unfold cqFinish
  repeat' first
    | with_reducible exact SameBut.refl _ _
    | with_reducible assumption
    | (extract_lets +onlyGivenNames z; first | (refine SameBut.cut (x := z) ?_ (fun _ => ?_) <;> [(unfold z; clear z); clear_value z]) | clear_value z)
    | with_reducible refine SameBut.ite _ _ _ _ _ (fun _ => ?_) (fun _ => ?_)
    | with_reducible refine modCq_keeps _ _ _ _ _ (by decide) ?_
    | with_reducible refine nullCane_keeps _ _ _ _ _ (by decide) ?_
    | with_reducible refine acceptCpl_keeps _ _ _ _ (by decide) ?_
    | with_reducible refine cqPump_keeps _ _ _ _ (by decide) ?_
    | split
    | with_reducible refine SameBut.set_st _ _ _ _ (by decide) ?_

theorem cqWalk_keeps (w : List Part) (a : Core) (x0 : Core) (x1 : Nat)
    (hw : [.io, .rsRegs, .rsCnts, .rsPages, .qsc, .fe, .queues, .ctxs, .sqs, .isr, .de, .lanes, .st, .mf, .cru, .sched, .tu, .shr, .strm, .pp, .det, .pmu, .trc, .free] ⊆ w) (h : SameBut w a x0) :
    SameBut w a (cqWalk x0 x1) := by
  refine SameBut.next ?_ hw h
  clear hw h
  unfold cqWalk
  repeat' first
    | with_reducible exact SameBut.refl _ _
    | with_reducible assumption
    | (extract_lets +onlyGivenNames z; first | (refine SameBut.cut (x := z) ?_ (fun _ => ?_) <;> [(unfold z; clear z); clear_value z]) | clear_value z)
    | with_reducible refine SameBut.ite _ _ _ _ _ (fun _ => ?_) (fun _ => ?_)
    | with_reducible refine cqFinish_keeps _ _ _ _ (by decide) ?_

theorem cqSignal_keeps (w : List Part) (a : Core) (x0 : Core) (x1 : Nat)
    (hw : [.io, .rsRegs, .rsCnts, .rsPages, .qsc, .fe, .queues, .ctxs, .sqs, .isr, .de, .lanes, .st, .mf, .cru, .sched, .tu, .shr, .strm, .pp, .det, .pmu, .trc, .free] ⊆ w) (h : SameBut w a x0) :
    SameBut w a (cqSignal x0 x1) := by
  refine SameBut.next ?_ hw h
  clear hw h
  unfold cqSignal
  repeat' first
    | with_reducible exact SameBut.refl _ _
    | with_reducible assumption
    | (extract_lets +onlyGivenNames z; first | (refine SameBut.cut (x := z) ?_ (fun _ => ?_) <;> [(unfold z; clear z); clear_value z]) | clear_value z)
    | with_reducible refine SameBut.ite _ _ _ _ _ (fun _ => ?_) (fun _ => ?_)
    | with_reducible refine stOffer_keeps _ _ _ _ (by decide) ?_
    | with_reducible refine cqFault_keeps _ _ _ _ _ _ (by decide) ?_
    | with_reducible refine cntAdd_keeps _ _ _ _ _ _ (by decide) ?_
    | with_reducible refine modCq_keeps _ _ _ _ _ (by decide) ?_
    | with_reducible refine cqWalk_keeps _ _ _ _ (by decide) ?_

theorem writeCqCtrl_keeps (w : List Part) (a : Core) (x0 : Core) (x1 : Reg)
    (hw : [.rsPages, .cru] ⊆ w) (h : SameBut w a x0) :
    SameBut w a (writeCqCtrl x0 x1) := by
  refine SameBut.next ?_ hw h
  clear hw h
  unfold writeCqCtrl
  repeat' first
    | with_reducible exact SameBut.refl _ _
    | with_reducible assumption
    | (extract_lets +onlyGivenNames z; first | (refine SameBut.cut (x := z) ?_ (fun _ => ?_) <;> [(unfold z; clear z); clear_value z]) | clear_value z)
    | with_reducible refine SameBut.ite _ _ _ _ _ (fun _ => ?_) (fun _ => ?_)
    | with_reducible refine pageErr_keeps _ _ _ _ _ _ _ (by decide) ?_
    | with_reducible refine modCq_keeps _ _ _ _ _ (by decide) ?_
    | split
    | with_reducible refine SameBut.set_cru _ _ _ _ (by decide) ?_

end Sys2Proof.Machine
end

