-- ==== Sys2Proof/Laws/Handoff.lean ====
section
/-! SUPPORT. What the operations of Handoff.lean leave as it was. -/

set_option linter.unusedTactic false
set_option linter.unreachableTactic false
set_option linter.tactic.unusedName false

namespace Sys2Proof.Machine

theorem takeCane_keeps (w : List Part) (a : Core) (x0 : Core) (x1 : Nat) (x2 : Nat)
    (hw : [.io, .rsRegs, .rsCnts, .rsPages, .qsc, .fe, .queues, .ctxs, .sqs, .isr, .de, .lanes, .st, .mf, .cru, .sched, .tu, .shr, .strm, .pp, .det, .pmu, .trc, .free] ⊆ w) (h : SameBut w a x0) :
    SameBut w a (takeCane x0 x1 x2) := by
  refine SameBut.next ?_ hw h
  clear hw h
  unfold takeCane
  repeat' first
    | with_reducible exact SameBut.refl _ _
    | with_reducible assumption
    | (extract_lets +onlyGivenNames z; first | (refine SameBut.cut (x := z) ?_ (fun _ => ?_) <;> [(unfold z; clear z); clear_value z]) | (refine SameBut.cut (x := z.2) ?_ (fun _ => ?_) <;> [(unfold z; clear z); clear_value z]) | (refine SameBut.cut (x := z.1) ?_ (fun _ => ?_) <;> [(unfold z; clear z); clear_value z]) | clear_value z)
    | with_reducible refine SameBut.ite _ _ _ _ _ (fun _ => ?_) (fun _ => ?_)
    | with_reducible refine instFault_keeps _ _ _ _ _ _ _ (by decide) ?_
    | with_reducible refine patchUse_keeps _ _ _ _ (by decide) ?_
    | with_reducible refine ctrSet_keeps _ _ _ _ _ _ (by decide) ?_
    | with_reducible refine cntAdd_keeps _ _ _ _ _ _ (by decide) ?_
    | with_reducible refine nullCane_keeps _ _ _ _ _ (by decide) ?_
    | with_reducible refine patchFetch_keeps _ _ _ _ (by decide) ?_
    | with_reducible refine cruCane_keeps _ _ _ _ _ _ (by decide) ?_
    | with_reducible refine modInst_keeps _ _ _ _ _ (by decide) ?_
    | with_reducible refine cruCane_keeps_eq _ _ _ _ _ _ _ _ ‹_› (by decide) ?_
    | split
    | with_reducible refine SameBut.set_de _ _ _ _ (by decide) ?_

theorem handOn_keeps (w : List Part) (a : Core) (x0 : Core) (x1 : Ready) (d : Core)
    (e : handOn x0 x1 = some d) (hw : [.io, .rsRegs, .rsCnts, .rsPages, .qsc, .fe, .queues, .ctxs, .sqs, .isr, .de, .lanes, .st, .mf, .cru, .sched, .tu, .shr, .strm, .pp, .det, .pmu, .trc, .free] ⊆ w) (h : SameBut w a x0) :
    SameBut w a d := by
  refine SameBut.next ?_ hw h
  clear hw h
  unfold handOn at e
  extract_lets i r rowsZero cand o at e
  clear_value rowsZero
  split at e
  · cases e; exact cruTake_keeps _ _ _ _ (by decide) (SameBut.refl _ _)
  split at e
  · cases e; exact instFault_keeps _ _ _ _ _ _ _ (by decide) (SameBut.refl _ _)
  split at e
  · cases e; exact instFault_keeps _ _ _ _ _ _ _ (by decide) (SameBut.refl _ _)
  split at e
  · cases e
    exact pmuEv_keeps _ _ _ _ _ _ (by decide) (cntAdd_keeps _ _ _ _ _ _ (by decide) (SameBut.set_de _ _ _ _ (by decide) (SameBut.refl _ _)))
  split at e
  · obtain ⟨k, -, rfl⟩ := Option.map_eq_some_iff.mp e
    exact putReady_keeps _ _ _ _ _ (by decide) (SameBut.refl _ _)
  · obtain ⟨k, -, rfl⟩ := Option.map_eq_some_iff.mp e
    exact putReady_keeps _ _ _ _ _ (by decide) (SameBut.set_de _ _ _ _ (by decide) (SameBut.refl _ _))

theorem handNext_keeps (w : List Part) (a : Core) (x0 : Core)
    (hw : [.io, .rsRegs, .rsCnts, .rsPages, .qsc, .fe, .queues, .ctxs, .sqs, .isr, .de, .lanes, .st, .mf, .cru, .sched, .tu, .shr, .strm, .pp, .det, .pmu, .trc, .free] ⊆ w) (h : SameBut w a x0) :
    SameBut w a (handNext x0) := by
  refine SameBut.next ?_ hw h
  clear hw h
  unfold handNext
  repeat' first
    | with_reducible exact SameBut.refl _ _
    | with_reducible assumption
    | (extract_lets +onlyGivenNames z; first | (refine SameBut.cut (x := z) ?_ (fun _ => ?_) <;> [(unfold z; clear z); clear_value z]) | clear_value z)
    | with_reducible refine SameBut.ite _ _ _ _ _ (fun _ => ?_) (fun _ => ?_)
    | with_reducible refine handOn_keeps _ _ _ _ _ ‹_› (by decide) ?_
    | split
    | with_reducible refine SameBut.set_de _ _ _ _ (by decide) ?_

end Sys2Proof.Machine
end

