-- ==== Sys2Proof/Laws/Shears.lean ====
section
/-! SUPPORT. What the operations of Shears.lean leave as it was. -/

set_option linter.unusedTactic false
set_option linter.unreachableTactic false
set_option linter.tactic.unusedName false

namespace Sys2Proof.Machine

theorem permute_keeps (w : List Part) (a : Core) {α : Type} (n : Nat) (l : List α) (c : Core)
    (hw : [.free] ⊆ w) (h : SameBut w a c) : SameBut w a (permute n l c).2 := by
  refine SameBut.next ?_ hw h
  clear hw h
  fun_induction permute n l c
  · exact SameBut.refl _ _
  · exact freeNat_keeps _ _ _ (by decide) (SameBut.refl _ _)
  · rename_i ih
    exact (freeNat_keeps _ _ _ (by decide) (SameBut.refl _ _)).trans ih

theorem orderBuckets_keeps (w : List Part) (a : Core) (x0 : Bool) (x1 : RouteEnv) (x2 : List Choice) (x3 : List (Nat × Nat)) (x4 : Core)
    (hw : [.free] ⊆ w) (h : SameBut w a x4) :
    SameBut w a (orderBuckets x0 x1 x2 x3 x4).2 := by
  refine SameBut.next ?_ hw h
  clear hw h
  fun_induction orderBuckets x0 x1 x2 x3 x4
  · exact SameBut.refl _ _
  · rename_i b t c ch p r ih
    refine SameBut.trans ?_ ih
    unfold p
    split
    · exact SameBut.refl _ _
    · exact permute_keeps _ _ _ _ _ (by decide) (SameBut.refl _ _)

theorem orderBuckets_keeps_eq (w : List Part) (a : Core) (x0 : Bool) (x1 : RouteEnv) (x2 : List Choice) (x3 : List (Nat × Nat)) (x4 : Core)
    (y d) (e : orderBuckets x0 x1 x2 x3 x4 = (y, d)) (hw : [.free] ⊆ w) (h : SameBut w a x4) :
    SameBut w a d := by
  have := orderBuckets_keeps w a x0 x1 x2 x3 x4 hw h
  rw [e] at this
  exact this

theorem routeOut_keeps (w : List Part) (a : Core) (x0 : Core) (x1 : List Word) (x2 : Nat) (x3 : List Word) (x4 : RouteEnv) (x5 : Bool)
    (hw : [.free] ⊆ w) (h : SameBut w a x0) :
    SameBut w a (routeOut x0 x1 x2 x3 x4 x5).2 := by
  exact orderBuckets_keeps _ _ _ _ _ _ _ hw h

theorem routeOut_keeps_eq (w : List Part) (a : Core) (x0 : Core) (x1 : List Word) (x2 : Nat) (x3 : List Word) (x4 : RouteEnv) (x5 : Bool)
    (y d) (e : routeOut x0 x1 x2 x3 x4 x5 = (y, d)) (hw : [.free] ⊆ w) (h : SameBut w a x0) :
    SameBut w a d := by
  have := routeOut_keeps w a x0 x1 x2 x3 x4 x5 hw h
  rw [e] at this
  exact this

theorem recvEntries_keeps (w : List Part) (a : Core) (x0 : RouteEnv) (x1 : RouteOut) (x2 : Nat) (x3 : List Nat) (x4 : Core)
    (hw : [.free] ⊆ w) (h : SameBut w a x4) :
    SameBut w a (recvEntries x0 x1 x2 x3 x4).2 := by
  refine SameBut.next ?_ hw h
  clear hw h
  fun_induction recvEntries x0 x1 x2 x3 x4
  all_goals repeat' first
    | with_reducible exact SameBut.refl _ _
    | with_reducible assumption
    | (with_reducible refine SameBut.trans ?_ (by assumption))
    | (extract_lets +onlyGivenNames z; first | (refine SameBut.cut (x := z) ?_ (fun _ => ?_) <;> [(unfold z; clear z); clear_value z]) | clear_value z)
    | with_reducible refine SameBut.ite _ _ _ _ _ (fun _ => ?_) (fun _ => ?_)
    | with_reducible refine freeWord_keeps _ _ _ (by decide) ?_
    | with_reducible refine freeNat_keeps _ _ _ (by decide) ?_
    | with_reducible refine freeWord_keeps_eq _ _ _ _ _ ‹_› (by decide) ?_
    | with_reducible refine freeNat_keeps_eq _ _ _ _ _ ‹_› (by decide) ?_
    | split

theorem recvEntries_keeps_eq (w : List Part) (a : Core) (x0 : RouteEnv) (x1 : RouteOut) (x2 : Nat) (x3 : List Nat) (x4 : Core)
    (y d) (e : recvEntries x0 x1 x2 x3 x4 = (y, d)) (hw : [.free] ⊆ w) (h : SameBut w a x4) :
    SameBut w a d := by
  have := recvEntries_keeps w a x0 x1 x2 x3 x4 hw h
  rw [e] at this
  exact this

end Sys2Proof.Machine
end

