-- ==== Sys2Proof/Laws/Routes.lean ====
section
/-! SUPPORT. What the operations of Routes.lean leave as it was. -/

set_option linter.unusedTactic false
set_option linter.unreachableTactic false
set_option linter.tactic.unusedName false

namespace Sys2Proof.Machine

theorem routeFault_keeps (w : List Part) (a : Core) (x0 : Core) (x1 : Nat) (x2 : Nat) (x3 : Nat)
    (hw : [.io, .rsRegs, .rsCnts, .rsPages, .fe, .queues, .ctxs, .sqs, .isr, .de, .lanes, .st, .mf, .cru, .sched, .tu, .shr, .strm, .pp, .pmu, .trc, .free] ⊆ w) (h : SameBut w a x0) :
    SameBut w a (routeFault x0 x1 x2 x3) := by
  refine SameBut.next ?_ hw h
  clear hw h
  unfold routeFault
  repeat' first
    | with_reducible exact SameBut.refl _ _
    | with_reducible assumption
    | (extract_lets +onlyGivenNames z; first | (refine SameBut.cut (x := z) ?_ (fun _ => ?_) <;> [(unfold z; clear z); clear_value z]) | clear_value z)
    | with_reducible refine SameBut.ite _ _ _ _ _ (fun _ => ?_) (fun _ => ?_)
    | with_reducible refine instFault_keeps _ _ _ _ _ _ _ (by decide) ?_
    | with_reducible refine routeKick_keeps _ _ _ (by decide) ?_
    | with_reducible refine irqSet_keeps _ _ _ _ _ (by decide) ?_
    | with_reducible refine endRoute_keeps _ _ _ _ (by decide) ?_
    | split
    | with_reducible refine SameBut.set_shr _ _ _ _ (by decide) ?_

theorem routeAccept_keeps (w : List Part) (a : Core) (x0 : Core) (x1 : Nat) (x2 : Nat) (x3 : Nat) (x4 : Nat) (x5 : Nat) (x6 : Option Nat)
    (hw : [.io, .isr, .shr, .pmu] ⊆ w) (h : SameBut w a x0) :
    SameBut w a (routeAccept x0 x1 x2 x3 x4 x5 x6) := by
  refine SameBut.next ?_ hw h
  clear hw h
  unfold routeAccept
  repeat' first
    | with_reducible exact SameBut.refl _ _
    | with_reducible assumption
    | (extract_lets +onlyGivenNames z; first | (refine SameBut.cut (x := z) ?_ (fun _ => ?_) <;> [(unfold z; clear z); clear_value z]) | clear_value z)
    | with_reducible refine routeKick_keeps _ _ _ (by decide) ?_
    | with_reducible refine modInst_keeps _ _ _ _ _ (by decide) ?_
    | with_reducible refine SameBut.set_shr _ _ _ _ (by decide) ?_

theorem opRoute_keeps (w : List Part) (a : Core) (x0 : Nat) (x1 : Core) (x2 : Nat) (x3 : Word) (x4 : Word)
    (hw : [.io, .rsRegs, .rsCnts, .rsPages, .fe, .queues, .ctxs, .sqs, .isr, .de, .lanes, .st, .mf, .cru, .sched, .tu, .shr, .strm, .pp, .pmu, .trc, .dbg, .free] ⊆ w) (h : SameBut w a x1) :
    SameBut w a (opRoute x0 x1 x2 x3 x4) := by
  refine SameBut.next ?_ hw h
  clear hw h
  unfold opRoute
  repeat' first
    | with_reducible exact SameBut.refl _ _
    | with_reducible assumption
    | (extract_lets +onlyGivenNames z; first | (refine SameBut.cut (x := z) ?_ (fun _ => ?_) <;> [(unfold z; clear z); clear_value z]) | clear_value z)
    | with_reducible refine SameBut.ite _ _ _ _ _ (fun _ => ?_) (fun _ => ?_)
    | with_reducible refine moveOn_keeps _ _ _ _ (by decide) ?_
    | with_reducible refine routeAccept_keeps _ _ _ _ _ _ _ _ _ (by decide) ?_
    | with_reducible refine cmdFault_keeps _ _ _ _ _ (by decide) ?_
    | with_reducible refine stallAt_keeps _ _ _ _ _ (by decide) ?_
    | split

theorem admitAgain_keeps (w : List Part) (a : Core) (c : Core) (sq op : Nat) (f : Core → Nat → Word → Word → Core)
    (hf : ∀ c q x y, SameBut w c (f c q x y)) (h : SameBut w a c) : SameBut w a (admitAgain c sq op f) := by
  unfold admitAgain
  extract_lets s
  split
  · exact SameBut.ite _ _ _ _ _ (fun _ => h.trans (hf _ _ _ _)) (fun _ => h)
  · exact h

theorem routeBind_keeps (w : List Part) (a : Core) (x0 : Core) (x1 : Nat) (x2 : List Word)
    (hw : [.shr] ⊆ w) (h : SameBut w a x0) :
    SameBut w a (routeBind x0 x1 x2) := by
  refine SameBut.next ?_ hw h
  clear hw h
  unfold routeBind
  repeat' first
    | with_reducible exact SameBut.refl _ _
    | with_reducible assumption
    | (extract_lets +onlyGivenNames z; first | (refine SameBut.cut (x := z) ?_ (fun _ => ?_) <;> [(unfold z; clear z); clear_value z]) | clear_value z)
    | with_reducible refine SameBut.ite _ _ _ _ _ (fun _ => ?_) (fun _ => ?_)
    | with_reducible refine modRoute_keeps _ _ _ _ _ (by decide) ?_
    | with_reducible refine modGroup_keeps _ _ _ _ _ (by decide) ?_

theorem routeWrite_keeps (w : List Part) (a : Core) (x0 : Core) (x1 : Route) (x2 : Nat) (x3 : Nat) (x4 : List Word)
    (hw : [.io, .shr, .pmu] ⊆ w) (h : SameBut w a x0) :
    SameBut w a (routeWrite x0 x1 x2 x3 x4) := by
  refine SameBut.next ?_ hw h
  clear hw h
  unfold routeWrite
  repeat' first
    | with_reducible exact SameBut.refl _ _
    | with_reducible assumption
    | (extract_lets +onlyGivenNames z; first | (refine SameBut.cut (x := z) ?_ (fun _ => ?_) <;> [(unfold z; clear z); clear_value z]) | clear_value z)
    | with_reducible refine SameBut.ite _ _ _ _ _ (fun _ => ?_) (fun _ => ?_)
    | with_reducible refine sendReq_keeps _ _ _ _ (by decide) ?_
    | with_reducible refine modRoute_keeps _ _ _ _ _ (by decide) ?_

theorem popAdd_keeps (w : List Part) (a : Core) (x0 : Core) (x1 : Route) (x2 : RouteOut)
    (hw : [.shr] ⊆ w) (h : SameBut w a x0) :
    SameBut w a (popAdd x0 x1 x2) := by
  refine SameBut.next ?_ hw h
  clear hw h
  unfold popAdd
  repeat' first
    | with_reducible exact SameBut.refl _ _
    | with_reducible assumption
    | (extract_lets +onlyGivenNames z; first | (refine SameBut.cut (x := z) ?_ (fun _ => ?_) <;> [(unfold z; clear z); clear_value z]) | clear_value z)
    | with_reducible refine SameBut.ite _ _ _ _ _ (fun _ => ?_) (fun _ => ?_)
    | with_reducible refine SameBut.fold _ _ _ _ _ (fun _ _ => ?_) ?_
    | with_reducible refine SameBut.set_shr _ _ _ _ (by decide) ?_

theorem routeCounts_keeps (w : List Part) (a : Core) (x0 : Core) (x1 : Route) (x2 : RouteOut) (x3 : Nat)
    (hw : [.rsCnts, .pmu] ⊆ w) (h : SameBut w a x0) :
    SameBut w a (routeCounts x0 x1 x2 x3) := by
  refine SameBut.next ?_ hw h
  clear hw h
  unfold routeCounts
  repeat' first
    | with_reducible exact SameBut.refl _ _
    | with_reducible assumption
    | (extract_lets +onlyGivenNames z; first | (refine SameBut.cut (x := z) ?_ (fun _ => ?_) <;> [(unfold z; clear z); clear_value z]) | clear_value z)
    | with_reducible refine pmuEv_keeps _ _ _ _ _ _ (by decide) ?_
    | with_reducible refine cntAdd_keeps _ _ _ _ _ _ (by decide) ?_

theorem routeTables_keeps (w : List Part) (a : Core) (x0 : Core) (x1 : Route) (x2 : RouteEnv) (x3 : RouteOut) (x4 : Nat)
    (hw : [.io, .shr, .pmu, .free] ⊆ w) (h : SameBut w a x0) :
    SameBut w a (routeTables x0 x1 x2 x3 x4) := by
  refine SameBut.next ?_ hw h
  clear hw h
  unfold routeTables
  repeat' first
    | with_reducible exact SameBut.refl _ _
    | with_reducible assumption
    | (extract_lets +onlyGivenNames z; first | (refine SameBut.cut (x := z) ?_ (fun _ => ?_) <;> [(unfold z; clear z); clear_value z]) | (refine SameBut.cut (x := z.2) ?_ (fun _ => ?_) <;> [(unfold z; clear z); clear_value z]) | (refine SameBut.cut (x := z.1) ?_ (fun _ => ?_) <;> [(unfold z; clear z); clear_value z]) | clear_value z)
    | with_reducible refine routeWrite_keeps _ _ _ _ _ _ _ (by decide) ?_
    | with_reducible refine modRoute_keeps _ _ _ _ _ (by decide) ?_
    | with_reducible refine recvEntries_keeps _ _ _ _ _ _ _ (by decide) ?_
    | with_reducible refine recvEntries_keeps_eq _ _ _ _ _ _ _ _ _ ‹_› (by decide) ?_

theorem routeRun_keeps (w : List Part) (a : Core) (x0 : Core) (x1 : Nat) (x2 : List Word)
    (hw : [.io, .rsRegs, .rsCnts, .rsPages, .fe, .queues, .ctxs, .sqs, .isr, .de, .lanes, .st, .mf, .cru, .sched, .tu, .shr, .strm, .pp, .pmu, .trc, .free] ⊆ w) (h : SameBut w a x0) :
    SameBut w a (routeRun x0 x1 x2) := by
  refine SameBut.next ?_ hw h
  clear hw h
  unfold routeRun
  repeat' first
    | with_reducible exact SameBut.refl _ _
    | with_reducible assumption
    | (extract_lets +onlyGivenNames z; first | (refine SameBut.cut (x := z) ?_ (fun _ => ?_) <;> [(unfold z; clear z); clear_value z]) | (refine SameBut.cut (x := z.2) ?_ (fun _ => ?_) <;> [(unfold z; clear z); clear_value z]) | (refine SameBut.cut (x := z.1) ?_ (fun _ => ?_) <;> [(unfold z; clear z); clear_value z]) | clear_value z)
    | with_reducible refine SameBut.ite _ _ _ _ _ (fun _ => ?_) (fun _ => ?_)
    | with_reducible refine routeCounts_keeps _ _ _ _ _ _ (by decide) ?_
    | with_reducible refine routeFault_keeps _ _ _ _ _ _ (by decide) ?_
    | with_reducible refine routeTables_keeps _ _ _ _ _ _ _ (by decide) ?_
    | with_reducible refine popAdd_keeps _ _ _ _ _ (by decide) ?_
    | with_reducible refine routeOut_keeps _ _ _ _ _ _ _ _ (by decide) ?_
    | with_reducible refine routeOut_keeps_eq _ _ _ _ _ _ _ _ _ _ ‹_› (by decide) ?_
    | split

theorem routeAdvance_keeps (w : List Part) (a : Core) (x0 : Core) (x1 : Nat)
    (hw : [.io, .rsRegs, .rsCnts, .rsPages, .fe, .queues, .ctxs, .sqs, .isr, .de, .lanes, .st, .mf, .cru, .sched, .tu, .shr, .strm, .pp, .pmu, .trc, .free] ⊆ w) (h : SameBut w a x0) :
    SameBut w a (routeAdvance x0 x1) := by
  refine SameBut.next ?_ hw h
  clear hw h
  unfold routeAdvance
  repeat' first
    | with_reducible exact SameBut.refl _ _
    | with_reducible assumption
    | with_reducible refine SameBut.ite _ _ _ _ _ (fun _ => ?_) (fun _ => ?_)
    | with_reducible refine mpRead_keeps _ _ _ _ _ _ _ (by decide) ?_
    | with_reducible refine routeRun_keeps _ _ _ _ _ (by decide) ?_
    | split

theorem routeDesc_keeps (w : List Part) (a : Core) (x0 : Core) (x1 : Nat) (x2 : List Word)
    (hw : [.io, .rsRegs, .rsCnts, .rsPages, .fe, .queues, .ctxs, .sqs, .isr, .de, .lanes, .st, .mf, .cru, .sched, .tu, .shr, .strm, .pp, .pmu, .trc, .free] ⊆ w) (h : SameBut w a x0) :
    SameBut w a (routeDesc x0 x1 x2) := by
  refine SameBut.next ?_ hw h
  clear hw h
  unfold routeDesc
  repeat' first
    | with_reducible exact SameBut.refl _ _
    | with_reducible assumption
    | (extract_lets +onlyGivenNames z; first | (refine SameBut.cut (x := z) ?_ (fun _ => ?_) <;> [(unfold z; clear z); clear_value z]) | clear_value z)
    | with_reducible refine SameBut.ite _ _ _ _ _ (fun _ => ?_) (fun _ => ?_)
    | with_reducible refine routeBind_keeps _ _ _ _ _ (by decide) ?_
    | with_reducible refine routeFault_keeps _ _ _ _ _ _ (by decide) ?_
    | with_reducible refine routeKick_keeps _ _ _ (by decide) ?_
    | with_reducible refine routeAdvance_keeps _ _ _ _ (by decide) ?_
    | with_reducible refine endRoute_keeps _ _ _ _ (by decide) ?_
    | split

theorem sendCount_keeps (w : List Part) (a : Core) (x0 : Core) (x1 : Route) (x2 : Peer)
    (hw : [.io, .rsCnts, .isr, .pp, .pmu] ⊆ w) (h : SameBut w a x0) :
    SameBut w a (sendCount x0 x1 x2) := by
  refine SameBut.next ?_ hw h
  clear hw h
  unfold sendCount
  repeat' first
    | with_reducible exact SameBut.refl _ _
    | with_reducible assumption
    | (extract_lets +onlyGivenNames z; first | (refine SameBut.cut (x := z) ?_ (fun _ => ?_) <;> [(unfold z; clear z); clear_value z]) | clear_value z)
    | with_reducible refine SameBut.ite _ _ _ _ _ (fun _ => ?_) (fun _ => ?_)
    | with_reducible refine sendRemMsg_keeps _ _ _ _ _ _ (by decide) ?_

theorem writeRecv_keeps (w : List Part) (a : Core) (x0 : Core) (x1 : Route) (x2 : Nat) (x3 : List Word)
    (hw : [.io, .shr, .pmu] ⊆ w) (h : SameBut w a x0) :
    SameBut w a (writeRecv x0 x1 x2 x3) := by
  refine SameBut.next ?_ hw h
  clear hw h
  unfold writeRecv
  repeat' first
    | with_reducible exact SameBut.refl _ _
    | with_reducible assumption
    | (extract_lets +onlyGivenNames z; first | (refine SameBut.cut (x := z) ?_ (fun _ => ?_) <;> [(unfold z; clear z); clear_value z]) | clear_value z)
    | with_reducible refine modRoute_keeps _ _ _ _ _ (by decide) ?_
    | with_reducible refine mpWrite_keeps _ _ _ _ _ _ _ (by decide) ?_
    | split

theorem routeAgree_keeps (w : List Part) (a : Core) (x0 : Core) (x1 : Nat)
    (hw : [.io, .shr, .pmu] ⊆ w) (h : SameBut w a x0) :
    SameBut w a (routeAgree x0 x1) := by
  refine SameBut.next ?_ hw h
  clear hw h
  unfold routeAgree
  repeat' first
    | with_reducible exact SameBut.refl _ _
    | with_reducible assumption
    | with_reducible refine SameBut.ite _ _ _ _ _ (fun _ => ?_) (fun _ => ?_)
    | with_reducible refine modRoute_keeps _ _ _ _ _ (by decide) ?_
    | with_reducible refine writePlanState_keeps _ _ _ _ _ (by decide) ?_
    | split

theorem routeDone_keeps (w : List Part) (a : Core) (x0 : Core) (x1 : Nat)
    (hw : [.rsCnts, .shr] ⊆ w) (h : SameBut w a x0) :
    SameBut w a (routeDone x0 x1) := by
  refine SameBut.next ?_ hw h
  clear hw h
  unfold routeDone
  repeat' first
    | with_reducible exact SameBut.refl _ _
    | with_reducible assumption
    | with_reducible refine cntAdd_keeps _ _ _ _ _ _ (by decide) ?_
    | with_reducible refine SameBut.set_shr _ _ _ _ (by decide) ?_

theorem landSlot_keeps (w : List Part) (a : Core) (x0 : Core) (x1 : Route)
    (hw : [.rsCnts, .isr, .pmu, .trc] ⊆ w) (h : SameBut w a x0) :
    SameBut w a (landSlot x0 x1) := by
  refine SameBut.next ?_ hw h
  clear hw h
  unfold landSlot
  repeat' first
    | with_reducible exact SameBut.refl _ _
    | with_reducible assumption
    | (extract_lets +onlyGivenNames z; first | (refine SameBut.cut (x := z) ?_ (fun _ => ?_) <;> [(unfold z; clear z); clear_value z]) | clear_value z)
    | with_reducible refine pmuEv_keeps _ _ _ _ _ _ (by decide) ?_
    | with_reducible refine patchUse_keeps _ _ _ _ (by decide) ?_
    | with_reducible refine cntAdd_keeps _ _ _ _ _ _ (by decide) ?_
    | with_reducible refine patchPut_keeps _ _ _ _ _ _ (by decide) ?_
    | with_reducible refine trace_keeps _ _ _ _ _ _ _ _ _ _ (by decide) ?_
    | with_reducible refine modInst_keeps _ _ _ _ _ (by decide) ?_
    | with_reducible refine SameBut.fold _ _ _ _ _ (fun _ _ => ?_) ?_

theorem routeLand_keeps (w : List Part) (a : Core) (x0 : Core) (x1 : Nat)
    (hw : [.io, .rsCnts, .isr, .shr, .pp, .pmu, .trc] ⊆ w) (h : SameBut w a x0) :
    SameBut w a (routeLand x0 x1) := by
  refine SameBut.next ?_ hw h
  clear hw h
  unfold routeLand
  repeat' first
    | with_reducible exact SameBut.refl _ _
    | with_reducible assumption
    | (extract_lets +onlyGivenNames z; first | (refine SameBut.cut (x := z) ?_ (fun _ => ?_) <;> [(unfold z; clear z); clear_value z]) | clear_value z)
    | with_reducible refine SameBut.ite _ _ _ _ _ (fun _ => ?_) (fun _ => ?_)
    | with_reducible refine sendCount_keeps _ _ _ _ _ (by decide) ?_
    | with_reducible refine routeKick_keeps _ _ _ (by decide) ?_
    | with_reducible refine modRoute_keeps _ _ _ _ _ (by decide) ?_
    | with_reducible refine patchFetch_keeps _ _ _ _ (by decide) ?_
    | with_reducible refine writeRecv_keeps _ _ _ _ _ _ (by decide) ?_
    | with_reducible refine routeDone_keeps _ _ _ _ (by decide) ?_
    | with_reducible refine routeAgree_keeps _ _ _ _ (by decide) ?_
    | with_reducible refine landSlot_keeps _ _ _ _ (by decide) ?_
    | with_reducible refine SameBut.fold _ _ _ _ _ (fun _ _ => ?_) ?_
    | split

theorem routesResume_keeps (w : List Part) (a : Core) (x0 : Core) (x1 : Nat)
    (hw : [.io, .rsCnts, .isr, .shr, .pp, .pmu, .trc] ⊆ w) (h : SameBut w a x0) :
    SameBut w a (routesResume x0 x1) := by
  refine SameBut.next ?_ hw h
  clear hw h
  unfold routesResume
  repeat' first
    | with_reducible exact SameBut.refl _ _
    | with_reducible assumption
    | with_reducible refine routeLand_keeps _ _ _ _ (by decide) ?_
    | with_reducible refine SameBut.fold _ _ _ _ _ (fun _ _ => ?_) ?_

theorem routeWritten_keeps (w : List Part) (a : Core) (x0 : Core) (x1 : Nat) (x2 : QStatus)
    (hw : [.io, .rsRegs, .rsCnts, .rsPages, .fe, .queues, .ctxs, .sqs, .isr, .de, .lanes, .st, .mf, .cru, .sched, .tu, .shr, .strm, .pp, .pmu, .trc, .free] ⊆ w) (h : SameBut w a x0) :
    SameBut w a (routeWritten x0 x1 x2) := by
  refine SameBut.next ?_ hw h
  clear hw h
  unfold routeWritten
  repeat' first
    | with_reducible exact SameBut.refl _ _
    | with_reducible assumption
    | with_reducible refine SameBut.ite _ _ _ _ _ (fun _ => ?_) (fun _ => ?_)
    | with_reducible refine routeFault_keeps _ _ _ _ _ _ (by decide) ?_
    | with_reducible refine modRoute_keeps _ _ _ _ _ (by decide) ?_
    | with_reducible refine routeLand_keeps _ _ _ _ (by decide) ?_
    | with_reducible refine routeAgree_keeps _ _ _ _ (by decide) ?_
    | split

theorem routesPeerLost_keeps (w : List Part) (a : Core) (x0 : Core) (x1 : Nat)
    (hw : [.io, .rsRegs, .rsCnts, .rsPages, .fe, .queues, .ctxs, .sqs, .isr, .de, .lanes, .st, .mf, .cru, .sched, .tu, .shr, .strm, .pp, .pmu, .trc, .free] ⊆ w) (h : SameBut w a x0) :
    SameBut w a (routesPeerLost x0 x1) := by
  refine SameBut.next ?_ hw h
  clear hw h
  unfold routesPeerLost
  repeat' first
    | with_reducible exact SameBut.refl _ _
    | with_reducible assumption
    | with_reducible refine routeFault_keeps _ _ _ _ _ _ (by decide) ?_
    | with_reducible refine SameBut.fold _ _ _ _ _ (fun _ _ => ?_) ?_

theorem modRoutePeer_keeps (w : List Part) (a : Core) (x0 : Core) (x1 : Nat) (x2 : Nat) (x3 : Peer → Peer)
    (hw : [.shr] ⊆ w) (h : SameBut w a x0) :
    SameBut w a (modRoutePeer x0 x1 x2 x3) := by
  refine SameBut.next ?_ hw h
  clear hw h
  unfold modRoutePeer
  repeat' first
    | with_reducible exact SameBut.refl _ _
    | with_reducible assumption
    | with_reducible refine SameBut.ite _ _ _ _ _ (fun _ => ?_) (fun _ => ?_)
    | with_reducible refine modRoute_keeps _ _ _ _ _ (by decide) ?_

theorem countAnswer_keeps (w : List Part) (a : Core) (x0 : Core) (x1 : Nat) (x2 : Nat) (x3 : Nat)
    (hw : [.io, .rsRegs, .rsCnts, .rsPages, .fe, .queues, .ctxs, .sqs, .isr, .de, .lanes, .st, .mf, .cru, .sched, .tu, .shr, .strm, .pp, .pmu, .trc, .free] ⊆ w) (h : SameBut w a x0) :
    SameBut w a (countAnswer x0 x1 x2 x3) := by
  refine SameBut.next ?_ hw h
  clear hw h
  unfold countAnswer
  repeat' first
    | with_reducible exact SameBut.refl _ _
    | with_reducible assumption
    | with_reducible refine SameBut.ite _ _ _ _ _ (fun _ => ?_) (fun _ => ?_)
    | with_reducible refine routeFault_keeps _ _ _ _ _ _ (by decide) ?_
    | with_reducible refine modRoutePeer_keeps _ _ _ _ _ _ (by decide) ?_
    | split

theorem countStray_keeps (w : List Part) (a : Core) (x0 : Core)
    (hw : [.rsCnts, .rsPages] ⊆ w) (h : SameBut w a x0) :
    SameBut w a (countStray x0) := by
  refine SameBut.next ?_ hw h
  clear hw h
  unfold countStray
  repeat' first
    | with_reducible exact SameBut.refl _ _
    | with_reducible assumption
    | with_reducible refine cntAdd_keeps _ _ _ _ _ _ (by decide) ?_
    | with_reducible refine irqSet_keeps _ _ _ _ _ (by decide) ?_

theorem countTake_keeps (w : List Part) (a : Core) (x0 : Core) (x1 : Msg)
    (hw : [.io, .rsRegs, .rsCnts, .rsPages, .fe, .queues, .ctxs, .sqs, .isr, .de, .lanes, .st, .mf, .cru, .sched, .tu, .shr, .strm, .pp, .pmu, .trc, .free] ⊆ w) (h : SameBut w a x0) :
    SameBut w a (countTake x0 x1).2 := by
  refine SameBut.next ?_ hw h
  clear hw h
  unfold countTake
  repeat' first
    | with_reducible exact SameBut.refl _ _
    | with_reducible assumption
    | (extract_lets +onlyGivenNames z; first | (refine SameBut.cut (x := z) ?_ (fun _ => ?_) <;> [(unfold z; clear z); clear_value z]) | clear_value z)
    | with_reducible refine SameBut.ite _ _ _ _ _ (fun _ => ?_) (fun _ => ?_)
    | with_reducible refine routeFault_keeps _ _ _ _ _ _ (by decide) ?_
    | with_reducible refine countStray_keeps _ _ _ (by decide) ?_
    | with_reducible refine cntAdd_keeps _ _ _ _ _ _ (by decide) ?_
    | with_reducible refine writeRecv_keeps _ _ _ _ _ _ (by decide) ?_
    | with_reducible refine modRoutePeer_keeps _ _ _ _ _ _ (by decide) ?_
    | with_reducible refine routeAgree_keeps _ _ _ _ (by decide) ?_
    | split

theorem countTake_keeps_eq (w : List Part) (a : Core) (x0 : Core) (x1 : Msg)
    (y d) (e : countTake x0 x1 = (y, d)) (hw : [.io, .rsRegs, .rsCnts, .rsPages, .fe, .queues, .ctxs, .sqs, .isr, .de, .lanes, .st, .mf, .cru, .sched, .tu, .shr, .strm, .pp, .pmu, .trc, .free] ⊆ w) (h : SameBut w a x0) :
    SameBut w a d := by
  have := countTake_keeps w a x0 x1 hw h
  rw [e] at this
  exact this

theorem groupWrite_keeps (w : List Part) (a : Core) (x0 : Core) (x1 : Nat) (x2 : Reg) (x3 : Group → Group)
    (hw : [.rsPages, .shr] ⊆ w) (h : SameBut w a x0) :
    SameBut w a (groupWrite x0 x1 x2 x3) := by
  refine SameBut.next ?_ hw h
  clear hw h
  unfold groupWrite
  repeat' first
    | with_reducible exact SameBut.refl _ _
    | with_reducible assumption
    | (extract_lets +onlyGivenNames z; first | (refine SameBut.cut (x := z) ?_ (fun _ => ?_) <;> [(unfold z; clear z); clear_value z]) | clear_value z)
    | with_reducible refine SameBut.ite _ _ _ _ _ (fun _ => ?_) (fun _ => ?_)
    | with_reducible refine pageErr_keeps _ _ _ _ _ _ _ (by decide) ?_
    | with_reducible refine modGroup_keeps _ _ _ _ _ (by decide) ?_

theorem writeGrpCfg_keeps (w : List Part) (a : Core) (x0 : Core) (x1 : Reg)
    (hw : [.rsPages, .shr] ⊆ w) (h : SameBut w a x0) :
    SameBut w a (writeGrpCfg x0 x1) := by
  refine SameBut.next ?_ hw h
  clear hw h
  unfold writeGrpCfg
  repeat' first
    | with_reducible exact SameBut.refl _ _
    | with_reducible assumption
    | (extract_lets +onlyGivenNames z; first | (refine SameBut.cut (x := z) ?_ (fun _ => ?_) <;> [(unfold z; clear z); clear_value z]) | clear_value z)
    | with_reducible refine SameBut.ite _ _ _ _ _ (fun _ => ?_) (fun _ => ?_)
    | with_reducible refine pageErr_keeps _ _ _ _ _ _ _ (by decide) ?_
    | with_reducible refine modGroup_keeps _ _ _ _ _ (by decide) ?_
    | split

theorem addReplicas_keeps (w : List Part) (a : Core) (x0 : List Nat) (x1 : Nat → Nat) (x2 : Nat) (x3 : Nat) (x4 : Nat) (x5 : List (List Nat)) (x6 : Core)
    (hw : [.free] ⊆ w) (h : SameBut w a x6) :
    SameBut w a (addReplicas x0 x1 x2 x3 x4 x5 x6).2 := by
  refine SameBut.next ?_ hw h
  clear hw h
  fun_induction addReplicas x0 x1 x2 x3 x4 x5 x6
  all_goals repeat' first
    | with_reducible exact SameBut.refl _ _
    | with_reducible assumption
    | (with_reducible refine SameBut.trans ?_ (by assumption))
    | (extract_lets +onlyGivenNames z; first | (refine SameBut.cut (x := z) ?_ (fun _ => ?_) <;> [(unfold z; clear z); clear_value z]) | clear_value z)
    | with_reducible refine SameBut.ite _ _ _ _ _ (fun _ => ?_) (fun _ => ?_)
    | with_reducible refine freeNat_keeps _ _ _ (by decide) ?_
    | with_reducible refine freeNat_keeps_eq _ _ _ _ _ ‹_› (by decide) ?_
    | split
    | with_reducible refine SameBut.set_free _ _ _ _ (by decide) ?_

theorem addReplicas_keeps_eq (w : List Part) (a : Core) (x0 : List Nat) (x1 : Nat → Nat) (x2 : Nat) (x3 : Nat) (x4 : Nat) (x5 : List (List Nat)) (x6 : Core)
    (y d) (e : addReplicas x0 x1 x2 x3 x4 x5 x6 = (y, d)) (hw : [.free] ⊆ w) (h : SameBut w a x6) :
    SameBut w a d := by
  have := addReplicas_keeps w a x0 x1 x2 x3 x4 x5 x6 hw h
  rw [e] at this
  exact this

theorem revise_keeps (w : List Part) (a : Core) (x0 : List Nat) (x1 : Nat → Nat) (x2 : Nat) (x3 : Nat) (x4 : Nat) (x5 : Nat) (x6 : List Nat) (x7 : Nat) (x8 : List (List Nat)) (x9 : Core)
    (hw : [.free] ⊆ w) (h : SameBut w a x9) :
    SameBut w a (revise x0 x1 x2 x3 x4 x5 x6 x7 x8 x9).2 := by
  refine SameBut.next ?_ hw h
  clear hw h
  fun_induction revise x0 x1 x2 x3 x4 x5 x6 x7 x8 x9
  all_goals repeat' first
    | with_reducible exact SameBut.refl _ _
    | with_reducible assumption
    | (with_reducible refine SameBut.trans ?_ (by assumption))
    | (extract_lets +onlyGivenNames z; first | (refine SameBut.cut (x := z) ?_ (fun _ => ?_) <;> [(unfold z; clear z); clear_value z]) | clear_value z)
    | with_reducible refine addReplicas_keeps _ _ _ _ _ _ _ _ _ (by decide) ?_
    | with_reducible refine addReplicas_keeps_eq _ _ _ _ _ _ _ _ _ _ _ ‹_› (by decide) ?_
    | split

theorem revise_keeps_eq (w : List Part) (a : Core) (x0 : List Nat) (x1 : Nat → Nat) (x2 : Nat) (x3 : Nat) (x4 : Nat) (x5 : Nat) (x6 : List Nat) (x7 : Nat) (x8 : List (List Nat)) (x9 : Core)
    (y d) (e : revise x0 x1 x2 x3 x4 x5 x6 x7 x8 x9 = (y, d)) (hw : [.free] ⊆ w) (h : SameBut w a x9) :
    SameBut w a d := by
  have := revise_keeps w a x0 x1 x2 x3 x4 x5 x6 x7 x8 x9 hw h
  rw [e] at this
  exact this

theorem snapWrite_keeps (w : List Part) (a : Core) (x0 : Core) (x1 : PopSnap)
    (hw : [.io, .shr, .pmu] ⊆ w) (h : SameBut w a x0) :
    SameBut w a (snapWrite x0 x1) := by
  refine SameBut.next ?_ hw h
  clear hw h
  unfold snapWrite
  repeat' first
    | with_reducible exact SameBut.refl _ _
    | with_reducible assumption
    | (extract_lets +onlyGivenNames z; first | (refine SameBut.cut (x := z) ?_ (fun _ => ?_) <;> [(unfold z; clear z); clear_value z]) | clear_value z)
    | with_reducible refine SameBut.ite _ _ _ _ _ (fun _ => ?_) (fun _ => ?_)
    | with_reducible refine mpWrite_keeps _ _ _ _ _ _ _ (by decide) ?_
    | with_reducible refine SameBut.set_shr _ _ _ _ (by decide) ?_

theorem epochEnd_keeps (w : List Part) (a : Core) (x0 : Core)
    (hw : [.io, .shr, .pmu] ⊆ w) (h : SameBut w a x0) :
    SameBut w a (epochEnd x0) := by
  refine SameBut.next ?_ hw h
  clear hw h
  unfold epochEnd
  repeat' first
    | with_reducible exact SameBut.refl _ _
    | with_reducible assumption
    | (extract_lets +onlyGivenNames z; first | (refine SameBut.cut (x := z) ?_ (fun _ => ?_) <;> [(unfold z; clear z); clear_value z]) | clear_value z)
    | with_reducible refine SameBut.ite _ _ _ _ _ (fun _ => ?_) (fun _ => ?_)
    | with_reducible refine snapWrite_keeps _ _ _ _ (by decide) ?_
    | with_reducible refine mpRead_keeps _ _ _ _ _ _ _ (by decide) ?_
    | with_reducible refine SameBut.set_shr _ _ _ _ (by decide) ?_

theorem epochPlace_keeps (w : List Part) (a : Core) (x0 : Core) (x1 : PopSnap) (x2 : QStatus) (x3 : List Word)
    (hw : [.io, .shr, .pmu, .free] ⊆ w) (h : SameBut w a x0) :
    SameBut w a (epochPlace x0 x1 x2 x3) := by
  refine SameBut.next ?_ hw h
  clear hw h
  unfold epochPlace
  repeat' first
    | with_reducible exact SameBut.refl _ _
    | with_reducible assumption
    | (extract_lets +onlyGivenNames z; first | (refine SameBut.cut (x := z) ?_ (fun _ => ?_) <;> [(unfold z; clear z); clear_value z]) | (refine SameBut.cut (x := z.2) ?_ (fun _ => ?_) <;> [(unfold z; clear z); clear_value z]) | (refine SameBut.cut (x := z.1) ?_ (fun _ => ?_) <;> [(unfold z; clear z); clear_value z]) | clear_value z)
    | with_reducible refine SameBut.ite _ _ _ _ _ (fun _ => ?_) (fun _ => ?_)
    | with_reducible refine revise_keeps _ _ _ _ _ _ _ _ _ _ _ _ (by decide) ?_
    | with_reducible refine snapWrite_keeps _ _ _ _ (by decide) ?_
    | with_reducible refine revise_keeps_eq _ _ _ _ _ _ _ _ _ _ _ _ _ _ ‹_› (by decide) ?_

theorem snapDone_keeps (w : List Part) (a : Core) (x0 : Core) (x1 : PopSnap)
    (hw : [.io, .rsPages, .shr, .pmu] ⊆ w) (h : SameBut w a x0) :
    SameBut w a (snapDone x0 x1) := by
  refine SameBut.next ?_ hw h
  clear hw h
  unfold snapDone
  repeat' first
    | with_reducible exact SameBut.refl _ _
    | with_reducible assumption
    | (extract_lets +onlyGivenNames z; first | (refine SameBut.cut (x := z) ?_ (fun _ => ?_) <;> [(unfold z; clear z); clear_value z]) | clear_value z)
    | with_reducible refine SameBut.ite _ _ _ _ _ (fun _ => ?_) (fun _ => ?_)
    | with_reducible refine irqSet_keeps _ _ _ _ _ (by decide) ?_
    | with_reducible refine mpWrite_keeps _ _ _ _ _ _ _ (by decide) ?_
    | with_reducible refine SameBut.set_shr _ _ _ _ (by decide) ?_

theorem snapAnswer_keeps (w : List Part) (a : Core) (x0 : Core) (x1 : Req) (x2 : QStatus) (x3 : List Word)
    (hw : [.io, .rsRegs, .rsCnts, .rsPages, .shr, .ras, .pmu, .trc, .free] ⊆ w) (h : SameBut w a x0) :
    SameBut w a (snapAnswer x0 x1 x2 x3) := by
  refine SameBut.next ?_ hw h
  clear hw h
  unfold snapAnswer
  repeat' first
    | with_reducible exact SameBut.refl _ _
    | with_reducible assumption
    | (extract_lets +onlyGivenNames z; first | (refine SameBut.cut (x := z) ?_ (fun _ => ?_) <;> [(unfold z; clear z); clear_value z]) | clear_value z)
    | with_reducible refine SameBut.ite _ _ _ _ _ (fun _ => ?_) (fun _ => ?_)
    | with_reducible refine pageErr_keeps _ _ _ _ _ _ _ (by decide) ?_
    | with_reducible refine snapDone_keeps _ _ _ _ (by decide) ?_
    | with_reducible refine notePoison_keeps _ _ _ _ _ _ (by decide) ?_
    | with_reducible refine epochPlace_keeps _ _ _ _ _ _ (by decide) ?_
    | split
    | with_reducible refine SameBut.set_shr _ _ _ _ (by decide) ?_

end Sys2Proof.Machine
end

