-- ==== Sys2Proof/Laws/Messages.lean ====
section
/-! SUPPORT. What the operations of Messages.lean leave as it was. -/

set_option linter.unusedTactic false
set_option linter.unreachableTactic false
set_option linter.tactic.unusedName false

namespace Sys2Proof.Machine

theorem sendOut_keeps (w : List Part) (a : Core) (x0 : Core) (x1 : Nat) (x2 : Msg) (x3 : Option Nat)
    (hw : [.io, .rsCnts, .isr, .mf, .pp, .pmu] ⊆ w) (h : SameBut w a x0) :
    SameBut w a (sendOut x0 x1 x2 x3) := by
  refine SameBut.next ?_ hw h
  clear hw h
  unfold sendOut
  repeat' first
    | with_reducible exact SameBut.refl _ _
    | with_reducible assumption
    | with_reducible refine sendRemMsg_keeps _ _ _ _ _ _ (by decide) ?_
    | split
    | with_reducible refine SameBut.set_mf _ _ _ _ (by decide) ?_

theorem opSend_keeps (w : List Part) (a : Core) (x0 : Nat) (x1 : Core) (x2 : Nat) (x3 : Word) (x4 : Word)
    (hw : [.io, .rsRegs, .rsCnts, .rsPages, .fe, .queues, .ctxs, .sqs, .isr, .de, .lanes, .st, .mf, .cru, .sched, .tu, .shr, .strm, .pp, .pmu, .trc, .free] ⊆ w) (h : SameBut w a x1) :
    SameBut w a (opSend x0 x1 x2 x3 x4) := by
  refine SameBut.next ?_ hw h
  clear hw h
  unfold opSend
  repeat' first
    | with_reducible exact SameBut.refl _ _
    | with_reducible assumption
    | (extract_lets +onlyGivenNames z; first | (refine SameBut.cut (x := z) ?_ (fun _ => ?_) <;> [(unfold z; clear z); clear_value z]) | clear_value z)
    | with_reducible refine cmdFault_keeps _ _ _ _ _ (by decide) ?_
    | with_reducible refine sendOut_keeps _ _ _ _ _ _ (by decide) ?_
    | with_reducible refine stallAt_keeps _ _ _ _ _ (by decide) ?_
    | split

theorem placePad_keeps (w : List Part) (a : Core) (x0 : Core) (x1 : Nat)
    (hw : [.io, .mf, .pmu] ⊆ w) (h : SameBut w a x0) :
    SameBut w a (placePad x0 x1) := by
  refine SameBut.next ?_ hw h
  clear hw h
  unfold placePad
  repeat' first
    | with_reducible exact SameBut.refl _ _
    | with_reducible assumption
    | (extract_lets +onlyGivenNames z; first | (refine SameBut.cut (x := z) ?_ (fun _ => ?_) <;> [(unfold z; clear z); clear_value z]) | clear_value z)
    | with_reducible refine modRxq_keeps _ _ _ _ _ (by decide) ?_
    | with_reducible refine mpWrite_keeps _ _ _ _ _ _ _ (by decide) ?_

theorem placeMsg_keeps (w : List Part) (a : Core) (x0 : Core) (x1 : Nat) (x2 : Msg)
    (hw : [.io, .mf, .pmu] ⊆ w) (h : SameBut w a x0) :
    SameBut w a (placeMsg x0 x1 x2) := by
  refine SameBut.next ?_ hw h
  clear hw h
  unfold placeMsg
  repeat' first
    | with_reducible exact SameBut.refl _ _
    | with_reducible assumption
    | (extract_lets +onlyGivenNames z; first | (refine SameBut.cut (x := z) ?_ (fun _ => ?_) <;> [(unfold z; clear z); clear_value z]) | clear_value z)
    | with_reducible refine SameBut.ite _ _ _ _ _ (fun _ => ?_) (fun _ => ?_)
    | with_reducible refine modRxq_keeps _ _ _ _ _ (by decide) ?_
    | with_reducible refine mpWrite_keeps _ _ _ _ _ _ _ (by decide) ?_
    | with_reducible refine SameBut.set_mf _ _ _ _ (by decide) ?_

theorem answerMsg_keeps (w : List Part) (a : Core) (x0 : Core) (x1 : MsgFrom) (x2 : Nat)
    (hw : [.io, .rsCnts, .isr, .mf, .pp, .pmu] ⊆ w) (h : SameBut w a x0) :
    SameBut w a (answerMsg x0 x1 x2) := by
  refine SameBut.next ?_ hw h
  clear hw h
  unfold answerMsg
  repeat' first
    | with_reducible exact SameBut.refl _ _
    | with_reducible assumption
    | with_reducible refine SameBut.ite _ _ _ _ _ (fun _ => ?_) (fun _ => ?_)
    | with_reducible refine linkOffer_keeps _ _ _ _ _ _ (by decide) ?_
    | split
    | with_reducible refine SameBut.set_mf _ _ _ _ (by decide) ?_

theorem nackMsg_keeps (w : List Part) (a : Core) (x0 : Core) (x1 : MsgFrom) (x2 : Msg) (x3 : Nat)
    (hw : [.io, .rsCnts, .isr, .lehr, .mf, .pp, .pmu] ⊆ w) (h : SameBut w a x0) :
    SameBut w a (nackMsg x0 x1 x2 x3) := by
  refine SameBut.next ?_ hw h
  clear hw h
  unfold nackMsg
  repeat' first
    | with_reducible exact SameBut.refl _ _
    | with_reducible assumption
    | (extract_lets +onlyGivenNames z; first | (refine SameBut.cut (x := z) ?_ (fun _ => ?_) <;> [(unfold z; clear z); clear_value z]) | (refine SameBut.cut (x := z.2) ?_ (fun _ => ?_) <;> [(unfold z; clear z); clear_value z]) | (refine SameBut.cut (x := z.1) ?_ (fun _ => ?_) <;> [(unfold z; clear z); clear_value z]) | clear_value z)
    | with_reducible refine SameBut.ite _ _ _ _ _ (fun _ => ?_) (fun _ => ?_)
    | with_reducible refine pmuEv_keeps _ _ _ _ _ _ (by decide) ?_
    | with_reducible refine modRxq_keeps _ _ _ _ _ (by decide) ?_
    | with_reducible refine cntAdd_keeps _ _ _ _ _ _ (by decide) ?_
    | with_reducible refine answerMsg_keeps _ _ _ _ _ (by decide) ?_
    | with_reducible refine SameBut.set_lehr _ _ _ _ (by decide) ?_
    | with_reducible refine SameBut.set_mf _ _ _ _ (by decide) ?_
    | ((with_reducible refine SameBut.upd _ _ _ _ _ _ _ _ _ _ _ _ _ _ _ _ _ _ _ _ _ _ _ _ _ _ _ _ _ _ _ _ _ _ _ _ _ _ ?_ ?_); rotate_left; exact (fun p => by cases p <;> first | exact Or.inr rfl | exact Or.inl (by decide) | exact Or.inr ⟨rfl, rfl⟩))

theorem acceptMsg_keeps (w : List Part) (a : Core) (x0 : Core) (x1 : MsgFrom) (x2 : Msg)
    (hw : [.io, .rsCnts, .isr, .mf, .pp, .pmu] ⊆ w) (h : SameBut w a x0) :
    SameBut w a (acceptMsg x0 x1 x2) := by
  refine SameBut.next ?_ hw h
  clear hw h
  unfold acceptMsg
  repeat' first
    | with_reducible exact SameBut.refl _ _
    | with_reducible assumption
    | (extract_lets +onlyGivenNames z; first | (refine SameBut.cut (x := z) ?_ (fun _ => ?_) <;> [(unfold z; clear z); clear_value z]) | clear_value z)
    | with_reducible refine SameBut.ite _ _ _ _ _ (fun _ => ?_) (fun _ => ?_)
    | with_reducible refine pmuEv_keeps _ _ _ _ _ _ (by decide) ?_
    | with_reducible refine cntAdd_keeps _ _ _ _ _ _ (by decide) ?_
    | with_reducible refine placeMsg_keeps _ _ _ _ _ (by decide) ?_
    | with_reducible refine placePad_keeps _ _ _ _ (by decide) ?_
    | with_reducible refine answerMsg_keeps _ _ _ _ _ (by decide) ?_

theorem takeMsg_keeps (w : List Part) (a : Core) (x0 : Core) (x1 : MsgFrom) (x2 : Msg)
    (hw : [.io, .rsRegs, .rsCnts, .rsPages, .fe, .queues, .ctxs, .sqs, .isr, .de, .lanes, .st, .lehr, .mf, .cru, .sched, .tu, .shr, .strm, .pp, .pmu, .trc, .free] ⊆ w) (h : SameBut w a x0) :
    SameBut w a (takeMsg x0 x1 x2) := by
  refine SameBut.next ?_ hw h
  clear hw h
  unfold takeMsg
  repeat' first
    | with_reducible exact SameBut.refl _ _
    | with_reducible assumption
    | (extract_lets +onlyGivenNames z; first | (refine SameBut.cut (x := z) ?_ (fun _ => ?_) <;> [(unfold z; clear z); clear_value z]) | (refine SameBut.cut (x := z.2) ?_ (fun _ => ?_) <;> [(unfold z; clear z); clear_value z]) | (refine SameBut.cut (x := z.1) ?_ (fun _ => ?_) <;> [(unfold z; clear z); clear_value z]) | clear_value z)
    | with_reducible refine SameBut.ite _ _ _ _ _ (fun _ => ?_) (fun _ => ?_)
    | with_reducible refine acceptMsg_keeps _ _ _ _ _ (by decide) ?_
    | with_reducible refine nackMsg_keeps _ _ _ _ _ _ (by decide) ?_
    | with_reducible refine countTake_keeps _ _ _ _ (by decide) ?_
    | with_reducible refine countTake_keeps_eq _ _ _ _ _ _ ‹_› (by decide) ?_
    | split

theorem modRec_keeps (w : List Part) (a : Core) (x0 : Core) (x1 : Nat) (x2 : Nat) (x3 : RingRec → RingRec)
    (hw : [.mf] ⊆ w) (h : SameBut w a x0) :
    SameBut w a (modRec x0 x1 x2 x3) := by
  refine SameBut.next ?_ hw h
  clear hw h
  unfold modRec
  repeat' first
    | with_reducible exact SameBut.refl _ _
    | with_reducible assumption
    | with_reducible refine SameBut.ite _ _ _ _ _ (fun _ => ?_) (fun _ => ?_)
    | with_reducible refine modRxq_keeps _ _ _ _ _ (by decide) ?_

theorem writeHead_keeps (w : List Part) (a : Core) (x0 : Core) (x1 : Nat) (x2 : RingRec)
    (hw : [.io, .mf, .pmu] ⊆ w) (h : SameBut w a x0) :
    SameBut w a (writeHead x0 x1 x2) := by
  refine SameBut.next ?_ hw h
  clear hw h
  unfold writeHead
  repeat' first
    | with_reducible exact SameBut.refl _ _
    | with_reducible assumption
    | (extract_lets +onlyGivenNames z; first | (refine SameBut.cut (x := z) ?_ (fun _ => ?_) <;> [(unfold z; clear z); clear_value z]) | clear_value z)
    | with_reducible refine SameBut.ite _ _ _ _ _ (fun _ => ?_) (fun _ => ?_)
    | with_reducible refine modRec_keeps _ _ _ _ _ _ (by decide) ?_
    | with_reducible refine mpWrite_keeps _ _ _ _ _ _ _ (by decide) ?_

theorem slotBack_keeps (w : List Part) (a : Core) (x0 : Core) (x1 : RingRec)
    (hw : [.mf] ⊆ w) (h : SameBut w a x0) :
    SameBut w a (slotBack x0 x1) := by
  refine SameBut.next ?_ hw h
  clear hw h
  unfold slotBack
  repeat' first
    | with_reducible exact SameBut.refl _ _
    | with_reducible assumption
    | with_reducible refine SameBut.ite _ _ _ _ _ (fun _ => ?_) (fun _ => ?_)
    | with_reducible refine SameBut.set_mf _ _ _ _ (by decide) ?_

theorem recFail_keeps (w : List Part) (a : Core) (x0 : Core) (x1 : Nat) (x2 : Nat)
    (hw : [.rsPages, .mf] ⊆ w) (h : SameBut w a x0) :
    SameBut w a (recFail x0 x1 x2) := by
  refine SameBut.next ?_ hw h
  clear hw h
  unfold recFail
  repeat' first
    | with_reducible exact SameBut.refl _ _
    | with_reducible assumption
    | with_reducible refine pageErr_keeps _ _ _ _ _ _ _ (by decide) ?_
    | with_reducible refine modRec_keeps _ _ _ _ _ _ (by decide) ?_

theorem selTake_keeps (w : List Part) (a : Core) (x0 : Core) (x1 : Nat) (x2 : Nat) (x3 : Nat) (x4 : Nat) (x5 : Bool)
    (hw : [.io, .rsRegs, .rsCnts, .rsPages, .fe, .queues, .ctxs, .sqs, .isr, .de, .lanes, .st, .lehr, .mf, .cru, .sched, .tu, .shr, .strm, .pp, .pmu, .trc, .dbg, .free] ⊆ w) (h : SameBut w a x0) :
    SameBut w a (selTake x0 x1 x2 x3 x4 x5) := by
  refine SameBut.next ?_ hw h
  clear hw h
  unfold selTake
  repeat' first
    | with_reducible exact SameBut.refl _ _
    | with_reducible assumption
    | (extract_lets +onlyGivenNames z; first | (refine SameBut.cut (x := z) ?_ (fun _ => ?_) <;> [(unfold z; clear z); clear_value z]) | clear_value z)
    | with_reducible refine SameBut.ite _ _ _ _ _ (fun _ => ?_) (fun _ => ?_)
    | with_reducible refine moveOn_keeps _ _ _ _ (by decide) ?_
    | with_reducible refine modRxq_keeps _ _ _ _ _ (by decide) ?_
    | with_reducible refine setSreg_keeps _ _ _ _ _ _ (by decide) ?_
    | with_reducible refine modSq_keeps _ _ _ _ _ (by decide) ?_
    | split
    | with_reducible refine SameBut.set_lehr _ _ _ _ (by decide) ?_

theorem opSelect_keeps (w : List Part) (a : Core) (x0 : Nat) (x1 : Core) (x2 : Nat) (x3 : Word) (x4 : Word)
    (hw : [.io, .rsRegs, .rsCnts, .rsPages, .fe, .queues, .ctxs, .sqs, .isr, .de, .lanes, .st, .lehr, .mf, .cru, .sched, .tu, .shr, .strm, .pp, .pmu, .trc, .dbg, .free] ⊆ w) (h : SameBut w a x1) :
    SameBut w a (opSelect x0 x1 x2 x3 x4) := by
  refine SameBut.next ?_ hw h
  clear hw h
  unfold opSelect
  repeat' first
    | with_reducible exact SameBut.refl _ _
    | with_reducible assumption
    | (extract_lets +onlyGivenNames z; first | (refine SameBut.cut (x := z) ?_ (fun _ => ?_) <;> [(unfold z; clear z); clear_value z]) | clear_value z)
    | with_reducible refine SameBut.ite _ _ _ _ _ (fun _ => ?_) (fun _ => ?_)
    | with_reducible refine moveOn_keeps _ _ _ _ (by decide) ?_
    | with_reducible refine lateSave_keeps _ _ _ _ (by decide) ?_
    | with_reducible refine setSreg_keeps _ _ _ _ _ _ (by decide) ?_
    | with_reducible refine cmdFault_keeps _ _ _ _ _ (by decide) ?_
    | with_reducible refine stallAt_keeps _ _ _ _ _ (by decide) ?_
    | with_reducible refine selTake_keeps _ _ _ _ _ _ _ _ (by decide) ?_
    | with_reducible refine rxGiveBack_keeps _ _ _ _ (by decide) ?_
    | split

theorem pollSelect_keeps (w : List Part) (a : Core) (x0 : Core) (x1 : Nat)
    (hw : [.io, .rsRegs, .rsCnts, .rsPages, .fe, .queues, .ctxs, .sqs, .isr, .de, .lanes, .st, .lehr, .mf, .cru, .sched, .tu, .shr, .strm, .pp, .pmu, .trc, .dbg, .free] ⊆ w) (h : SameBut w a x0) :
    SameBut w a (pollSelect x0 x1) := by
  refine SameBut.next ?_ hw h
  clear hw h
  unfold pollSelect
  repeat' first
    | with_reducible exact SameBut.refl _ _
    | with_reducible assumption
    | with_reducible refine SameBut.ite _ _ _ _ _ (fun _ => ?_) (fun _ => ?_)
    | with_reducible refine selTake_keeps _ _ _ _ _ _ _ _ (by decide) ?_
    | split

theorem selectGone_keeps (w : List Part) (a : Core) (x0 : Core) (x1 : Nat) (x2 : Nat)
    (hw : [.io, .rsRegs, .rsCnts, .rsPages, .fe, .queues, .ctxs, .sqs, .isr, .de, .lanes, .st, .mf, .cru, .sched, .tu, .shr, .strm, .pp, .pmu, .trc, .free] ⊆ w) (h : SameBut w a x0) :
    SameBut w a (selectGone x0 x1 x2) := by
  refine SameBut.next ?_ hw h
  clear hw h
  unfold selectGone
  repeat' first
    | with_reducible exact SameBut.refl _ _
    | with_reducible assumption
    | with_reducible refine SameBut.ite _ _ _ _ _ (fun _ => ?_) (fun _ => ?_)
    | with_reducible refine cmdFault_keeps _ _ _ _ _ (by decide) ?_
    | with_reducible refine SameBut.fold _ _ _ _ _ (fun _ _ => ?_) ?_
    | split

theorem writeRxqCtrl_keeps (w : List Part) (a : Core) (x0 : Core) (x1 : Reg)
    (hw : [.mf] ⊆ w) (h : SameBut w a x0) :
    SameBut w a (writeRxqCtrl x0 x1) := by
  refine SameBut.next ?_ hw h
  clear hw h
  unfold writeRxqCtrl
  repeat' first
    | with_reducible exact SameBut.refl _ _
    | with_reducible assumption
    | (extract_lets +onlyGivenNames z; first | (refine SameBut.cut (x := z) ?_ (fun _ => ?_) <;> [(unfold z; clear z); clear_value z]) | clear_value z)
    | with_reducible refine SameBut.ite _ _ _ _ _ (fun _ => ?_) (fun _ => ?_)
    | with_reducible refine modRxq_keeps _ _ _ _ _ (by decide) ?_

theorem landCheck_keeps (w : List Part) (a : Core) (x0 : Core) (x1 : Nat)
    (hw : [.rsPages, .mf] ⊆ w) (h : SameBut w a x0) :
    SameBut w a (landCheck x0 x1) := by
  refine SameBut.next ?_ hw h
  clear hw h
  unfold landCheck
  repeat' first
    | with_reducible exact SameBut.refl _ _
    | with_reducible assumption
    | (extract_lets +onlyGivenNames z; first | (refine SameBut.cut (x := z) ?_ (fun _ => ?_) <;> [(unfold z; clear z); clear_value z]) | clear_value z)
    | with_reducible refine SameBut.ite _ _ _ _ _ (fun _ => ?_) (fun _ => ?_)
    | with_reducible refine pageErr_keeps _ _ _ _ _ _ _ (by decide) ?_
    | with_reducible refine modRxq_keeps _ _ _ _ _ (by decide) ?_

theorem writeLandHi_keeps (w : List Part) (a : Core) (x0 : Core) (x1 : Option Reg) (x2 : Reg)
    (hw : [.rsPages, .mf] ⊆ w) (h : SameBut w a x0) :
    SameBut w a (writeLandHi x0 x1 x2) := by
  refine SameBut.next ?_ hw h
  clear hw h
  unfold writeLandHi
  repeat' first
    | with_reducible exact SameBut.refl _ _
    | with_reducible assumption
    | (extract_lets +onlyGivenNames z; first | (refine SameBut.cut (x := z) ?_ (fun _ => ?_) <;> [(unfold z; clear z); clear_value z]) | clear_value z)
    | with_reducible refine SameBut.ite _ _ _ _ _ (fun _ => ?_) (fun _ => ?_)
    | with_reducible refine landCheck_keeps _ _ _ _ (by decide) ?_
    | with_reducible refine modRxq_keeps _ _ _ _ _ (by decide) ?_
    | split

theorem writeLandSize_keeps (w : List Part) (a : Core) (x0 : Core) (x1 : Reg)
    (hw : [.rsPages, .mf] ⊆ w) (h : SameBut w a x0) :
    SameBut w a (writeLandSize x0 x1) := by
  refine SameBut.next ?_ hw h
  clear hw h
  unfold writeLandSize
  repeat' first
    | with_reducible exact SameBut.refl _ _
    | with_reducible assumption
    | (extract_lets +onlyGivenNames z; first | (refine SameBut.cut (x := z) ?_ (fun _ => ?_) <;> [(unfold z; clear z); clear_value z]) | clear_value z)
    | with_reducible refine SameBut.ite _ _ _ _ _ (fun _ => ?_) (fun _ => ?_)
    | with_reducible refine landCheck_keeps _ _ _ _ (by decide) ?_
    | with_reducible refine modRxq_keeps _ _ _ _ _ (by decide) ?_

end Sys2Proof.Machine
end

