-- ==== Sys2Proof/Laws/LaneOps.lean ====
section
/-! SUPPORT. What the operations of LaneOps.lean leave as it was. -/

set_option linter.unusedTactic false
set_option linter.unreachableTactic false
set_option linter.tactic.unusedName false

namespace Sys2Proof.Machine

theorem wakeEng_keeps (w : List Part) (a : Core) (x0 : Core) (x1 : Nat)
    (hw : [.engs] ⊆ w) (h : SameBut w a x0) :
    SameBut w a (wakeEng x0 x1) := by
  refine SameBut.next ?_ hw h
  clear hw h
  unfold wakeEng
  repeat' first
    | with_reducible exact SameBut.refl _ _
    | with_reducible assumption
    | with_reducible refine modEng_keeps _ _ _ _ _ (by decide) ?_

theorem wakeSpan_keeps (w : List Part) (a : Core) (x0 : Core) (x1 : Nat) (x2 : Nat)
    (hw : [.engs] ⊆ w) (h : SameBut w a x0) :
    SameBut w a (wakeSpan x0 x1 x2) := by
  refine SameBut.next ?_ hw h
  clear hw h
  unfold wakeSpan
  repeat' first
    | with_reducible exact SameBut.refl _ _
    | with_reducible assumption
    | with_reducible refine wakeEng_keeps _ _ _ _ (by decide) ?_
    | with_reducible refine SameBut.fold _ _ _ _ _ (fun _ _ => ?_) ?_

theorem restEng_keeps (w : List Part) (a : Core) (x0 : Core) (x1 : Nat)
    (hw : [.engs] ⊆ w) (h : SameBut w a x0) :
    SameBut w a (restEng x0 x1) := by
  refine SameBut.next ?_ hw h
  clear hw h
  unfold restEng
  repeat' first
    | with_reducible exact SameBut.refl _ _
    | with_reducible assumption
    | with_reducible refine SameBut.ite _ _ _ _ _ (fun _ => ?_) (fun _ => ?_)
    | with_reducible refine modEng_keeps _ _ _ _ _ (by decide) ?_
    | split

theorem restSpan_keeps (w : List Part) (a : Core) (x0 : Core) (x1 : Nat) (x2 : Nat)
    (hw : [.engs] ⊆ w) (h : SameBut w a x0) :
    SameBut w a (restSpan x0 x1 x2) := by
  refine SameBut.next ?_ hw h
  clear hw h
  unfold restSpan
  repeat' first
    | with_reducible exact SameBut.refl _ _
    | with_reducible assumption
    | with_reducible refine restEng_keeps _ _ _ _ (by decide) ?_
    | with_reducible refine SameBut.fold _ _ _ _ _ (fun _ _ => ?_) ?_

theorem mixStep_keeps (w : List Part) (a : Core) (x0 : Core) (x1 : Nat)
    (hw : [.marv] ⊆ w) (h : SameBut w a x0) :
    SameBut w a (mixStep x0 x1) := by
  refine SameBut.next ?_ hw h
  clear hw h
  unfold mixStep
  repeat' first
    | with_reducible exact SameBut.refl _ _
    | with_reducible assumption
    | with_reducible refine SameBut.set_marv _ _ _ _ (by decide) ?_

theorem driveIssue_keeps (w : List Part) (a : Core) (x0 : Core) (x1 : Nat) (x2 : Issue) (x3 : IssueArgs)
    (hw : [.io, .engs, .rsCnts, .lanes, .sched, .pmu, .trc] ⊆ w) (h : SameBut w a x0) :
    SameBut w a (driveIssue x0 x1 x2 x3) := by
  refine SameBut.next ?_ hw h
  clear hw h
  unfold driveIssue
  repeat' first
    | with_reducible exact SameBut.refl _ _
    | with_reducible assumption
    | (extract_lets +onlyGivenNames z; first | (refine SameBut.cut (x := z) ?_ (fun _ => ?_) <;> [(unfold z; clear z); clear_value z]) | clear_value z)
    | with_reducible refine SameBut.ite _ _ _ _ _ (fun _ => ?_) (fun _ => ?_)
    | with_reducible refine pmuEv_keeps _ _ _ _ _ _ (by decide) ?_
    | with_reducible refine emit_keeps _ _ _ _ (by decide) ?_
    | with_reducible refine modLane_keeps _ _ _ _ _ (by decide) ?_
    | with_reducible refine cntAdd_keeps _ _ _ _ _ _ (by decide) ?_
    | with_reducible refine wakeSpan_keeps _ _ _ _ _ (by decide) ?_
    | with_reducible refine modSched_keeps _ _ _ _ _ (by decide) ?_
    | with_reducible refine trace_keeps _ _ _ _ _ _ _ _ _ _ (by decide) ?_
    | split

theorem noteVaries_keeps (w : List Part) (a : Core) (x0 : Core) (x1 : Nat) (x2 : Nat) (x3 : Nat)
    (hw : [.rsCnts, .rsPages, .det, .trc] ⊆ w) (h : SameBut w a x0) :
    SameBut w a (noteVaries x0 x1 x2 x3) := by
  refine SameBut.next ?_ hw h
  clear hw h
  unfold noteVaries
  repeat' first
    | with_reducible exact SameBut.refl _ _
    | with_reducible assumption
    | (extract_lets +onlyGivenNames z; first | (refine SameBut.cut (x := z) ?_ (fun _ => ?_) <;> [(unfold z; clear z); clear_value z]) | clear_value z)
    | with_reducible refine SameBut.ite _ _ _ _ _ (fun _ => ?_) (fun _ => ?_)
    | with_reducible refine reproVaries_keeps _ _ _ _ _ _ (by decide) ?_
    | with_reducible refine trace_keeps _ _ _ _ _ _ _ _ _ _ (by decide) ?_

theorem lookupIssued_keeps (w : List Part) (a : Core) (x0 : Core) (x1 : Nat) (x2 : Nat)
    (hw : [.rsCnts, .lkp] ⊆ w) (h : SameBut w a x0) :
    SameBut w a (lookupIssued x0 x1 x2) := by
  refine SameBut.next ?_ hw h
  clear hw h
  unfold lookupIssued
  repeat' first
    | with_reducible exact SameBut.refl _ _
    | with_reducible assumption
    | (extract_lets +onlyGivenNames z; first | (refine SameBut.cut (x := z) ?_ (fun _ => ?_) <;> [(unfold z; clear z); clear_value z]) | clear_value z)
    | with_reducible refine SameBut.ite _ _ _ _ _ (fun _ => ?_) (fun _ => ?_)
    | with_reducible refine cntAdd_keeps _ _ _ _ _ _ (by decide) ?_
    | with_reducible refine SameBut.set_lkp _ _ _ _ (by decide) ?_

theorem issueTask_keeps (w : List Part) (a : Core) (x0 : Core) (x1 : Nat) (x2 : Ready) (x3 : Nat) (x4 : Nat) (x5 : Option Nat) (x6 : Nat)
    (hw : [.io, .engs, .rsCnts, .rsPages, .queues, .isr, .lanes, .sched, .marv, .lkp, .det, .pmu, .trc] ⊆ w) (h : SameBut w a x0) :
    SameBut w a (issueTask x0 x1 x2 x3 x4 x5 x6) := by
  refine SameBut.next ?_ hw h
  clear hw h
  unfold issueTask
  repeat' first
    | with_reducible exact SameBut.refl _ _
    | with_reducible assumption
    | (extract_lets +onlyGivenNames z; first | (refine SameBut.cut (x := z) ?_ (fun _ => ?_) <;> [(unfold z; clear z); clear_value z]) | clear_value z)
    | with_reducible refine SameBut.ite _ _ _ _ _ (fun _ => ?_) (fun _ => ?_)
    | with_reducible refine driveIssue_keeps _ _ _ _ _ _ (by decide) ?_
    | with_reducible refine noteVaries_keeps _ _ _ _ _ _ (by decide) ?_
    | with_reducible refine patchUse_keeps _ _ _ _ (by decide) ?_
    | with_reducible refine lookupIssued_keeps _ _ _ _ _ (by decide) ?_
    | with_reducible refine pointTimer_keeps _ _ _ _ (by decide) ?_
    | with_reducible refine modQ_keeps _ _ _ _ _ (by decide) ?_
    | with_reducible refine mixStep_keeps _ _ _ _ (by decide) ?_
    | with_reducible refine modInst_keeps _ _ _ _ _ (by decide) ?_

end Sys2Proof.Machine
end

