-- ==== Sys2Proof/Laws/GsOps.lean ====
section
/-! SUPPORT. What the operations of GsOps.lean leave as it was. -/

set_option linter.unusedTactic false
set_option linter.unreachableTactic false
set_option linter.tactic.unusedName false

namespace Sys2Proof.Machine

theorem setKind_keeps (w : List Part) (a : Core) (x0 : Core) (x1 : Nat) (x2 : Nat)
    (hw : [.gs] ⊆ w) (h : SameBut w a x0) :
    SameBut w a (setKind x0 x1 x2) := by
  refine SameBut.next ?_ hw h
  clear hw h
  unfold setKind
  repeat' first
    | with_reducible exact SameBut.refl _ _
    | with_reducible assumption
    | with_reducible refine SameBut.set_gs _ _ _ _ (by decide) ?_

theorem freeBlock_keeps (w : List Part) (a : Core) (x0 : Core) (x1 : Nat)
    (hw : [.gs] ⊆ w) (h : SameBut w a x0) :
    SameBut w a (freeBlock x0 x1) := by
  refine SameBut.next ?_ hw h
  clear hw h
  unfold freeBlock
  repeat' first
    | with_reducible exact SameBut.refl _ _
    | with_reducible assumption
    | (extract_lets +onlyGivenNames z; first | (refine SameBut.cut (x := z) ?_ (fun _ => ?_) <;> [(unfold z; clear z); clear_value z]) | clear_value z)
    | with_reducible refine setKind_keeps _ _ _ _ _ (by decide) ?_
    | with_reducible refine SameBut.set_gs _ _ _ _ (by decide) ?_

theorem freeEdges_keeps (w : List Part) (a : Core) (x0 : Core) (x1 : Nat) (x2 : Nat)
    (hw : [.gs] ⊆ w) (h : SameBut w a x0) :
    SameBut w a (freeEdges x0 x1 x2) := by
  refine SameBut.next ?_ hw h
  clear hw h
  unfold freeEdges
  repeat' first
    | with_reducible exact SameBut.refl _ _
    | with_reducible assumption
    | (extract_lets +onlyGivenNames z; first | (refine SameBut.cut (x := z) ?_ (fun _ => ?_) <;> [(unfold z; clear z); clear_value z]) | clear_value z)
    | with_reducible refine SameBut.fold _ _ _ _ _ (fun _ _ => ?_) ?_
    | with_reducible refine SameBut.set_gs _ _ _ _ (by decide) ?_

theorem freeVersion_keeps (w : List Part) (a : Core) (x0 : Core) (x1 : Nat) (x2 : Version)
    (hw : [.gs] ⊆ w) (h : SameBut w a x0) :
    SameBut w a (freeVersion x0 x1 x2) := by
  refine SameBut.next ?_ hw h
  refine modImg_keeps _ _ _ _ _ (by decide) (SameBut.fold_fst _ _ _ _ _ (fun p b => ?_) (freeBlock_keeps _ _ _ _ (by decide) (SameBut.refl _ _)))
  unfold unshare
  extract_lets n
  split
  · exact freeBlock_keeps _ _ _ _ (by decide) (SameBut.refl _ _)
  · exact modBlock_keeps _ _ _ _ _ (by decide) (SameBut.refl _ _)

theorem gsAnswer_keeps (w : List Part) (a : Core) (x0 : Core) (x1 : Hdr) (x2 : Nat) (x3 : Nat) (x4 : Nat)
    (hw : [.io, .rsRegs, .rsCnts, .rsPages, .fe, .pmu] ⊆ w) (h : SameBut w a x0) :
    SameBut w a (gsAnswer x0 x1 x2 x3 x4) := by
  refine SameBut.next ?_ hw h
  clear hw h
  unfold gsAnswer
  repeat' first
    | with_reducible exact SameBut.refl _ _
    | with_reducible assumption
    | with_reducible refine answer_keeps _ _ _ _ _ _ _ _ (by decide) ?_

theorem unloadStep_keeps (w : List Part) (a : Core) (x0 : Core) (x1 : Nat)
    (hw : [.io, .rsRegs, .rsCnts, .rsPages, .fe, .ctxs, .gs, .pmu] ⊆ w) (h : SameBut w a x0) :
    SameBut w a (unloadStep x0 x1) := by
  refine SameBut.next ?_ hw h
  clear hw h
  unfold unloadStep
  repeat' first
    | with_reducible exact SameBut.refl _ _
    | with_reducible assumption
    | (extract_lets +onlyGivenNames z; first | (refine SameBut.cut (x := z) ?_ (fun _ => ?_) <;> [(unfold z; clear z); clear_value z]) | clear_value z)
    | with_reducible refine SameBut.ite _ _ _ _ _ (fun _ => ?_) (fun _ => ?_)
    | with_reducible refine gsAnswer_keeps _ _ _ _ _ _ _ (by decide) ?_
    | with_reducible refine modImg_keeps _ _ _ _ _ (by decide) ?_
    | with_reducible refine freeEdges_keeps _ _ _ _ _ (by decide) ?_
    | with_reducible refine otPump_keeps _ _ _ (by decide) ?_
    | with_reducible refine freeBlock_keeps _ _ _ _ (by decide) ?_
    | split
    | with_reducible refine SameBut.set_fe _ _ _ _ (by decide) ?_

theorem sweepGraph_keeps (w : List Part) (a : Core) (x0 : Core) (x1 : Nat)
    (hw : [.io, .rsRegs, .rsCnts, .rsPages, .fe, .ctxs, .gs, .pmu] ⊆ w) (h : SameBut w a x0) :
    SameBut w a (sweepGraph x0 x1) := by
  refine SameBut.next ?_ hw h
  clear hw h
  unfold sweepGraph
  repeat' first
    | with_reducible exact SameBut.refl _ _
    | with_reducible assumption
    | (extract_lets +onlyGivenNames z; first | (refine SameBut.cut (x := z) ?_ (fun _ => ?_) <;> [(unfold z; clear z); clear_value z]) | clear_value z)
    | with_reducible refine freeVersion_keeps _ _ _ _ _ (by decide) ?_
    | with_reducible refine unloadStep_keeps _ _ _ _ (by decide) ?_
    | with_reducible refine SameBut.fold _ _ _ _ _ (fun _ _ => ?_) ?_

theorem versionInsts_keeps (w : List Part) (a : Core) (x0 : Core) (x1 : Nat) (x2 : Nat) (x3 : Bool)
    (hw : [.gs] ⊆ w) (h : SameBut w a x0) :
    SameBut w a (versionInsts x0 x1 x2 x3) := by
  refine SameBut.next ?_ hw h
  clear hw h
  unfold versionInsts
  repeat' first
    | with_reducible exact SameBut.refl _ _
    | with_reducible assumption
    | with_reducible refine SameBut.ite _ _ _ _ _ (fun _ => ?_) (fun _ => ?_)
    | with_reducible refine modImg_keeps _ _ _ _ _ (by decide) ?_

theorem poisonTear_keeps (w : List Part) (a : Core) (x0 : Core) (x1 : Nat)
    (hw : [.io, .rsRegs, .rsCnts, .rsPages, .fe, .ctxs, .ras, .pmu, .trc] ⊆ w) (h : SameBut w a x0) :
    SameBut w a (poisonTear x0 x1) := by
  refine SameBut.next ?_ hw h
  clear hw h
  unfold poisonTear
  repeat' first
    | with_reducible exact SameBut.refl _ _
    | with_reducible assumption
    | with_reducible refine contain_keeps _ _ _ _ (by decide) ?_

theorem shadowCheck_keeps (w : List Part) (a : Core) (x0 : Core)
    (hw : [.rsPages, .tbl] ⊆ w) (h : SameBut w a x0) :
    SameBut w a (shadowCheck x0) := by
  refine SameBut.next ?_ hw h
  clear hw h
  unfold shadowCheck
  repeat' first
    | with_reducible exact SameBut.refl _ _
    | with_reducible assumption
    | with_reducible refine SameBut.ite _ _ _ _ _ (fun _ => ?_) (fun _ => ?_)
    | with_reducible refine irqSet_keeps _ _ _ _ _ (by decide) ?_
    | with_reducible refine SameBut.set_tbl _ _ _ _ (by decide) ?_

theorem bindEpoch_keeps (w : List Part) (a : Core) (x0 : Core) (x1 : Nat)
    (hw : [.isr, .tbl] ⊆ w) (h : SameBut w a x0) :
    SameBut w a (bindEpoch x0 x1) := by
  refine SameBut.next ?_ hw h
  clear hw h
  unfold bindEpoch
  repeat' first
    | with_reducible exact SameBut.refl _ _
    | with_reducible assumption
    | (extract_lets +onlyGivenNames z; first | (refine SameBut.cut (x := z) ?_ (fun _ => ?_) <;> [(unfold z; clear z); clear_value z]) | clear_value z)
    | with_reducible refine SameBut.ite _ _ _ _ _ (fun _ => ?_) (fun _ => ?_)
    | with_reducible refine modInst_keeps _ _ _ _ _ (by decide) ?_
    | with_reducible refine SameBut.set_tbl _ _ _ _ (by decide) ?_

theorem unbindEpoch_keeps (w : List Part) (a : Core) (x0 : Core) (x1 : Nat)
    (hw : [.rsPages, .tbl] ⊆ w) (h : SameBut w a x0) :
    SameBut w a (unbindEpoch x0 x1) := by
  refine SameBut.next ?_ hw h
  clear hw h
  unfold unbindEpoch
  repeat' first
    | with_reducible exact SameBut.refl _ _
    | with_reducible assumption
    | (extract_lets +onlyGivenNames z; first | (refine SameBut.cut (x := z) ?_ (fun _ => ?_) <;> [(unfold z; clear z); clear_value z]) | clear_value z)
    | with_reducible refine SameBut.ite _ _ _ _ _ (fun _ => ?_) (fun _ => ?_)
    | with_reducible refine shadowCheck_keeps _ _ _ (by decide) ?_
    | with_reducible refine SameBut.set_tbl _ _ _ _ (by decide) ?_

end Sys2Proof.Machine
end

