-- ==== Sys2Proof/Laws/Instances.lean ====
section
/-! SUPPORT. What the operations of Instances.lean leave as it was. -/

set_option linter.unusedTactic false
set_option linter.unreachableTactic false
set_option linter.tactic.unusedName false

namespace Sys2Proof.Machine

theorem takeRun_keeps (w : List Part) (a : Core) (x0 : Core) (x1 : Nat) (y d)
    (e : takeRun x0 x1 = some (y, d)) (hw : [.free] ⊆ w) (h : SameBut w a x0) :
    SameBut w a d := by
  refine SameBut.next ?_ hw h
  clear hw h
  unfold takeRun at e
  repeat' first
    | (cases e)
    | with_reducible exact SameBut.refl _ _
    | with_reducible assumption
    | (extract_lets +onlyGivenNames z; first | (refine SameBut.cut (x := z) ?_ (fun _ => ?_) <;> [(unfold z; clear z); clear_value z]) | clear_value z)
    | with_reducible refine freeNat_keeps _ _ _ (by decide) ?_
    | with_reducible refine freeNat_keeps_eq _ _ _ _ _ ‹_› (by decide) ?_
    | split
    | (injection e with e; subst e)
    | dsimp only at e
    | split at e

theorem compact_keeps (w : List Part) (a : Core) (x0 : Core)
    (hw : [.isr] ⊆ w) (h : SameBut w a x0) :
    SameBut w a (compact x0) := by
  refine SameBut.next ?_ hw h
  clear hw h
  unfold compact
  repeat' first
    | with_reducible exact SameBut.refl _ _
    | with_reducible assumption
    | (extract_lets +onlyGivenNames z; first | (refine SameBut.cut (x := z) ?_ (fun _ => ?_) <;> [(unfold z; clear z); clear_value z]) | clear_value z)
    | with_reducible refine modInst_keeps _ _ _ _ _ (by decide) ?_
    | with_reducible refine SameBut.fold _ _ _ _ _ (fun _ _ => ?_) ?_
    | with_reducible refine SameBut.set_isr _ _ _ _ (by decide) ?_

theorem releaseRoots_keeps (w : List Part) (a : Core) (x0 : Core) (x1 : Nat)
    (hw : [.isr, .de] ⊆ w) (h : SameBut w a x0) :
    SameBut w a (releaseRoots x0 x1) := by
  refine SameBut.next ?_ hw h
  clear hw h
  unfold releaseRoots
  repeat' first
    | with_reducible exact SameBut.refl _ _
    | with_reducible assumption
    | with_reducible refine taskReady_keeps _ _ _ _ _ (by decide) ?_
    | with_reducible refine SameBut.fold _ _ _ _ _ (fun _ _ => ?_) ?_

theorem tryRelease_keeps (w : List Part) (a : Core) (x0 : Core) (x1 : Nat)
    (hw : [.isr, .de, .tbl] ⊆ w) (h : SameBut w a x0) :
    SameBut w a (tryRelease x0 x1) := by
  refine SameBut.next ?_ hw h
  clear hw h
  unfold tryRelease
  repeat' first
    | with_reducible exact SameBut.refl _ _
    | with_reducible assumption
    | (extract_lets +onlyGivenNames z; first | (refine SameBut.cut (x := z) ?_ (fun _ => ?_) <;> [(unfold z; clear z); clear_value z]) | clear_value z)
    | with_reducible refine SameBut.ite _ _ _ _ _ (fun _ => ?_) (fun _ => ?_)
    | with_reducible refine bindEpoch_keeps _ _ _ _ (by decide) ?_
    | with_reducible refine releaseRoots_keeps _ _ _ _ (by decide) ?_
    | with_reducible refine modInst_keeps _ _ _ _ _ (by decide) ?_
    | split

theorem acceptLaunch_keeps (w : List Part) (a : Core) (x0 : Core) (x1 : Offer) (x2 : Nat) (x3 : Nat) (x4 : Nat) (x5 : Version)
    (hw : [.io, .rsRegs, .rsCnts, .rsPages, .fe, .queues, .ctxs, .sqs, .gs, .isr, .de, .lanes, .st, .mf, .cru, .sched, .tu, .shr, .strm, .tbl, .pp, .pmu, .trc, .dbg, .free] ⊆ w) (h : SameBut w a x0) :
    SameBut w a (acceptLaunch x0 x1 x2 x3 x4 x5) := by
  refine SameBut.next ?_ hw h
  clear hw h
  unfold acceptLaunch
  repeat' first
    | with_reducible exact SameBut.refl _ _
    | with_reducible assumption
    | (extract_lets +onlyGivenNames z; first | (refine SameBut.cut (x := z) ?_ (fun _ => ?_) <;> [(unfold z; clear z); clear_value z]) | clear_value z)
    | with_reducible refine SameBut.ite _ _ _ _ _ (fun _ => ?_) (fun _ => ?_)
    | with_reducible refine pageErr_keeps _ _ _ _ _ _ _ (by decide) ?_
    | with_reducible refine moveOn_keeps _ _ _ _ (by decide) ?_
    | with_reducible refine alarmAdd_keeps _ _ _ _ _ _ (by decide) ?_
    | with_reducible refine modQ_keeps _ _ _ _ _ (by decide) ?_
    | with_reducible refine bindEpoch_keeps _ _ _ _ (by decide) ?_
    | with_reducible refine mpRead_keeps _ _ _ _ _ _ _ (by decide) ?_
    | with_reducible refine modSq_keeps _ _ _ _ _ (by decide) ?_
    | with_reducible refine versionInsts_keeps _ _ _ _ _ _ (by decide) ?_
    | with_reducible refine trace_keeps _ _ _ _ _ _ _ _ _ _ (by decide) ?_
    | with_reducible refine modInst_keeps _ _ _ _ _ (by decide) ?_
    | split
    | with_reducible refine SameBut.set_isr _ _ _ _ (by decide) ?_

theorem dropOffer_keeps (w : List Part) (a : Core) (x0 : Core) (x1 : Offer)
    (hw : [.isr] ⊆ w) (h : SameBut w a x0) :
    SameBut w a (dropOffer x0 x1) := by
  refine SameBut.next ?_ hw h
  clear hw h
  unfold dropOffer
  repeat' first
    | with_reducible exact SameBut.refl _ _
    | with_reducible assumption
    | with_reducible refine SameBut.set_isr _ _ _ _ (by decide) ?_

theorem judgeOffer_keeps (w : List Part) (a : Core) (x0 : Core) (x1 : Offer) (x2 : Nat)
    (hw : [.io, .rsRegs, .rsCnts, .rsPages, .fe, .queues, .ctxs, .sqs, .gs, .isr, .de, .lanes, .st, .mf, .cru, .sched, .tu, .shr, .strm, .tbl, .pp, .pmu, .trc, .dbg, .free] ⊆ w) (h : SameBut w a x0) :
    SameBut w a (judgeOffer x0 x1 x2) := by
  refine SameBut.next ?_ hw h
  clear hw h
  unfold judgeOffer
  repeat' first
    | with_reducible exact SameBut.refl _ _
    | with_reducible assumption
    | (extract_lets +onlyGivenNames z; first | (refine SameBut.cut (x := z) ?_ (fun _ => ?_) <;> [(unfold z; clear z); clear_value z]) | clear_value z)
    | with_reducible refine SameBut.ite _ _ _ _ _ (fun _ => ?_) (fun _ => ?_)
    | with_reducible refine markOffers_keeps _ _ _ _ (by decide) ?_
    | with_reducible refine cntAdd_keeps _ _ _ _ _ _ (by decide) ?_
    | with_reducible refine acceptLaunch_keeps _ _ _ _ _ _ _ _ (by decide) ?_
    | with_reducible refine cmdFault_keeps _ _ _ _ _ (by decide) ?_
    | with_reducible refine dropOffer_keeps _ _ _ _ (by decide) ?_
    | with_reducible refine takeRun_keeps _ _ _ _ _ _ ‹_› (by decide) ?_
    | split
    | with_reducible refine SameBut.set_isr _ _ _ _ (by decide) ?_
    | with_reducible refine SameBut.set_pp _ _ _ _ (by decide) ?_

theorem initCtrs_keeps (w : List Part) (a : Core) (x0 : Core) (x1 : Nat)
    (hw : [.isr] ⊆ w) (h : SameBut w a x0) :
    SameBut w a (initCtrs x0 x1) := by
  refine SameBut.next ?_ hw h
  clear hw h
  unfold initCtrs
  repeat' first
    | with_reducible exact SameBut.refl _ _
    | with_reducible assumption
    | (extract_lets +onlyGivenNames z; first | (refine SameBut.cut (x := z) ?_ (fun _ => ?_) <;> [(unfold z; clear z); clear_value z]) | clear_value z)
    | with_reducible refine ctrSet_keeps _ _ _ _ _ _ (by decide) ?_
    | with_reducible refine SameBut.fold _ _ _ _ _ (fun _ _ => ?_) ?_

theorem openInst_keeps (w : List Part) (a : Core) (x0 : Core) (x1 : Nat)
    (hw : [.io, .rsCnts, .isr, .de, .tbl, .pmu] ⊆ w) (h : SameBut w a x0) :
    SameBut w a (openInst x0 x1) := by
  refine SameBut.next ?_ hw h
  clear hw h
  unfold openInst
  repeat' first
    | with_reducible exact SameBut.refl _ _
    | with_reducible assumption
    | (extract_lets +onlyGivenNames z; first | (refine SameBut.cut (x := z) ?_ (fun _ => ?_) <;> [(unfold z; clear z); clear_value z]) | clear_value z)
    | with_reducible refine SameBut.ite _ _ _ _ _ (fun _ => ?_) (fun _ => ?_)
    | with_reducible refine pmuEv_keeps _ _ _ _ _ _ (by decide) ?_
    | with_reducible refine patchInsert_keeps _ _ _ _ _ (by decide) ?_
    | with_reducible refine tryRelease_keeps _ _ _ _ (by decide) ?_
    | with_reducible refine cntAdd_keeps _ _ _ _ _ _ (by decide) ?_
    | with_reducible refine releaseRoots_keeps _ _ _ _ (by decide) ?_
    | with_reducible refine modInst_keeps _ _ _ _ _ (by decide) ?_
    | with_reducible refine initCtrs_keeps _ _ _ _ (by decide) ?_

theorem latePredict_keeps (w : List Part) (a : Core) (x0 : Core) (x1 : Nat)
    (hw : [.rsCnts, .rsPages, .isr, .sched] ⊆ w) (h : SameBut w a x0) :
    SameBut w a (latePredict x0 x1) := by
  refine SameBut.next ?_ hw h
  clear hw h
  unfold latePredict
  repeat' first
    | with_reducible exact SameBut.refl _ _
    | with_reducible assumption
    | (extract_lets +onlyGivenNames z; first | (refine SameBut.cut (x := z) ?_ (fun _ => ?_) <;> [(unfold z; clear z); clear_value z]) | clear_value z)
    | with_reducible refine SameBut.ite _ _ _ _ _ (fun _ => ?_) (fun _ => ?_)
    | with_reducible refine cntAdd_keeps _ _ _ _ _ _ (by decide) ?_
    | with_reducible refine irqSet_keeps _ _ _ _ _ (by decide) ?_
    | with_reducible refine modInst_keeps _ _ _ _ _ (by decide) ?_
    | split
    | with_reducible refine SameBut.set_sched _ _ _ _ (by decide) ?_

theorem slowUpdate_keeps (w : List Part) (a : Core) (x0 : Core) (x1 : Nat)
    (hw : [.rsPages, .sched] ⊆ w) (h : SameBut w a x0) :
    SameBut w a (slowUpdate x0 x1) := by
  refine SameBut.next ?_ hw h
  clear hw h
  unfold slowUpdate
  repeat' first
    | with_reducible exact SameBut.refl _ _
    | with_reducible assumption
    | (extract_lets +onlyGivenNames z; first | (refine SameBut.cut (x := z) ?_ (fun _ => ?_) <;> [(unfold z; clear z); clear_value z]) | clear_value z)
    | with_reducible refine SameBut.ite _ _ _ _ _ (fun _ => ?_) (fun _ => ?_)
    | with_reducible refine irqSet_keeps _ _ _ _ _ (by decide) ?_
    | with_reducible refine modSched_keeps _ _ _ _ _ (by decide) ?_
    | with_reducible refine SameBut.set_sched _ _ _ _ (by decide) ?_

theorem retireRoutes_keeps (w : List Part) (a : Core) (x0 : Core) (x1 : Nat)
    (hw : [.io, .rsCnts, .rsPages, .isr, .shr, .pp, .pmu, .free] ⊆ w) (h : SameBut w a x0) :
    SameBut w a (retireRoutes x0 x1) := by
  refine SameBut.next ?_ hw h
  clear hw h
  unfold retireRoutes
  repeat' first
    | with_reducible exact SameBut.refl _ _
    | with_reducible assumption
    | (extract_lets +onlyGivenNames z; first | (refine SameBut.cut (x := z) ?_ (fun _ => ?_) <;> [(unfold z; clear z); clear_value z]) | clear_value z)
    | with_reducible refine SameBut.ite _ _ _ _ _ (fun _ => ?_) (fun _ => ?_)
    | with_reducible refine pageErr_keeps _ _ _ _ _ _ _ (by decide) ?_
    | with_reducible refine dropRoutes_keeps _ _ _ _ (by decide) ?_

theorem freeInst_keeps (w : List Part) (a : Core) (x0 : Core) (x1 : Nat)
    (hw : [.io, .rsRegs, .rsCnts, .rsPages, .fe, .ctxs, .gs, .isr, .tu, .shr, .tbl, .pp, .pmu, .free] ⊆ w) (h : SameBut w a x0) :
    SameBut w a (freeInst x0 x1) := by
  refine SameBut.next ?_ hw h
  clear hw h
  unfold freeInst
  repeat' first
    | with_reducible exact SameBut.refl _ _
    | with_reducible assumption
    | (extract_lets +onlyGivenNames z; first | (refine SameBut.cut (x := z) ?_ (fun _ => ?_) <;> [(unfold z; clear z); clear_value z]) | clear_value z)
    | with_reducible refine sweepGraph_keeps _ _ _ _ (by decide) ?_
    | with_reducible refine retireRoutes_keeps _ _ _ _ (by decide) ?_
    | with_reducible refine unbindEpoch_keeps _ _ _ _ (by decide) ?_
    | with_reducible refine versionInsts_keeps _ _ _ _ _ _ (by decide) ?_
    | with_reducible refine modInst_keeps _ _ _ _ _ (by decide) ?_
    | with_reducible refine alarmDrop_keeps _ _ _ _ _ (by decide) ?_
    | with_reducible refine SameBut.set_isr _ _ _ _ (by decide) ?_

theorem retireInst_keeps (w : List Part) (a : Core) (x0 : Core) (x1 : Nat)
    (hw : [.io, .rsRegs, .rsCnts, .rsPages, .fe, .queues, .ctxs, .sqs, .gs, .isr, .de, .lanes, .st, .mf, .cru, .sched, .tu, .shr, .strm, .tbl, .pp, .pmu, .trc, .dbg, .free] ⊆ w) (h : SameBut w a x0) :
    SameBut w a (retireInst x0 x1) := by
  refine SameBut.next ?_ hw h
  clear hw h
  unfold retireInst
  repeat' first
    | with_reducible exact SameBut.refl _ _
    | with_reducible assumption
    | (extract_lets +onlyGivenNames z; first | (refine SameBut.cut (x := z) ?_ (fun _ => ?_) <;> [(unfold z; clear z); clear_value z]) | clear_value z)
    | with_reducible refine SameBut.ite _ _ _ _ _ (fun _ => ?_) (fun _ => ?_)
    | with_reducible refine pollInst_keeps _ _ _ _ (by decide) ?_
    | with_reducible refine freeInst_keeps _ _ _ _ (by decide) ?_
    | with_reducible refine markOffers_keeps _ _ _ _ (by decide) ?_
    | with_reducible refine tryRelease_keeps _ _ _ _ (by decide) ?_
    | with_reducible refine subDone_keeps _ _ _ _ _ (by decide) ?_
    | with_reducible refine balCheck_keeps _ _ _ _ (by decide) ?_
    | with_reducible refine checkGuilty_keeps _ _ _ _ (by decide) ?_
    | with_reducible refine trace_keeps _ _ _ _ _ _ _ _ _ _ (by decide) ?_
    | with_reducible refine modInst_keeps _ _ _ _ _ (by decide) ?_
    | with_reducible refine slowUpdate_keeps _ _ _ _ (by decide) ?_
    | with_reducible refine SameBut.fold _ _ _ _ _ (fun _ _ => ?_) ?_

theorem patchFail_keeps (w : List Part) (a : Core) (x0 : Core) (x1 : Nat)
    (hw : [.io, .rsRegs, .rsCnts, .rsPages, .fe, .queues, .ctxs, .sqs, .isr, .de, .lanes, .st, .mf, .cru, .sched, .tu, .shr, .strm, .pp, .pmu, .trc, .free] ⊆ w) (h : SameBut w a x0) :
    SameBut w a (patchFail x0 x1) := by
  refine SameBut.next ?_ hw h
  clear hw h
  unfold patchFail
  repeat' first
    | with_reducible exact SameBut.refl _ _
    | with_reducible assumption
    | with_reducible refine pageErr_keeps _ _ _ _ _ _ _ (by decide) ?_
    | with_reducible refine instFault_keeps _ _ _ _ _ _ _ (by decide) ?_

end Sys2Proof.Machine
end

