-- ==== Sys2Proof/Laws/Sched.lean ====
section
/-! SUPPORT. What the operations of Sched.lean leave as it was. -/

set_option linter.unusedTactic false
set_option linter.unreachableTactic false
set_option linter.tactic.unusedName false

namespace Sys2Proof.Machine

theorem setRot_keeps (w : List Part) (a : Core) (x0 : Core) (x1 : Nat) (x2 : Nat) (x3 : Nat)
    (hw : [.fe] ⊆ w) (h : SameBut w a x0) :
    SameBut w a (setRot x0 x1 x2 x3) := by
  refine SameBut.next ?_ hw h
  clear hw h
  unfold setRot
  repeat' first
    | with_reducible exact SameBut.refl _ _
    | with_reducible assumption
    | with_reducible refine SameBut.ite _ _ _ _ _ (fun _ => ?_) (fun _ => ?_)
    | with_reducible refine SameBut.set_fe _ _ _ _ (by decide) ?_

theorem issueSaveOn_keeps (w : List Part) (a : Core) (x0 : Core) (x1 : Nat) (x2 : Nat)
    (hw : [.io, .engs, .rsCnts, .lanes, .sched, .pmu, .trc] ⊆ w) (h : SameBut w a x0) :
    SameBut w a (issueSaveOn x0 x1 x2) := by
  refine SameBut.next ?_ hw h
  clear hw h
  unfold issueSaveOn
  repeat' first
    | with_reducible exact SameBut.refl _ _
    | with_reducible assumption
    | (extract_lets +onlyGivenNames z; first | (refine SameBut.cut (x := z) ?_ (fun _ => ?_) <;> [(unfold z; clear z); clear_value z]) | clear_value z)
    | with_reducible refine SameBut.ite _ _ _ _ _ (fun _ => ?_) (fun _ => ?_)
    | with_reducible refine driveIssue_keeps _ _ _ _ _ _ (by decide) ?_
    | with_reducible refine modPre_keeps _ _ _ _ _ (by decide) ?_
    | with_reducible refine wakeEng_keeps _ _ _ _ (by decide) ?_
    | split

theorem preemptFault_keeps (w : List Part) (a : Core) (x0 : Core) (x1 : Nat) (x2 : Nat)
    (hw : [.io, .rsRegs, .rsCnts, .rsPages, .fe, .queues, .ctxs, .sqs, .isr, .de, .lanes, .st, .mf, .cru, .sched, .tu, .shr, .strm, .pp, .pmu, .trc, .free] ⊆ w) (h : SameBut w a x0) :
    SameBut w a (preemptFault x0 x1 x2) := by
  refine SameBut.next ?_ hw h
  clear hw h
  unfold preemptFault
  repeat' first
    | with_reducible exact SameBut.refl _ _
    | with_reducible assumption
    | with_reducible refine queueFault_keeps _ _ _ _ _ _ _ _ _ (by decide) ?_

theorem restoreDone_keeps (w : List Part) (a : Core) (x0 : Core) (x1 : Nat)
    (hw : [.rsPages, .queues, .sqs, .sched, .trc, .dbg] ⊆ w) (h : SameBut w a x0) :
    SameBut w a (restoreDone x0 x1) := by
  refine SameBut.next ?_ hw h
  clear hw h
  unfold restoreDone
  repeat' first
    | with_reducible exact SameBut.refl _ _
    | with_reducible assumption
    | (extract_lets +onlyGivenNames z; first | (refine SameBut.cut (x := z) ?_ (fun _ => ?_) <;> [(unfold z; clear z); clear_value z]) | clear_value z)
    | with_reducible refine modPre_keeps _ _ _ _ _ (by decide) ?_
    | with_reducible refine progress_keeps _ _ _ _ (by decide) ?_
    | with_reducible refine pointTimer_keeps _ _ _ _ (by decide) ?_
    | with_reducible refine modQ_keeps _ _ _ _ _ (by decide) ?_
    | with_reducible refine enterPhase_keeps _ _ _ _ _ (by decide) ?_
    | with_reducible refine inheritKeep_keeps _ _ _ (by decide) ?_
    | with_reducible refine modSq_keeps _ _ _ _ _ (by decide) ?_
    | with_reducible refine bpCheck_keeps _ _ _ _ (by decide) ?_
    | split
    | with_reducible refine SameBut.set_sched _ _ _ _ (by decide) ?_

theorem restoreAdvance_keeps (w : List Part) (a : Core) (x0 : Core) (x1 : Nat)
    (hw : [.rsPages, .queues, .sqs, .sched, .trc, .dbg] ⊆ w) (h : SameBut w a x0) :
    SameBut w a (restoreAdvance x0 x1) := by
  refine SameBut.next ?_ hw h
  clear hw h
  unfold restoreAdvance
  repeat' first
    | with_reducible exact SameBut.refl _ _
    | with_reducible assumption
    | (extract_lets +onlyGivenNames z; first | (refine SameBut.cut (x := z) ?_ (fun _ => ?_) <;> [(unfold z; clear z); clear_value z]) | clear_value z)
    | with_reducible refine SameBut.ite _ _ _ _ _ (fun _ => ?_) (fun _ => ?_)
    | with_reducible refine modPre_keeps _ _ _ _ _ (by decide) ?_
    | with_reducible refine restoreDone_keeps _ _ _ _ (by decide) ?_

theorem saveFreesSq_keeps (w : List Part) (a : Core) (x0 : Core) (x1 : Nat)
    (hw : [.sqs] ⊆ w) (h : SameBut w a x0) :
    SameBut w a (saveFreesSq x0 x1) := by
  refine SameBut.next ?_ hw h
  clear hw h
  unfold saveFreesSq
  repeat' first
    | with_reducible exact SameBut.refl _ _
    | with_reducible assumption
    | with_reducible refine SameBut.ite _ _ _ _ _ (fun _ => ?_) (fun _ => ?_)
    | with_reducible refine modSq_keeps _ _ _ _ _ (by decide) ?_

theorem saveDone_keeps (w : List Part) (a : Core) (x0 : Core) (x1 : Nat)
    (hw : [.sched, .trc] ⊆ w) (h : SameBut w a x0) :
    SameBut w a (saveDone x0 x1) := by
  refine SameBut.next ?_ hw h
  clear hw h
  unfold saveDone
  repeat' first
    | with_reducible exact SameBut.refl _ _
    | with_reducible assumption
    | (extract_lets +onlyGivenNames z; first | (refine SameBut.cut (x := z) ?_ (fun _ => ?_) <;> [(unfold z; clear z); clear_value z]) | clear_value z)
    | with_reducible refine modPre_keeps _ _ _ _ _ (by decide) ?_
    | with_reducible refine enterPhase_keeps _ _ _ _ _ (by decide) ?_
    | with_reducible refine SameBut.set_sched _ _ _ _ (by decide) ?_

theorem markActive_keeps (w : List Part) (a : Core) (x0 : Core)
    (hw : [.sched] ⊆ w) (h : SameBut w a x0) :
    SameBut w a (markActive x0) := by
  refine SameBut.next ?_ hw h
  clear hw h
  unfold markActive
  repeat' first
    | with_reducible exact SameBut.refl _ _
    | with_reducible assumption
    | with_reducible refine modSched_keeps _ _ _ _ _ (by decide) ?_
    | with_reducible refine SameBut.fold _ _ _ _ _ (fun _ _ => ?_) ?_

theorem revise585_keeps (w : List Part) (a : Core) (x0 : Core) (x1 : Nat)
    (hw : [.rsCnts, .rsPages, .isr, .sched] ⊆ w) (h : SameBut w a x0) :
    SameBut w a (revise585 x0 x1) := by
  refine SameBut.next ?_ hw h
  clear hw h
  unfold revise585
  repeat' first
    | with_reducible exact SameBut.refl _ _
    | with_reducible assumption
    | (extract_lets +onlyGivenNames z; first | (refine SameBut.cut (x := z) ?_ (fun _ => ?_) <;> [(unfold z; clear z); clear_value z]) | clear_value z)
    | with_reducible refine SameBut.ite _ _ _ _ _ (fun _ => ?_) (fun _ => ?_)
    | with_reducible refine latePredict_keeps _ _ _ _ (by decide) ?_
    | with_reducible refine modInst_keeps _ _ _ _ _ (by decide) ?_
    | split

theorem periodEnd_keeps (w : List Part) (a : Core) (x0 : Core)
    (hw : [.rsCnts, .rsPages, .isr, .sched] ⊆ w) (h : SameBut w a x0) :
    SameBut w a (periodEnd x0) := by
  refine SameBut.next ?_ hw h
  clear hw h
  unfold periodEnd
  repeat' first
    | with_reducible exact SameBut.refl _ _
    | with_reducible assumption
    | (extract_lets +onlyGivenNames z; first | (refine SameBut.cut (x := z) ?_ (fun _ => ?_) <;> [(unfold z; clear z); clear_value z]) | clear_value z)
    | with_reducible refine SameBut.ite _ _ _ _ _ (fun _ => ?_) (fun _ => ?_)
    | with_reducible refine markActive_keeps _ _ _ (by decide) ?_
    | with_reducible refine cntAdd_keeps _ _ _ _ _ _ (by decide) ?_
    | with_reducible refine revise585_keeps _ _ _ _ (by decide) ?_
    | with_reducible refine modSched_keeps _ _ _ _ _ (by decide) ?_
    | with_reducible refine SameBut.fold _ _ _ _ _ (fun _ _ => ?_) ?_
    | with_reducible refine SameBut.set_sched _ _ _ _ (by decide) ?_

end Sys2Proof.Machine
end

