-- ==== Sys2Proof/Laws/Pick.lean ====
section
/-! SUPPORT. What the operations of Pick.lean leave as it was. -/

set_option linter.unusedTactic false
set_option linter.unreachableTactic false
set_option linter.tactic.unusedName false

namespace Sys2Proof.Machine

theorem askPatches_keeps (w : List Part) (a : Core) (x0 : Core) (x1 : Nat)
    (hw : [.io, .rsCnts, .isr, .pmu] ⊆ w) (h : SameBut w a x0) :
    SameBut w a (askPatches x0 x1) := by
  refine SameBut.next ?_ hw h
  clear hw h
  unfold askPatches
  repeat' first
    | with_reducible exact SameBut.refl _ _
    | with_reducible assumption
    | with_reducible refine SameBut.ite _ _ _ _ _ (fun _ => ?_) (fun _ => ?_)
    | with_reducible refine patchFetch_keeps _ _ _ _ (by decide) ?_
    | with_reducible refine SameBut.fold _ _ _ _ _ (fun _ _ => ?_) ?_

theorem takeFirst_keeps (w : List Part) (a : Core) (x0 : Core) (x1 : Nat) (x2 : Ready)
    (hw : [.lanes] ⊆ w) (h : SameBut w a x0) :
    SameBut w a (takeFirst x0 x1 x2) := by
  refine SameBut.next ?_ hw h
  clear hw h
  unfold takeFirst
  repeat' first
    | with_reducible exact SameBut.refl _ _
    | with_reducible assumption
    | with_reducible refine SameBut.ite _ _ _ _ _ (fun _ => ?_) (fun _ => ?_)
    | with_reducible refine modLane_keeps _ _ _ _ _ (by decide) ?_

theorem giveBack_keeps (w : List Part) (a : Core) (x0 : Core) (x1 : Nat) (x2 : Ready)
    (hw : [.lanes] ⊆ w) (h : SameBut w a x0) :
    SameBut w a (giveBack x0 x1 x2) := by
  refine SameBut.next ?_ hw h
  clear hw h
  unfold giveBack
  repeat' first
    | with_reducible exact SameBut.refl _ _
    | with_reducible assumption
    | with_reducible refine modLane_keeps _ _ _ _ _ (by decide) ?_

end Sys2Proof.Machine
end

