-- ==== Sys2Proof/Laws/Streams.lean ====
section
/-! SUPPORT. What the operations of Streams.lean leave as it was. -/

set_option linter.unusedTactic false
set_option linter.unreachableTactic false
set_option linter.tactic.unusedName false

namespace Sys2Proof.Machine

theorem strmFault_keeps (w : List Part) (a : Core) (x0 : Core) (x1 : Arm) (x2 : Nat)
    (hw : [.io, .rsRegs, .rsCnts, .rsPages, .fe, .queues, .ctxs, .sqs, .isr, .de, .lanes, .st, .mf, .cru, .sched, .tu, .shr, .strm, .pp, .pmu, .trc, .free] ⊆ w) (h : SameBut w a x0) :
    SameBut w a (strmFault x0 x1 x2) := by
  refine SameBut.next ?_ hw h
  clear hw h
  unfold strmFault
  repeat' first
    | with_reducible exact SameBut.refl _ _
    | with_reducible assumption
    | with_reducible refine queueFault_keeps _ _ _ _ _ _ _ _ _ (by decide) ?_

theorem armPending_keeps (w : List Part) (a : Core) (x0 : Core) (x1 : Nat) (x2 : Arm)
    (hw : [.rsCnts, .rsPages, .strm] ⊆ w) (h : SameBut w a x0) :
    SameBut w a (armPending x0 x1 x2) := by
  refine SameBut.next ?_ hw h
  clear hw h
  unfold armPending
  repeat' first
    | with_reducible exact SameBut.refl _ _
    | with_reducible assumption
    | (extract_lets +onlyGivenNames z; first | (refine SameBut.cut (x := z) ?_ (fun _ => ?_) <;> [(unfold z; clear z); clear_value z]) | clear_value z)
    | with_reducible refine SameBut.ite _ _ _ _ _ (fun _ => ?_) (fun _ => ?_)
    | with_reducible refine cntAdd_keeps _ _ _ _ _ _ (by decide) ?_
    | with_reducible refine irqSet_keeps _ _ _ _ _ (by decide) ?_
    | with_reducible refine modStream_keeps _ _ _ _ _ (by decide) ?_
    | with_reducible refine SameBut.set_strm _ _ _ _ (by decide) ?_

theorem armLoads_keeps (w : List Part) (a : Core) (x0 : Core) (x1 : Nat) (x2 : Arm)
    (hw : [.io, .strm, .pmu] ⊆ w) (h : SameBut w a x0) :
    SameBut w a (armLoads x0 x1 x2) := by
  refine SameBut.next ?_ hw h
  clear hw h
  unfold armLoads
  repeat' first
    | with_reducible exact SameBut.refl _ _
    | with_reducible assumption
    | (extract_lets +onlyGivenNames z; first | (refine SameBut.cut (x := z) ?_ (fun _ => ?_) <;> [(unfold z; clear z); clear_value z]) | clear_value z)
    | with_reducible refine mpRead_keeps _ _ _ _ _ _ _ (by decide) ?_
    | with_reducible refine modStream_keeps _ _ _ _ _ (by decide) ?_

theorem opStreamArm_keeps (w : List Part) (a : Core) (x0 : Nat) (x1 : Core) (x2 : Nat) (x3 : Word) (x4 : Word)
    (hw : [.io, .rsRegs, .rsCnts, .rsPages, .fe, .queues, .ctxs, .sqs, .isr, .de, .lanes, .st, .mf, .cru, .sched, .tu, .shr, .strm, .pp, .pmu, .trc, .dbg, .free] ⊆ w) (h : SameBut w a x1) :
    SameBut w a (opStreamArm x0 x1 x2 x3 x4) := by
  refine SameBut.next ?_ hw h
  clear hw h
  unfold opStreamArm
  repeat' first
    | with_reducible exact SameBut.refl _ _
    | with_reducible assumption
    | (extract_lets +onlyGivenNames z; first | (refine SameBut.cut (x := z) ?_ (fun _ => ?_) <;> [(unfold z; clear z); clear_value z]) | clear_value z)
    | with_reducible refine SameBut.ite _ _ _ _ _ (fun _ => ?_) (fun _ => ?_)
    | with_reducible refine strmFault_keeps _ _ _ _ _ (by decide) ?_
    | with_reducible refine moveOn_keeps _ _ _ _ (by decide) ?_
    | with_reducible refine cntAdd_keeps _ _ _ _ _ _ (by decide) ?_
    | with_reducible refine setSreg_keeps _ _ _ _ _ _ (by decide) ?_
    | with_reducible refine armPending_keeps _ _ _ _ _ (by decide) ?_
    | with_reducible refine armLoads_keeps _ _ _ _ _ (by decide) ?_
    | with_reducible refine SameBut.set_strm _ _ _ _ (by decide) ?_

theorem armActive_keeps (w : List Part) (a : Core) (x0 : Core) (x1 : Nat) (x2 : List Word)
    (hw : [.strm] ⊆ w) (h : SameBut w a x0) :
    SameBut w a (armActive x0 x1 x2) := by
  refine SameBut.next ?_ hw h
  clear hw h
  unfold armActive
  repeat' first
    | with_reducible exact SameBut.refl _ _
    | with_reducible assumption
    | (extract_lets +onlyGivenNames z; first | (refine SameBut.cut (x := z) ?_ (fun _ => ?_) <;> [(unfold z; clear z); clear_value z]) | clear_value z)
    | with_reducible refine SameBut.ite _ _ _ _ _ (fun _ => ?_) (fun _ => ?_)
    | with_reducible refine modStream_keeps _ _ _ _ _ (by decide) ?_

theorem xferIssue_keeps (w : List Part) (a : Core) (x0 : Core) (x1 : Nat) (x2 : Nat) (x3 : Nat) (x4 : Bool)
    (hw : [.io, .engs, .rsCnts, .lanes, .sched, .strm, .pmu, .trc] ⊆ w) (h : SameBut w a x0) :
    SameBut w a (xferIssue x0 x1 x2 x3 x4) := by
  refine SameBut.next ?_ hw h
  clear hw h
  unfold xferIssue
  repeat' first
    | with_reducible exact SameBut.refl _ _
    | with_reducible assumption
    | (extract_lets +onlyGivenNames z; first | (refine SameBut.cut (x := z) ?_ (fun _ => ?_) <;> [(unfold z; clear z); clear_value z]) | clear_value z)
    | with_reducible refine SameBut.ite _ _ _ _ _ (fun _ => ?_) (fun _ => ?_)
    | with_reducible refine driveIssue_keeps _ _ _ _ _ _ (by decide) ?_
    | with_reducible refine cntAdd_keeps _ _ _ _ _ _ (by decide) ?_
    | with_reducible refine modStream_keeps _ _ _ _ _ (by decide) ?_

theorem sealCheck_keeps (w : List Part) (a : Core) (x0 : Core)
    (hw : [.tbl] ⊆ w) (h : SameBut w a x0) :
    SameBut w a (sealCheck x0) := by
  refine SameBut.next ?_ hw h
  clear hw h
  unfold sealCheck
  repeat' first
    | with_reducible exact SameBut.refl _ _
    | with_reducible assumption
    | with_reducible refine SameBut.ite _ _ _ _ _ (fun _ => ?_) (fun _ => ?_)
    | with_reducible refine SameBut.set_tbl _ _ _ _ (by decide) ?_

theorem xferClosed_keeps (w : List Part) (a : Core) (x0 : Core) (x1 : Nat) (x2 : Issue) (x3 : Bool)
    (hw : [.io, .strm, .tbl, .pmu] ⊆ w) (h : SameBut w a x0) :
    SameBut w a (xferClosed x0 x1 x2 x3) := by
  refine SameBut.next ?_ hw h
  clear hw h
  unfold xferClosed
  repeat' first
    | with_reducible exact SameBut.refl _ _
    | with_reducible assumption
    | (extract_lets +onlyGivenNames z; first | (refine SameBut.cut (x := z) ?_ (fun _ => ?_) <;> [(unfold z; clear z); clear_value z]) | clear_value z)
    | with_reducible refine SameBut.ite _ _ _ _ _ (fun _ => ?_) (fun _ => ?_)
    | with_reducible refine strmStopped_keeps _ _ _ _ (by decide) ?_
    | with_reducible refine modStream_keeps _ _ _ _ _ (by decide) ?_
    | with_reducible refine sealCheck_keeps _ _ _ (by decide) ?_

end Sys2Proof.Machine
end

