-- ==== Sys2Proof/Laws/Lanes.lean ====
section
/-! SUPPORT. What the operations of Lanes.lean leave as it was. -/

set_option linter.unusedTactic false
set_option linter.unreachableTactic false
set_option linter.tactic.unusedName false

namespace Sys2Proof.Machine

theorem takeTag_keeps (w : List Part) (a : Core) (x0 : Core)
    (hw : [.de] ⊆ w) (h : SameBut w a x0) :
    SameBut w a (takeTag x0).2 := by
  refine SameBut.next ?_ hw h
  clear hw h
  unfold takeTag
  repeat' first
    | with_reducible exact SameBut.refl _ _
    | with_reducible assumption
    | (extract_lets +onlyGivenNames z; first | (refine SameBut.cut (x := z) ?_ (fun _ => ?_) <;> [(unfold z; clear z); clear_value z]) | clear_value z)
    | split
    | with_reducible refine SameBut.set_de _ _ _ _ (by decide) ?_

theorem takeTag_keeps_eq (w : List Part) (a : Core) (x0 : Core)
    (y d) (e : takeTag x0 = (y, d)) (hw : [.de] ⊆ w) (h : SameBut w a x0) :
    SameBut w a d := by
  have := takeTag_keeps w a x0 hw h
  rw [e] at this
  exact this

theorem reserveRun_keeps (w : List Part) (a : Core) (x0 : Core) (x1 : Nat) (x2 : Ready) (x3 : Nat) (x4 : Nat)
    (hw : [.engs, .de, .lanes] ⊆ w) (h : SameBut w a x0) :
    SameBut w a (reserveRun x0 x1 x2 x3 x4) := by
  refine SameBut.next ?_ hw h
  clear hw h
  unfold reserveRun
  repeat' first
    | with_reducible exact SameBut.refl _ _
    | with_reducible assumption
    | (extract_lets +onlyGivenNames z; first | (refine SameBut.cut (x := z) ?_ (fun _ => ?_) <;> [(unfold z; clear z); clear_value z]) | (refine SameBut.cut (x := z.2) ?_ (fun _ => ?_) <;> [(unfold z; clear z); clear_value z]) | (refine SameBut.cut (x := z.1) ?_ (fun _ => ?_) <;> [(unfold z; clear z); clear_value z]) | clear_value z)
    | with_reducible refine modLane_keeps _ _ _ _ _ (by decide) ?_
    | with_reducible refine takeTag_keeps _ _ _ (by decide) ?_
    | with_reducible refine takeFirst_keeps _ _ _ _ _ (by decide) ?_
    | with_reducible refine wakeSpan_keeps _ _ _ _ _ (by decide) ?_
    | with_reducible refine takeTag_keeps_eq _ _ _ _ _ ‹_› (by decide) ?_

theorem issueOrTear_keeps (w : List Part) (a : Core) (x0 : Core) (x1 : Nat) (x2 : Ready) (x3 : Nat) (x4 : Nat) (x5 : Option Nat) (x6 : Nat)
    (hw : [.io, .engs, .rsRegs, .rsCnts, .rsPages, .fe, .queues, .ctxs, .isr, .lanes, .sched, .marv, .lkp, .det, .ras, .pmu, .trc] ⊆ w) (h : SameBut w a x0) :
    SameBut w a (issueOrTear x0 x1 x2 x3 x4 x5 x6) := by
  refine SameBut.next ?_ hw h
  clear hw h
  unfold issueOrTear
  repeat' first
    | with_reducible exact SameBut.refl _ _
    | with_reducible assumption
    | with_reducible refine SameBut.ite _ _ _ _ _ (fun _ => ?_) (fun _ => ?_)
    | with_reducible refine issueTask_keeps _ _ _ _ _ _ _ _ _ (by decide) ?_
    | with_reducible refine poisonTear_keeps _ _ _ _ (by decide) ?_

theorem runIssue_keeps (w : List Part) (a : Core) (x0 : Core) (x1 : Nat) (d : Core)
    (e : runIssue x0 x1 = some d) (hw : [.io, .engs, .rsRegs, .rsCnts, .rsPages, .fe, .queues, .ctxs, .isr, .de, .lanes, .sched, .marv, .lkp, .det, .ras, .pmu, .trc] ⊆ w) (h : SameBut w a x0) :
    SameBut w a d := by
  refine SameBut.next ?_ hw h
  clear hw h
  unfold runIssue at e
  split at e
  · cases e
  split at e
  · cases e
  split at e
  · cases e; exact patchFetch_keeps _ _ _ _ (by decide) (SameBut.refl _ _)
  · cases e
    exact issueOrTear_keeps _ _ _ _ _ _ _ _ _ (by decide) (SameBut.set_de _ _ _ _ (by decide)
      (modLane_keeps _ _ _ _ _ (by decide) (SameBut.refl _ _)))

theorem coordReserve_keeps (w : List Part) (a : Core) (x0 : Core) (x1 : Ready)
    (hw : [.io, .engs, .rsRegs, .rsCnts, .rsPages, .fe, .queues, .ctxs, .sqs, .isr, .de, .lanes, .st, .mf, .cru, .sched, .tu, .shr, .strm, .pp, .pmu, .trc, .free] ⊆ w) (h : SameBut w a x0) :
    SameBut w a (coordReserve x0 x1) := by
  refine SameBut.next ?_ hw h
  clear hw h
  unfold coordReserve
  repeat' first
    | with_reducible exact SameBut.refl _ _
    | with_reducible assumption
    | (extract_lets +onlyGivenNames z; first | (refine SameBut.cut (x := z) ?_ (fun _ => ?_) <;> [(unfold z; clear z); clear_value z]) | (refine SameBut.cut (x := z.2) ?_ (fun _ => ?_) <;> [(unfold z; clear z); clear_value z]) | (refine SameBut.cut (x := z.1) ?_ (fun _ => ?_) <;> [(unfold z; clear z); clear_value z]) | clear_value z)
    | with_reducible refine SameBut.ite _ _ _ _ _ (fun _ => ?_) (fun _ => ?_)
    | with_reducible refine instFault_keeps _ _ _ _ _ _ _ (by decide) ?_
    | with_reducible refine takeTag_keeps _ _ _ (by decide) ?_
    | with_reducible refine wakeSpan_keeps _ _ _ _ _ (by decide) ?_
    | with_reducible refine SameBut.fold _ _ _ _ _ (fun _ _ => ?_) ?_
    | with_reducible refine takeTag_keeps_eq _ _ _ _ _ ‹_› (by decide) ?_
    | with_reducible refine SameBut.set_de _ _ _ _ (by decide) ?_

theorem coordStart_keeps (w : List Part) (a : Core) (x0 : Core) (x1 : Ready)
    (hw : [.de] ⊆ w) (h : SameBut w a x0) :
    SameBut w a (coordStart x0 x1) := by
  refine SameBut.next ?_ hw h
  clear hw h
  unfold coordStart
  repeat' first
    | with_reducible exact SameBut.refl _ _
    | with_reducible assumption
    | (extract_lets +onlyGivenNames z; first | (refine SameBut.cut (x := z) ?_ (fun _ => ?_) <;> [(unfold z; clear z); clear_value z]) | clear_value z)
    | with_reducible refine SameBut.ite _ _ _ _ _ (fun _ => ?_) (fun _ => ?_)
    | with_reducible refine SameBut.set_de _ _ _ _ (by decide) ?_

theorem coordStep_keeps (w : List Part) (a : Core) (x0 : Core) (d : Core)
    (e : coordStep x0 = some d) (hw : [.io, .engs, .rsRegs, .rsCnts, .rsPages, .fe, .queues, .ctxs, .sqs, .isr, .de, .lanes, .st, .mf, .cru, .sched, .tu, .shr, .strm, .pp, .pmu, .trc, .free] ⊆ w) (h : SameBut w a x0) :
    SameBut w a d := by
  refine SameBut.next ?_ hw h
  clear hw h
  unfold coordStep at e
  repeat' first
    | (cases e)
    | with_reducible exact SameBut.refl _ _
    | with_reducible assumption
    | with_reducible refine SameBut.ite _ _ _ _ _ (fun _ => ?_) (fun _ => ?_)
    | with_reducible refine coordReserve_keeps _ _ _ _ (by decide) ?_
    | with_reducible refine patchFetch_keeps _ _ _ _ (by decide) ?_
    | with_reducible refine coordStart_keeps _ _ _ _ (by decide) ?_
    | split
    | (injection e with e; subst e)
    | dsimp only at e
    | split at e

theorem gangBeat_keeps (w : List Part) (a : Core) (x0 : Core) (x1 : Nat) (d : Core)
    (e : gangBeat x0 x1 = some d) (hw : [.io, .engs, .rsRegs, .rsCnts, .rsPages, .fe, .queues, .ctxs, .isr, .de, .lanes, .sched, .marv, .lkp, .det, .ras, .pmu, .trc] ⊆ w) (h : SameBut w a x0) :
    SameBut w a d := by
  refine SameBut.next ?_ hw h
  clear hw h
  unfold gangBeat at e
  split at e
  · cases e
  split at e
  · cases e
  split at e
  · cases e; exact patchFetch_keeps _ _ _ _ (by decide) (SameBut.refl _ _)
  · cases e
    exact issueOrTear_keeps _ _ _ _ _ _ _ _ _ (by decide) (SameBut.set_de _ _ _ _ (by decide) (SameBut.refl _ _))

theorem wakeIssue_keeps (w : List Part) (a : Core) (x0 : Core) (x1 : Nat) (d : Core)
    (e : wakeIssue x0 x1 = some d) (hw : [.io, .engs, .rsRegs, .rsCnts, .rsPages, .fe, .queues, .ctxs, .isr, .lanes, .sched, .marv, .lkp, .det, .ras, .pmu, .trc] ⊆ w) (h : SameBut w a x0) :
    SameBut w a d := by
  refine SameBut.next ?_ hw h
  clear hw h
  unfold wakeIssue at e
  repeat' first
    | (cases e)
    | with_reducible exact SameBut.refl _ _
    | with_reducible assumption
    | (extract_lets +onlyGivenNames z; first | (refine SameBut.cut (x := z) ?_ (fun _ => ?_) <;> [(unfold z; clear z); clear_value z]) | clear_value z)
    | with_reducible refine SameBut.ite _ _ _ _ _ (fun _ => ?_) (fun _ => ?_)
    | with_reducible refine modLane_keeps _ _ _ _ _ (by decide) ?_
    | with_reducible refine patchFetch_keeps _ _ _ _ (by decide) ?_
    | with_reducible refine issueOrTear_keeps _ _ _ _ _ _ _ _ _ (by decide) ?_
    | split
    | (injection e with e; subst e)
    | dsimp only at e
    | split at e

theorem wakeDrive_keeps (w : List Part) (a : Core) (x0 : Core) (x1 : Nat) (x2 : Nat)
    (hw : [.io, .engs, .rsRegs, .rsCnts, .rsPages, .fe, .queues, .ctxs, .isr, .lanes, .sched, .marv, .lkp, .det, .ras, .pmu, .trc] ⊆ w) (h : SameBut w a x0) :
    SameBut w a (wakeDrive x0 x1 x2) := by
  refine SameBut.next ?_ hw h
  refine SameBut.fold _ _ _ _ _ (fun c k => ?_) (SameBut.refl _ _)
  exact SameBut.getD _ _ _ _ (fun d hd => wakeIssue_keeps _ _ _ _ _ hd (by decide) (SameBut.refl _ _)) (SameBut.refl _ _)

theorem demandSweep_keeps (w : List Part) (a : Core) (x0 : Core)
    (hw : [.queues] ⊆ w) (h : SameBut w a x0) :
    SameBut w a (demandSweep x0) := by
  refine SameBut.next ?_ hw h
  clear hw h
  unfold demandSweep
  repeat' first
    | with_reducible exact SameBut.refl _ _
    | with_reducible assumption
    | with_reducible refine SameBut.ite _ _ _ _ _ (fun _ => ?_) (fun _ => ?_)
    | with_reducible refine modQ_keeps _ _ _ _ _ (by decide) ?_
    | with_reducible refine SameBut.fold _ _ _ _ _ (fun _ _ => ?_) ?_

theorem pickIssue_keeps (w : List Part) (a : Core) (x0 : Core) (x1 : Nat) (x2 : Ready) (x3 : Place)
    (hw : [.io, .engs, .rsRegs, .rsCnts, .rsPages, .fe, .queues, .ctxs, .isr, .de, .lanes, .sched, .marv, .lkp, .det, .ras, .pmu, .trc] ⊆ w) (h : SameBut w a x0) :
    SameBut w a (pickIssue x0 x1 x2 x3) := by
  refine SameBut.next ?_ hw h
  clear hw h
  unfold pickIssue
  repeat' first
    | with_reducible exact SameBut.refl _ _
    | with_reducible assumption
    | (extract_lets +onlyGivenNames z; first | (refine SameBut.cut (x := z) ?_ (fun _ => ?_) <;> [(unfold z; clear z); clear_value z]) | clear_value z)
    | with_reducible refine SameBut.ite _ _ _ _ _ (fun _ => ?_) (fun _ => ?_)
    | with_reducible refine wakeEng_keeps _ _ _ _ (by decide) ?_
    | with_reducible refine modLane_keeps _ _ _ _ _ (by decide) ?_
    | with_reducible refine reserveRun_keeps _ _ _ _ _ _ _ (by decide) ?_
    | with_reducible refine issueOrTear_keeps _ _ _ _ _ _ _ _ _ (by decide) ?_
    | with_reducible refine takeFirst_keeps _ _ _ _ _ (by decide) ?_
    | split

theorem saveTurn_keeps (w : List Part) (a : Core) (x0 : Core) (x1 : Nat) (d : Core)
    (e : saveTurn x0 x1 = some d) (hw : [.io, .engs, .rsCnts, .lanes, .sched, .pmu, .trc] ⊆ w) (h : SameBut w a x0) :
    SameBut w a d := by
  refine SameBut.next ?_ hw h
  clear hw h
  unfold saveTurn at e
  repeat' first
    | (cases e)
    | with_reducible exact SameBut.refl _ _
    | with_reducible assumption
    | (extract_lets +onlyGivenNames z; first | (refine SameBut.cut (x := z) ?_ (fun _ => ?_) <;> [(unfold z; clear z); clear_value z]) | clear_value z)
    | with_reducible refine SameBut.ite _ _ _ _ _ (fun _ => ?_) (fun _ => ?_)
    | with_reducible refine issueSaveOn_keeps _ _ _ _ _ (by decide) ?_
    | split
    | (injection e with e; subst e)
    | dsimp only at e
    | split at e

theorem laneIssue_keeps (w : List Part) (a : Core) (x0 : Core) (x1 : Nat)
    (hw : [.io, .engs, .rsRegs, .rsCnts, .rsPages, .fe, .queues, .ctxs, .sqs, .isr, .de, .lanes, .st, .mf, .cru, .sched, .marv, .tu, .shr, .lkp, .strm, .pp, .det, .ras, .pmu, .trc, .free] ⊆ w) (h : SameBut w a x0) :
    SameBut w a (laneIssue x0 x1) := by
  refine SameBut.next ?_ hw h
  clear hw h
  unfold laneIssue
  split
  · exact saveTurn_keeps _ _ _ _ _ ‹_› (by decide) (SameBut.refl _ _)
  refine SameBut.ite _ _ _ _ _ (fun _ => SameBut.refl _ _) (fun _ => ?_)
  extract_lets c pick
  have hc : SameBut [.io, .engs, .rsRegs, .rsCnts, .rsPages, .fe, .queues, .ctxs, .sqs, .isr, .de, .lanes, .st, .mf, .cru, .sched, .marv, .tu, .shr, .lkp, .strm, .pp, .det, .ras, .pmu, .trc, .free] x0 c := askPatches_keeps _ _ _ _ (by decide) (SameBut.refl _ _)
  have hp : SameBut [.io, .engs, .rsRegs, .rsCnts, .rsPages, .fe, .queues, .ctxs, .sqs, .isr, .de, .lanes, .st, .mf, .cru, .sched, .marv, .tu, .shr, .lkp, .strm, .pp, .det, .ras, .pmu, .trc, .free] x0 pick := by
    unfold pick
    split
    · exact pickIssue_keeps _ _ _ _ _ _ (by decide) hc
    · exact hc
  clear_value pick c
  refine SameBut.getD _ _ _ _ (fun d hd => ?_) hp
  cases h1 : wakeIssue c x1 with
  | some y => simp [h1] at hd; exact hd ▸ wakeIssue_keeps _ _ _ _ _ h1 (by decide) hc
  | none =>
    cases h2 : gangBeat c x1 with
    | some y => simp [h1, h2] at hd; exact hd ▸ gangBeat_keeps _ _ _ _ _ h2 (by decide) hc
    | none =>
      cases h3 : runIssue c x1 with
      | some y => simp [h1, h2, h3] at hd; exact hd ▸ runIssue_keeps _ _ _ _ _ h3 (by decide) hc
      | none => simp [h1, h2, h3] at hd; exact coordStep_keeps _ _ _ _ hd (by decide) hc

theorem dropPlaces_keeps (w : List Part) (a : Core) (x0 : Core) (x1 : Nat)
    (hw : [.de, .lanes] ⊆ w) (h : SameBut w a x0) :
    SameBut w a (dropPlaces x0 x1) := by
  refine SameBut.next ?_ hw h
  clear hw h
  unfold dropPlaces
  repeat' first
    | with_reducible exact SameBut.refl _ _
    | with_reducible assumption
    | (extract_lets +onlyGivenNames z; first | (refine SameBut.cut (x := z) ?_ (fun _ => ?_) <;> [(unfold z; clear z); clear_value z]) | clear_value z)
    | with_reducible refine SameBut.ite _ _ _ _ _ (fun _ => ?_) (fun _ => ?_)
    | with_reducible refine modLane_keeps _ _ _ _ _ (by decide) ?_
    | with_reducible refine giveBack_keeps _ _ _ _ _ (by decide) ?_
    | with_reducible refine SameBut.fold _ _ _ _ _ (fun _ _ => ?_) ?_
    | split
    | with_reducible refine SameBut.set_de _ _ _ _ (by decide) ?_

theorem recheckEntry_keeps (w : List Part) (a : Core) (x0 : Core) (x1 : Ready)
    (hw : [.io, .rsRegs, .rsCnts, .rsPages, .fe, .queues, .ctxs, .sqs, .isr, .de, .lanes, .st, .mf, .cru, .sched, .tu, .shr, .strm, .pp, .pmu, .trc, .free] ⊆ w) (h : SameBut w a x0) :
    SameBut w a (recheckEntry x0 x1) := by
  refine SameBut.next ?_ hw h
  clear hw h
  unfold recheckEntry
  repeat' first
    | with_reducible exact SameBut.refl _ _
    | with_reducible assumption
    | with_reducible refine SameBut.ite _ _ _ _ _ (fun _ => ?_) (fun _ => ?_)
    | with_reducible refine instFault_keeps _ _ _ _ _ _ _ (by decide) ?_

theorem maskEngine_keeps (w : List Part) (a : Core) (x0 : Core) (x1 : Nat)
    (hw : [.io, .engs, .rsRegs, .rsCnts, .rsPages, .fe, .queues, .ctxs, .sqs, .isr, .de, .lanes, .st, .mf, .cru, .sched, .tu, .shr, .strm, .pp, .ras, .pmu, .trc, .free] ⊆ w) (h : SameBut w a x0) :
    SameBut w a (maskEngine x0 x1) := by
  refine SameBut.next ?_ hw h
  clear hw h
  unfold maskEngine
  repeat' first
    | with_reducible exact SameBut.refl _ _
    | with_reducible assumption
    | (extract_lets +onlyGivenNames z; first | (refine SameBut.cut (x := z) ?_ (fun _ => ?_) <;> [(unfold z; clear z); clear_value z]) | clear_value z)
    | with_reducible refine recheckEntry_keeps _ _ _ _ (by decide) ?_
    | with_reducible refine restEng_keeps _ _ _ _ (by decide) ?_
    | with_reducible refine dropPlaces_keeps _ _ _ _ (by decide) ?_
    | with_reducible refine logErr_keeps _ _ _ _ (by decide) ?_
    | with_reducible refine modEng_keeps _ _ _ _ _ (by decide) ?_
    | with_reducible refine SameBut.fold _ _ _ _ _ (fun _ _ => ?_) ?_

theorem engFault_keeps (w : List Part) (a : Core) (x0 : Core) (x1 : Issue) (x2 : Nat) (x3 : Nat)
    (hw : [.io, .engs, .rsRegs, .rsCnts, .rsPages, .fe, .queues, .ctxs, .sqs, .isr, .de, .lanes, .st, .mf, .cru, .sched, .tu, .shr, .strm, .pp, .ras, .pmu, .trc, .free] ⊆ w) (h : SameBut w a x0) :
    SameBut w a (engFault x0 x1 x2 x3) := by
  refine SameBut.next ?_ hw h
  clear hw h
  unfold engFault
  repeat' first
    | with_reducible exact SameBut.refl _ _
    | with_reducible assumption
    | (extract_lets +onlyGivenNames z; first | (refine SameBut.cut (x := z) ?_ (fun _ => ?_) <;> [(unfold z; clear z); clear_value z]) | clear_value z)
    | with_reducible refine SameBut.ite _ _ _ _ _ (fun _ => ?_) (fun _ => ?_)
    | with_reducible refine modCtx_keeps _ _ _ _ _ (by decide) ?_
    | with_reducible refine instAbort_keeps _ _ _ _ _ (by decide) ?_
    | with_reducible refine cntAdd_keeps _ _ _ _ _ _ (by decide) ?_
    | with_reducible refine irqSet_keeps _ _ _ _ _ (by decide) ?_
    | with_reducible refine contain_keeps _ _ _ _ (by decide) ?_
    | with_reducible refine maskEngine_keeps _ _ _ _ (by decide) ?_
    | with_reducible refine modEng_keeps _ _ _ _ _ (by decide) ?_
    | with_reducible refine instAbort_keeps_eq _ _ _ _ _ _ _ ‹_› (by decide) ?_
    | split

theorem returnCopy_keeps (w : List Part) (a : Core) (x0 : Core) (x1 : Issue)
    (hw : [.de, .lanes] ⊆ w) (h : SameBut w a x0) :
    SameBut w a (returnCopy x0 x1) := by
  refine SameBut.next ?_ hw h
  clear hw h
  unfold returnCopy
  repeat' first
    | with_reducible exact SameBut.refl _ _
    | with_reducible assumption
    | (extract_lets +onlyGivenNames z; first | (refine SameBut.cut (x := z) ?_ (fun _ => ?_) <;> [(unfold z; clear z); clear_value z]) | clear_value z)
    | with_reducible refine SameBut.ite _ _ _ _ _ (fun _ => ?_) (fun _ => ?_)
    | with_reducible refine giveBack_keeps _ _ _ _ _ (by decide) ?_
    | split
    | with_reducible refine SameBut.set_de _ _ _ _ (by decide) ?_

theorem gangClosed_keeps (w : List Part) (a : Core) (x0 : Core) (x1 : Issue) (x2 : Nat) (x3 : Nat)
    (hw : [.de] ⊆ w) (h : SameBut w a x0) :
    SameBut w a (gangClosed x0 x1 x2 x3).2 := by
  refine SameBut.next ?_ hw h
  clear hw h
  unfold gangClosed
  repeat' first
    | with_reducible exact SameBut.refl _ _
    | with_reducible assumption
    | (extract_lets +onlyGivenNames z; first | (refine SameBut.cut (x := z) ?_ (fun _ => ?_) <;> [(unfold z; clear z); clear_value z]) | clear_value z)
    | with_reducible refine SameBut.ite _ _ _ _ _ (fun _ => ?_) (fun _ => ?_)
    | split
    | with_reducible refine SameBut.set_de _ _ _ _ (by decide) ?_

theorem gangClosed_keeps_eq (w : List Part) (a : Core) (x0 : Core) (x1 : Issue) (x2 : Nat) (x3 : Nat)
    (y d) (e : gangClosed x0 x1 x2 x3 = (y, d)) (hw : [.de] ⊆ w) (h : SameBut w a x0) :
    SameBut w a d := by
  have := gangClosed_keeps w a x0 x1 x2 x3 hw h
  rw [e] at this
  exact this

theorem taskEnded_keeps (w : List Part) (a : Core) (x0 : Core) (x1 : Issue) (x2 : Nat) (x3 : Word)
    (hw : [.io, .rsRegs, .rsCnts, .rsPages, .qsc, .fe, .queues, .ctxs, .sqs, .isr, .de, .lanes, .st, .mf, .cru, .sched, .tu, .shr, .strm, .pp, .det, .pmu, .trc, .free] ⊆ w) (h : SameBut w a x0) :
    SameBut w a (taskEnded x0 x1 x2 x3) := by
  refine SameBut.next ?_ hw h
  clear hw h
  unfold taskEnded
  repeat' first
    | with_reducible exact SameBut.refl _ _
    | with_reducible assumption
    | with_reducible refine SameBut.ite _ _ _ _ _ (fun _ => ?_) (fun _ => ?_)
    | with_reducible refine cruTake_keeps _ _ _ _ (by decide) ?_
    | with_reducible refine returnCopy_keeps _ _ _ _ (by decide) ?_

theorem taskClosed_keeps (w : List Part) (a : Core) (x0 : Core) (x1 : Issue) (x2 : Nat) (x3 : Nat) (x4 : Nat)
    (hw : [.io, .engs, .rsRegs, .rsCnts, .rsPages, .qsc, .fe, .queues, .ctxs, .sqs, .isr, .de, .lanes, .st, .mf, .cru, .sched, .tu, .shr, .strm, .pp, .det, .ras, .pmu, .trc, .free] ⊆ w) (h : SameBut w a x0) :
    SameBut w a (taskClosed x0 x1 x2 x3 x4) := by
  refine SameBut.next ?_ hw h
  clear hw h
  unfold taskClosed
  repeat' first
    | with_reducible exact SameBut.refl _ _
    | with_reducible assumption
    | (extract_lets +onlyGivenNames z; first | (refine SameBut.cut (x := z) ?_ (fun _ => ?_) <;> [(unfold z; clear z); clear_value z]) | (refine SameBut.cut (x := z.2) ?_ (fun _ => ?_) <;> [(unfold z; clear z); clear_value z]) | (refine SameBut.cut (x := z.1) ?_ (fun _ => ?_) <;> [(unfold z; clear z); clear_value z]) | clear_value z)
    | with_reducible refine SameBut.ite _ _ _ _ _ (fun _ => ?_) (fun _ => ?_)
    | with_reducible refine cntAdd_keeps _ _ _ _ _ _ (by decide) ?_
    | with_reducible refine gangClosed_keeps _ _ _ _ _ _ (by decide) ?_
    | with_reducible refine taskEnded_keeps _ _ _ _ _ _ (by decide) ?_
    | with_reducible refine modInst_keeps _ _ _ _ _ (by decide) ?_
    | with_reducible refine engFault_keeps _ _ _ _ _ _ (by decide) ?_
    | with_reducible refine gangClosed_keeps_eq _ _ _ _ _ _ _ _ ‹_› (by decide) ?_
    | split

theorem saveClosed_keeps (w : List Part) (a : Core) (x0 : Core) (x1 : Issue) (x2 : Nat) (x3 : Nat) (x4 : Nat) (x5 : Nat)
    (hw : [.io, .engs, .rsRegs, .rsCnts, .rsPages, .fe, .queues, .ctxs, .sqs, .isr, .de, .lanes, .st, .mf, .cru, .sched, .tu, .shr, .strm, .pp, .ras, .pmu, .trc, .dbg, .free] ⊆ w) (h : SameBut w a x0) :
    SameBut w a (saveClosed x0 x1 x2 x3 x4 x5) := by
  refine SameBut.next ?_ hw h
  clear hw h
  unfold saveClosed
  repeat' first
    | with_reducible exact SameBut.refl _ _
    | with_reducible assumption
    | (extract_lets +onlyGivenNames z; first | (refine SameBut.cut (x := z) ?_ (fun _ => ?_) <;> [(unfold z; clear z); clear_value z]) | clear_value z)
    | with_reducible refine SameBut.ite _ _ _ _ _ (fun _ => ?_) (fun _ => ?_)
    | with_reducible refine modPre_keeps _ _ _ _ _ (by decide) ?_
    | with_reducible refine saveAdvance_keeps _ _ _ _ (by decide) ?_
    | with_reducible refine restoreAdvance_keeps _ _ _ _ (by decide) ?_
    | with_reducible refine engFault_keeps _ _ _ _ _ _ (by decide) ?_

theorem issueClosed_keeps (w : List Part) (a : Core) (x0 : Core) (x1 : Nat) (x2 : Nat) (x3 : Issue)
    (hw : [.io, .engs, .rsRegs, .rsCnts, .rsPages, .qsc, .fe, .queues, .ctxs, .sqs, .isr, .de, .lanes, .st, .mf, .cru, .sched, .tu, .shr, .strm, .tbl, .pp, .det, .ras, .pmu, .trc, .dbg, .free] ⊆ w) (h : SameBut w a x0) :
    SameBut w a (issueClosed x0 x1 x2 x3) := by
  refine SameBut.next ?_ hw h
  clear hw h
  unfold issueClosed
  repeat' first
    | with_reducible exact SameBut.refl _ _
    | with_reducible assumption
    | (extract_lets +onlyGivenNames z; first | (refine SameBut.cut (x := z) ?_ (fun _ => ?_) <;> [(unfold z; clear z); clear_value z]) | clear_value z)
    | with_reducible refine SameBut.ite _ _ _ _ _ (fun _ => ?_) (fun _ => ?_)
    | with_reducible refine demandSweep_keeps _ _ _ (by decide) ?_
    | with_reducible refine taskClosed_keeps _ _ _ _ _ _ _ (by decide) ?_
    | with_reducible refine pointTimer_keeps _ _ _ _ (by decide) ?_
    | with_reducible refine restSpan_keeps _ _ _ _ _ (by decide) ?_
    | with_reducible refine modLane_keeps _ _ _ _ _ (by decide) ?_
    | with_reducible refine xferClosed_keeps _ _ _ _ _ _ (by decide) ?_
    | with_reducible refine saveAdvance_keeps _ _ _ _ (by decide) ?_
    | with_reducible refine saveClosed_keeps _ _ _ _ _ _ _ _ (by decide) ?_
    | with_reducible refine checkGuilty_keeps _ _ _ _ (by decide) ?_
    | with_reducible refine trace_keeps _ _ _ _ _ _ _ _ _ _ (by decide) ?_
    | with_reducible refine engFault_keeps _ _ _ _ _ _ (by decide) ?_
    | split
    | with_reducible refine SameBut.set_st _ _ _ _ (by decide) ?_

theorem laneCpl_keeps (w : List Part) (a : Core) (x0 : Core) (x1 : Nat) (x2 : BitVec 128)
    (hw : [.io, .engs, .rsRegs, .rsCnts, .rsPages, .qsc, .fe, .queues, .ctxs, .sqs, .isr, .de, .lanes, .st, .mf, .cru, .sched, .tu, .shr, .strm, .tbl, .pp, .det, .ras, .pmu, .trc, .dbg, .free] ⊆ w) (h : SameBut w a x0) :
    SameBut w a (laneCpl x0 x1 x2) := by
  refine SameBut.next ?_ hw h
  clear hw h
  unfold laneCpl
  repeat' first
    | with_reducible exact SameBut.refl _ _
    | with_reducible assumption
    | (extract_lets +onlyGivenNames z; first | (refine SameBut.cut (x := z) ?_ (fun _ => ?_) <;> [(unfold z; clear z); clear_value z]) | clear_value z)
    | with_reducible refine SameBut.ite _ _ _ _ _ (fun _ => ?_) (fun _ => ?_)
    | with_reducible refine pageErr_keeps _ _ _ _ _ _ _ (by decide) ?_
    | with_reducible refine modLane_keeps _ _ _ _ _ (by decide) ?_
    | with_reducible refine issueClosed_keeps _ _ _ _ _ _ (by decide) ?_
    | with_reducible refine cntAdd_keeps _ _ _ _ _ _ (by decide) ?_
    | split

end Sys2Proof.Machine
end

