-- ==== Sys2Proof/Laws/Marver.lean ====
section
/-! SUPPORT. What the operations of Marver.lean leave as it was. -/

set_option linter.unusedTactic false
set_option linter.unreachableTactic false
set_option linter.tactic.unusedName false

namespace Sys2Proof.Machine

theorem opMix_keeps (w : List Part) (a : Core) (x0 : Nat) (x1 : Core) (x2 : Nat) (x3 : Word) (x4 : Word)
    (hw : [.io, .rsRegs, .rsCnts, .rsPages, .fe, .queues, .ctxs, .sqs, .isr, .de, .lanes, .st, .mf, .cru, .sched, .marv, .tu, .shr, .strm, .pp, .pmu, .trc, .dbg, .free] ⊆ w) (h : SameBut w a x1) :
    SameBut w a (opMix x0 x1 x2 x3 x4) := by
  refine SameBut.next ?_ hw h
  clear hw h
  unfold opMix
  repeat' first
    | with_reducible exact SameBut.refl _ _
    | with_reducible assumption
    | (extract_lets +onlyGivenNames z; first | (refine SameBut.cut (x := z) ?_ (fun _ => ?_) <;> [(unfold z; clear z); clear_value z]) | clear_value z)
    | with_reducible refine SameBut.ite _ _ _ _ _ (fun _ => ?_) (fun _ => ?_)
    | with_reducible refine moveOn_keeps _ _ _ _ (by decide) ?_
    | with_reducible refine cmdFault_keeps _ _ _ _ _ (by decide) ?_
    | with_reducible refine stallAt_keeps _ _ _ _ _ (by decide) ?_
    | split
    | with_reducible refine SameBut.set_marv _ _ _ _ (by decide) ?_

theorem mixPlace_keeps (w : List Part) (a : Core) (x0 : Core) (x1 : MixReq)
    (hw : [.rsCnts, .isr] ⊆ w) (h : SameBut w a x0) :
    SameBut w a (mixPlace x0 x1) := by
  refine SameBut.next ?_ hw h
  clear hw h
  unfold mixPlace
  repeat' first
    | with_reducible exact SameBut.refl _ _
    | with_reducible assumption
    | (extract_lets +onlyGivenNames z; first | (refine SameBut.cut (x := z) ?_ (fun _ => ?_) <;> [(unfold z; clear z); clear_value z]) | clear_value z)
    | with_reducible refine cntAdd_keeps _ _ _ _ _ _ (by decide) ?_
    | with_reducible refine patchPut_keeps _ _ _ _ _ _ (by decide) ?_
    | with_reducible refine modInst_keeps _ _ _ _ _ (by decide) ?_

theorem chunkCount_keeps (w : List Part) (a : Core) (x0 : Core) (x1 : Nat) (x2 : Nat)
    (hw : [.rsCnts, .isr, .pmu] ⊆ w) (h : SameBut w a x0) :
    SameBut w a (chunkCount x0 x1 x2) := by
  refine SameBut.next ?_ hw h
  clear hw h
  unfold chunkCount
  repeat' first
    | with_reducible exact SameBut.refl _ _
    | with_reducible assumption
    | (extract_lets +onlyGivenNames z; first | (refine SameBut.cut (x := z) ?_ (fun _ => ?_) <;> [(unfold z; clear z); clear_value z]) | clear_value z)
    | with_reducible refine pmuEv_keeps _ _ _ _ _ _ (by decide) ?_
    | with_reducible refine cntAdd_keeps _ _ _ _ _ _ (by decide) ?_
    | with_reducible refine modInst_keeps _ _ _ _ _ (by decide) ?_

theorem measureArrays_keeps (w : List Part) (a : Core) (x0 : Core)
    (hw : [.marv, .free] ⊆ w) (h : SameBut w a x0) :
    SameBut w a (measureArrays x0) := by
  refine SameBut.next ?_ hw h
  unfold measureArrays
  extract_lets d p
  have hp : SameBut [.marv, .free] x0 p.2 := by
    unfold p
    split
    · exact freeNat_keeps _ _ _ (by decide) (SameBut.refl _ _)
    · exact SameBut.refl _ _
  exact SameBut.set_marv _ _ _ _ (by decide) hp

theorem measureHbm_keeps (w : List Part) (a : Core) (x0 : Core) (x1 : QStatus) (x2 : Word) (x3 : Word)
    (hw : [.rsPages, .marv] ⊆ w) (h : SameBut w a x0) :
    SameBut w a (measureHbm x0 x1 x2 x3) := by
  refine SameBut.next ?_ hw h
  clear hw h
  unfold measureHbm
  repeat' first
    | with_reducible exact SameBut.refl _ _
    | with_reducible assumption
    | (extract_lets +onlyGivenNames z; first | (refine SameBut.cut (x := z) ?_ (fun _ => ?_) <;> [(unfold z; clear z); clear_value z]) | clear_value z)
    | with_reducible refine SameBut.ite _ _ _ _ _ (fun _ => ?_) (fun _ => ?_)
    | with_reducible refine pageErr_keeps _ _ _ _ _ _ _ (by decide) ?_
    | split
    | with_reducible refine SameBut.set_marv _ _ _ _ (by decide) ?_

theorem adaptPhi_keeps (w : List Part) (a : Core) (x0 : Core)
    (hw : [.rsCnts, .marv] ⊆ w) (h : SameBut w a x0) :
    SameBut w a (adaptPhi x0) := by
  refine SameBut.next ?_ hw h
  clear hw h
  unfold adaptPhi
  repeat' first
    | with_reducible exact SameBut.refl _ _
    | with_reducible assumption
    | (extract_lets +onlyGivenNames z; first | (refine SameBut.cut (x := z) ?_ (fun _ => ?_) <;> [(unfold z; clear z); clear_value z]) | clear_value z)
    | with_reducible refine SameBut.ite _ _ _ _ _ (fun _ => ?_) (fun _ => ?_)
    | with_reducible refine cntAdd_keeps _ _ _ _ _ _ (by decide) ?_
    | with_reducible refine SameBut.set_marv _ _ _ _ (by decide) ?_

theorem adaptStart_keeps (w : List Part) (a : Core) (x0 : Core)
    (hw : [.io, .rsCnts, .marv, .tu, .pmu, .trc, .free] ⊆ w) (h : SameBut w a x0) :
    SameBut w a (adaptStart x0) := by
  refine SameBut.next ?_ hw h
  clear hw h
  unfold adaptStart
  repeat' first
    | with_reducible exact SameBut.refl _ _
    | with_reducible assumption
    | (extract_lets +onlyGivenNames z; first | (refine SameBut.cut (x := z) ?_ (fun _ => ?_) <;> [(unfold z; clear z); clear_value z]) | clear_value z)
    | with_reducible refine SameBut.ite _ _ _ _ _ (fun _ => ?_) (fun _ => ?_)
    | with_reducible refine armPeriod_keeps _ _ _ _ _ _ (by decide) ?_
    | with_reducible refine mpRead_keeps _ _ _ _ _ _ _ (by decide) ?_
    | with_reducible refine adaptPhi_keeps _ _ _ (by decide) ?_
    | with_reducible refine measureArrays_keeps _ _ _ (by decide) ?_
    | with_reducible refine alarmFire_keeps _ _ _ _ _ _ _ ‹_› (by decide) ?_
    | split
    | with_reducible refine SameBut.set_marv _ _ _ _ (by decide) ?_

end Sys2Proof.Machine
end

