-- ==== Sys2Proof/Laws/Fe.lean ====
section
/-! SUPPORT. What the operations of Fe.lean leave as it was. -/

set_option linter.unusedTactic false
set_option linter.unreachableTactic false
set_option linter.tactic.unusedName false

namespace Sys2Proof.Machine

theorem batchCheck_keeps (w : List Part) (a : Core) (x0 : Core)
    (hw : [.fe] ⊆ w) (h : SameBut w a x0) :
    SameBut w a (batchCheck x0) := by
  refine SameBut.next ?_ hw h
  clear hw h
  unfold batchCheck
  repeat' first
    | with_reducible exact SameBut.refl _ _
    | with_reducible assumption
    | (extract_lets +onlyGivenNames z; first | (refine SameBut.cut (x := z) ?_ (fun _ => ?_) <;> [(unfold z; clear z); clear_value z]) | clear_value z)
    | with_reducible refine SameBut.ite _ _ _ _ _ (fun _ => ?_) (fun _ => ?_)
    | with_reducible refine SameBut.set_fe _ _ _ _ (by decide) ?_

theorem batchReads_keeps (w : List Part) (a : Core) (x0 : Core)
    (hw : [.io, .rsPages, .fe, .ctxs, .pmu] ⊆ w) (h : SameBut w a x0) :
    SameBut w a (batchReads x0) := by
  refine SameBut.next ?_ hw h
  clear hw h
  unfold batchReads
  repeat' first
    | with_reducible exact SameBut.refl _ _
    | with_reducible assumption
    | (extract_lets +onlyGivenNames z; first | (refine SameBut.cut (x := z) ?_ (fun _ => ?_) <;> [(unfold z; clear z); clear_value z]) | clear_value z)
    | with_reducible refine batchCheck_keeps _ _ _ (by decide) ?_
    | with_reducible refine otNeed_keeps _ _ _ _ _ (by decide) ?_
    | with_reducible refine otPump_keeps _ _ _ (by decide) ?_
    | with_reducible refine SameBut.fold _ _ _ _ _ (fun _ _ => ?_) ?_
    | with_reducible refine SameBut.set_fe _ _ _ _ (by decide) ?_

theorem ringStopped_keeps (w : List Part) (a : Core) (x0 : Core)
    (hw : [.rsPages, .fe] ⊆ w) (h : SameBut w a x0) :
    SameBut w a (ringStopped x0) := by
  refine SameBut.next ?_ hw h
  clear hw h
  unfold ringStopped
  repeat' first
    | with_reducible exact SameBut.refl _ _
    | with_reducible assumption
    | with_reducible refine irqSet_keeps _ _ _ _ _ (by decide) ?_
    | with_reducible refine SameBut.set_fe _ _ _ _ (by decide) ?_

theorem makeCtx_keeps (w : List Part) (a : Core) (x0 : Core) (x1 : Hdr) (x2 : List Word)
    (hw : [.io, .rsRegs, .rsCnts, .rsPages, .fe, .ctxs, .sched, .pmu] ⊆ w) (h : SameBut w a x0) :
    SameBut w a (makeCtx x0 x1 x2) := by
  refine SameBut.next ?_ hw h
  clear hw h
  unfold makeCtx
  repeat' first
    | with_reducible exact SameBut.refl _ _
    | with_reducible assumption
    | (extract_lets +onlyGivenNames z; first | (refine SameBut.cut (x := z) ?_ (fun _ => ?_) <;> [(unfold z; clear z); clear_value z]) | clear_value z)
    | with_reducible refine answer_keeps _ _ _ _ _ _ _ _ (by decide) ?_
    | with_reducible refine modCtx_keeps _ _ _ _ _ (by decide) ?_
    | with_reducible refine modSched_keeps _ _ _ _ _ (by decide) ?_
    | with_reducible refine feDone_keeps _ _ _ (by decide) ?_

theorem wrapSteps_keeps (w : List Part) (a : Core) (x0 : Core) (x1 : Nat)
    (hw : [.io, .rsRegs, .rsCnts, .rsPages, .fe, .ctxs, .sched, .pmu] ⊆ w) (h : SameBut w a x0) :
    SameBut w a (wrapSteps x0 x1) := by
  refine SameBut.next ?_ hw h
  clear hw h
  fun_induction wrapSteps x0 x1
  all_goals repeat' first
    | with_reducible exact SameBut.refl _ _
    | with_reducible assumption
    | (with_reducible refine SameBut.trans ?_ (by assumption))
    | (extract_lets +onlyGivenNames z; first | (refine SameBut.cut (x := z) ?_ (fun _ => ?_) <;> [(unfold z; clear z); clear_value z]) | clear_value z)
    | with_reducible refine SameBut.ite _ _ _ _ _ (fun _ => ?_) (fun _ => ?_)
    | with_reducible refine makeCtx_keeps _ _ _ _ _ (by decide) ?_
    | with_reducible refine otFlush_keeps _ _ _ _ (by decide) ?_
    | with_reducible refine otNeed_keeps _ _ _ _ _ (by decide) ?_
    | with_reducible refine otPump_keeps _ _ _ (by decide) ?_
    | split
    | with_reducible refine SameBut.set_fe _ _ _ _ (by decide) ?_

theorem wrapStep_keeps (w : List Part) (a : Core) (x0 : Core)
    (hw : [.io, .rsRegs, .rsCnts, .rsPages, .fe, .ctxs, .sched, .pmu] ⊆ w) (h : SameBut w a x0) :
    SameBut w a (wrapStep x0) := by
  refine SameBut.next ?_ hw h
  clear hw h
  unfold wrapStep
  repeat' first
    | with_reducible exact SameBut.refl _ _
    | with_reducible assumption
    | with_reducible refine wrapSteps_keeps _ _ _ _ (by decide) ?_

theorem otReadFail_keeps (w : List Part) (a : Core) (x0 : Core) (x1 : Nat)
    (hw : [.rsPages, .fe] ⊆ w) (h : SameBut w a x0) :
    SameBut w a (otReadFail x0 x1) := by
  refine SameBut.next ?_ hw h
  clear hw h
  unfold otReadFail
  repeat' first
    | with_reducible exact SameBut.refl _ _
    | with_reducible assumption
    | (extract_lets +onlyGivenNames z; first | (refine SameBut.cut (x := z) ?_ (fun _ => ?_) <;> [(unfold z; clear z); clear_value z]) | clear_value z)
    | with_reducible refine SameBut.ite _ _ _ _ _ (fun _ => ?_) (fun _ => ?_)
    | with_reducible refine pageErr_keeps _ _ _ _ _ _ _ (by decide) ?_
    | with_reducible refine ringStopped_keeps _ _ _ (by decide) ?_
    | split
    | with_reducible refine SameBut.set_fe _ _ _ _ (by decide) ?_

theorem otEffect_keeps (w : List Part) (a : Core) (x0 : Bool) (x1 : Core) (x2 : OtEff)
    (hw : [.io, .rsRegs, .rsCnts, .rsPages, .fe, .ctxs, .pmu] ⊆ w) (h : SameBut w a x1) :
    SameBut w a (otEffect x0 x1 x2) := by
  refine SameBut.next ?_ hw h
  clear hw h
  unfold otEffect
  repeat' first
    | with_reducible exact SameBut.refl _ _
    | with_reducible assumption
    | (extract_lets +onlyGivenNames z; first | (refine SameBut.cut (x := z) ?_ (fun _ => ?_) <;> [(unfold z; clear z); clear_value z]) | clear_value z)
    | with_reducible refine SameBut.ite _ _ _ _ _ (fun _ => ?_) (fun _ => ?_)
    | with_reducible refine pushRec_keeps _ _ _ _ (by decide) ?_
    | with_reducible refine modCtx_keeps _ _ _ _ _ (by decide) ?_
    | with_reducible refine cntAdd_keeps _ _ _ _ _ _ (by decide) ?_
    | split

theorem headWb_keeps (w : List Part) (a : Core) (x0 : Core)
    (hw : [.io, .pmu] ⊆ w) (h : SameBut w a x0) :
    SameBut w a (headWb x0) := by
  refine SameBut.next ?_ hw h
  clear hw h
  unfold headWb
  repeat' first
    | with_reducible exact SameBut.refl _ _
    | with_reducible assumption
    | with_reducible refine SameBut.ite _ _ _ _ _ (fun _ => ?_) (fun _ => ?_)
    | with_reducible refine hipWrite_keeps _ _ _ _ _ _ _ (by decide) ?_

theorem consume_keeps (w : List Part) (a : Core) (x0 : Core) (x1 : Entry) (x2 : List Entry)
    (hw : [.rsRegs, .rsPages, .fe, .pmu] ⊆ w) (h : SameBut w a x0) :
    SameBut w a (consume x0 x1 x2) := by
  refine SameBut.next ?_ hw h
  clear hw h
  unfold consume
  repeat' first
    | with_reducible exact SameBut.refl _ _
    | with_reducible assumption
    | (extract_lets +onlyGivenNames z; first | (refine SameBut.cut (x := z) ?_ (fun _ => ?_) <;> [(unfold z; clear z); clear_value z]) | clear_value z)
    | with_reducible refine pmuEv_keeps _ _ _ _ _ _ (by decide) ?_
    | with_reducible refine regSet_keeps _ _ _ _ _ _ (by decide) ?_
    | with_reducible refine SameBut.set_fe _ _ _ _ (by decide) ?_

theorem badEntry_keeps (w : List Part) (a : Core) (x0 : Core) (x1 : Hdr) (x2 : List Word)
    (hw : [.io, .rsRegs, .rsCnts, .rsPages, .fe, .pmu] ⊆ w) (h : SameBut w a x0) :
    SameBut w a (badEntry x0 x1 x2) := by
  refine SameBut.next ?_ hw h
  clear hw h
  unfold badEntry
  repeat' first
    | with_reducible exact SameBut.refl _ _
    | with_reducible assumption
    | with_reducible refine SameBut.ite _ _ _ _ _ (fun _ => ?_) (fun _ => ?_)
    | with_reducible refine answer_keeps _ _ _ _ _ _ _ _ (by decide) ?_

theorem feDecode_keeps (w : List Part) (a : Core) (is : Nat → Bool) (f : Core → Hdr → List Word → Core) (c : Core)
    (hw : [.io, .rsRegs, .rsCnts, .rsPages, .fe, .pmu] ⊆ w) (hf : ∀ c x y, SameBut w c (f c x y)) (h : SameBut w a c) : SameBut w a (feDecode is f c) := by
  refine h.trans ?_
  unfold feDecode
  split
  · exact SameBut.refl _ _
  refine SameBut.ite _ _ _ _ _ (fun _ => SameBut.refl _ _) (fun _ => ?_)
  refine SameBut.ite _ _ _ _ _ (fun _ => ?_) (fun _ => ?_)
  · exact irqSet_keeps _ _ _ _ _ (List.Subset.trans (by decide) hw) (SameBut.set_fe _ _ _ _ (hw (by decide)) (SameBut.refl _ _))
  extract_lets d x
  have hd : SameBut w c d := consume_keeps _ _ _ _ _ (List.Subset.trans (by decide) hw) (SameBut.refl _ _)
  clear_value d
  refine feKick_keeps _ _ _ (List.Subset.trans (by decide) hw) (headWb_keeps _ _ _ (List.Subset.trans (by decide) hw) (SameBut.ite _ _ _ _ _ (fun _ => hd.trans (hf _ _ _)) (fun _ => ?_)))
  exact badEntry_keeps _ _ _ _ _ (List.Subset.trans (by decide) hw) hd

theorem modWait_keeps (w : List Part) (a : Core) (x0 : Core) (x1 : Nat) (x2 : Nat) (x3 : Sub → Sub)
    (hw : [.queues] ⊆ w) (h : SameBut w a x0) :
    SameBut w a (modWait x0 x1 x2 x3) := by
  refine SameBut.next ?_ hw h
  clear hw h
  unfold modWait
  repeat' first
    | with_reducible exact SameBut.refl _ _
    | with_reducible assumption
    | with_reducible refine SameBut.ite _ _ _ _ _ (fun _ => ?_) (fun _ => ?_)
    | with_reducible refine modQ_keeps _ _ _ _ _ (by decide) ?_

theorem fetchSub_keeps (w : List Part) (a : Core) (x0 : Core) (x1 : Nat) (x2 : Sub)
    (hw : [.io, .fe, .queues, .pmu] ⊆ w) (h : SameBut w a x0) :
    SameBut w a (fetchSub x0 x1 x2) := by
  refine SameBut.next ?_ hw h
  clear hw h
  unfold fetchSub
  repeat' first
    | with_reducible exact SameBut.refl _ _
    | with_reducible assumption
    | (extract_lets +onlyGivenNames z; first | (refine SameBut.cut (x := z) ?_ (fun _ => ?_) <;> [(unfold z; clear z); clear_value z]) | clear_value z)
    | with_reducible refine SameBut.ite _ _ _ _ _ (fun _ => ?_) (fun _ => ?_)
    | with_reducible refine hipRead_keeps _ _ _ _ _ _ _ (by decide) ?_
    | with_reducible refine modWait_keeps _ _ _ _ _ _ (by decide) ?_
    | with_reducible refine SameBut.set_fe _ _ _ _ (by decide) ?_

theorem fetchList_keeps (w : List Part) (a : Core) (x0 : Core) (x1 : Nat) (x2 : List (Nat × Sub))
    (hw : [.io, .fe, .queues, .pmu] ⊆ w) (h : SameBut w a x0) :
    SameBut w a (fetchList x0 x1 x2) := by
  refine SameBut.next ?_ hw h
  clear hw h
  fun_induction fetchList x0 x1 x2
  all_goals repeat' first
    | with_reducible exact SameBut.refl _ _
    | with_reducible assumption
    | (with_reducible refine SameBut.trans ?_ (by assumption))
    | with_reducible refine SameBut.ite _ _ _ _ _ (fun _ => ?_) (fun _ => ?_)
    | with_reducible refine fetchSub_keeps _ _ _ _ _ (by decide) ?_
    | split

theorem prefetch_keeps (w : List Part) (a : Core) (x0 : Core) (x1 : Nat)
    (hw : [.io, .fe, .queues, .pmu] ⊆ w) (h : SameBut w a x0) :
    SameBut w a (prefetch x0 x1) := by
  refine SameBut.next ?_ hw h
  clear hw h
  unfold prefetch
  repeat' first
    | with_reducible exact SameBut.refl _ _
    | with_reducible assumption
    | with_reducible refine fetchList_keeps _ _ _ _ _ (by decide) ?_

theorem evictFor_keeps (w : List Part) (a : Core) (x0 : Nat) (x1 : Nat) (x2 : Nat) (x3 : Nat) (x4 : Core)
    (hw : [.queues] ⊆ w) (h : SameBut w a x4) :
    SameBut w a (evictFor x0 x1 x2 x3 x4) := by
  refine SameBut.next ?_ hw h
  clear hw h
  fun_induction evictFor x0 x1 x2 x3 x4
  all_goals repeat' first
    | with_reducible exact SameBut.refl _ _
    | with_reducible assumption
    | (with_reducible refine SameBut.trans ?_ (by assumption))
    | (extract_lets +onlyGivenNames z; first | (refine SameBut.cut (x := z) ?_ (fun _ => ?_) <;> [(unfold z; clear z); clear_value z]) | clear_value z)
    | with_reducible refine SameBut.ite _ _ _ _ _ (fun _ => ?_) (fun _ => ?_)
    | with_reducible refine modWait_keeps _ _ _ _ _ _ (by decide) ?_
    | split

theorem takeRef_keeps (w : List Part) (a : Core) (x0 : Core) (x1 : Nat)
    (hw : [.io, .fe, .ctxs, .pmu] ⊆ w) (h : SameBut w a x0) :
    SameBut w a (takeRef x0 x1) := by
  refine SameBut.next ?_ hw h
  clear hw h
  unfold takeRef
  repeat' first
    | with_reducible exact SameBut.refl _ _
    | with_reducible assumption
    | with_reducible refine otChange_keeps _ _ _ _ _ _ (by decide) ?_
    | split

theorem acceptSubmit_keeps (w : List Part) (a : Core) (x0 : Core) (x1 : Hdr) (x2 : List Word)
    (hw : [.io, .rsRegs, .rsCnts, .rsPages, .fe, .queues, .ctxs, .sqs, .isr, .lanes, .st, .mf, .sched, .tu, .pp, .pmu, .trc] ⊆ w) (h : SameBut w a x0) :
    SameBut w a (acceptSubmit x0 x1 x2) := by
  refine SameBut.next ?_ hw h
  clear hw h
  unfold acceptSubmit
  repeat' first
    | with_reducible exact SameBut.refl _ _
    | with_reducible assumption
    | (extract_lets +onlyGivenNames z; first | (refine SameBut.cut (x := z) ?_ (fun _ => ?_) <;> [(unfold z; clear z); clear_value z]) | clear_value z)
    | with_reducible refine SameBut.ite _ _ _ _ _ (fun _ => ?_) (fun _ => ?_)
    | with_reducible refine takeRef_keeps _ _ _ _ (by decide) ?_
    | with_reducible refine pmuEv_keeps _ _ _ _ _ _ (by decide) ?_
    | with_reducible refine answer_keeps _ _ _ _ _ _ _ _ (by decide) ?_
    | with_reducible refine modQ_keeps _ _ _ _ _ (by decide) ?_
    | with_reducible refine cntAdd_keeps _ _ _ _ _ _ (by decide) ?_
    | with_reducible refine lateSave_keeps _ _ _ _ (by decide) ?_
    | with_reducible refine trace_keeps _ _ _ _ _ _ _ _ _ _ (by decide) ?_
    | with_reducible refine prefetch_keeps _ _ _ _ (by decide) ?_
    | with_reducible refine SameBut.fold _ _ _ _ _ (fun _ _ => ?_) ?_
    | with_reducible refine SameBut.set_fe _ _ _ _ (by decide) ?_
    | with_reducible refine SameBut.set_st _ _ _ _ (by decide) ?_

theorem createQueue_keeps (w : List Part) (a : Core) (x0 : Core) (x1 : Hdr) (x2 : List Word)
    (hw : [.io, .rsRegs, .rsPages, .fe, .queues, .pmu] ⊆ w) (h : SameBut w a x0) :
    SameBut w a (createQueue x0 x1 x2) := by
  refine SameBut.next ?_ hw h
  clear hw h
  unfold createQueue
  repeat' first
    | with_reducible exact SameBut.refl _ _
    | with_reducible assumption
    | (extract_lets +onlyGivenNames z; first | (refine SameBut.cut (x := z) ?_ (fun _ => ?_) <;> [(unfold z; clear z); clear_value z]) | clear_value z)
    | with_reducible refine modQ_keeps _ _ _ _ _ (by decide) ?_
    | with_reducible refine hipWrite_keeps _ _ _ _ _ _ _ (by decide) ?_
    | with_reducible refine regSet_keeps _ _ _ _ _ _ (by decide) ?_
    | with_reducible refine SameBut.set_fe _ _ _ _ (by decide) ?_

theorem quietStop_keeps (w : List Part) (a : Core) (x0 : Core) (x1 : Nat)
    (hw : [.io, .rsCnts, .queues, .sqs, .isr, .st, .mf, .sched, .tu, .pp, .pmu, .trc] ⊆ w) (h : SameBut w a x0) :
    SameBut w a (quietStop x0 x1) := by
  refine SameBut.next ?_ hw h
  clear hw h
  unfold quietStop
  repeat' first
    | with_reducible exact SameBut.refl _ _
    | with_reducible assumption
    | (extract_lets +onlyGivenNames z; first | (refine SameBut.cut (x := z) ?_ (fun _ => ?_) <;> [(unfold z; clear z); clear_value z]) | clear_value z)
    | with_reducible refine SameBut.ite _ _ _ _ _ (fun _ => ?_) (fun _ => ?_)
    | with_reducible refine stopCommand_keeps _ _ _ _ (by decide) ?_
    | with_reducible refine freeSq_keeps _ _ _ _ (by decide) ?_
    | with_reducible refine programOver_keeps _ _ _ _ (by decide) ?_

theorem dropWaiting_keeps (w : List Part) (a : Core) (x0 : Core) (x1 : Nat)
    (hw : [.io, .rsPages, .fe, .queues, .ctxs, .pmu] ⊆ w) (h : SameBut w a x0) :
    SameBut w a (dropWaiting x0 x1) := by
  refine SameBut.next ?_ hw h
  clear hw h
  unfold dropWaiting
  repeat' first
    | with_reducible exact SameBut.refl _ _
    | with_reducible assumption
    | with_reducible refine dropSub_keeps _ _ _ _ _ (by decide) ?_
    | with_reducible refine SameBut.fold _ _ _ _ _ (fun _ _ => ?_) ?_

theorem destroyQueue_keeps (w : List Part) (a : Core) (x0 : Core) (x1 : Nat) (x2 : Option Nat) (x3 : Option Hdr)
    (hw : [.io, .rsCnts, .rsPages, .fe, .queues, .ctxs, .sqs, .isr, .de, .lanes, .st, .mf, .cru, .sched, .tu, .shr, .strm, .pp, .pmu, .trc, .free] ⊆ w) (h : SameBut w a x0) :
    SameBut w a (destroyQueue x0 x1 x2 x3) := by
  refine SameBut.next ?_ hw h
  clear hw h
  unfold destroyQueue
  repeat' first
    | with_reducible exact SameBut.refl _ _
    | with_reducible assumption
    | (extract_lets +onlyGivenNames z; first | (refine SameBut.cut (x := z) ?_ (fun _ => ?_) <;> [(unfold z; clear z); clear_value z]) | (refine SameBut.cut (x := z.2) ?_ (fun _ => ?_) <;> [(unfold z; clear z); clear_value z]) | (refine SameBut.cut (x := z.1) ?_ (fun _ => ?_) <;> [(unfold z; clear z); clear_value z]) | clear_value z)
    | with_reducible refine stopStreams_keeps _ _ _ _ _ (by decide) ?_
    | with_reducible refine dropWaiting_keeps _ _ _ _ (by decide) ?_
    | with_reducible refine modQ_keeps _ _ _ _ _ (by decide) ?_
    | with_reducible refine quietStop_keeps _ _ _ _ (by decide) ?_
    | with_reducible refine endPreempt_keeps _ _ _ _ _ (by decide) ?_
    | with_reducible refine instsAbort_keeps _ _ _ _ _ (by decide) ?_
    | with_reducible refine balCheck_keeps _ _ _ _ (by decide) ?_
    | with_reducible refine stopStreams_keeps_eq _ _ _ _ _ _ _ ‹_› (by decide) ?_
    | with_reducible refine endPreempt_keeps_eq _ _ _ _ _ _ _ ‹_› (by decide) ?_
    | with_reducible refine instsAbort_keeps_eq _ _ _ _ _ _ _ ‹_› (by decide) ?_
    | with_reducible refine SameBut.set_st _ _ _ _ (by decide) ?_

theorem abortQueue_keeps (w : List Part) (a : Core) (x0 : Core) (x1 : Nat)
    (hw : [.io, .lanes] ⊆ w) (h : SameBut w a x0) :
    SameBut w a (abortQueue x0 x1).1 := by
  refine SameBut.next ?_ hw h
  clear hw h
  unfold abortQueue
  repeat' first
    | with_reducible exact SameBut.refl _ _
    | with_reducible assumption
    | (extract_lets +onlyGivenNames z; first | (refine SameBut.cut (x := z) ?_ (fun _ => ?_) <;> [(unfold z; clear z); clear_value z]) | clear_value z)
    | with_reducible refine abortWhere_keeps _ _ _ _ _ (by decide) ?_
    | with_reducible refine abortWhere_keeps_eq _ _ _ _ _ _ _ ‹_› (by decide) ?_

theorem abortQueue_keeps_eq (w : List Part) (a : Core) (x0 : Core) (x1 : Nat)
    (y d) (e : abortQueue x0 x1 = (d, y)) (hw : [.io, .lanes] ⊆ w) (h : SameBut w a x0) :
    SameBut w a d := by
  have := abortQueue_keeps w a x0 x1 hw h
  rw [e] at this
  exact this

theorem tearQueue_keeps (w : List Part) (a : Core) (x0 : Core) (x1 : Nat)
    (hw : [.io, .rsCnts, .rsPages, .fe, .queues, .ctxs, .sqs, .isr, .de, .lanes, .st, .mf, .cru, .sched, .tu, .shr, .strm, .pp, .pmu, .trc, .free] ⊆ w) (h : SameBut w a x0) :
    SameBut w a (tearQueue x0 x1) := by
  refine SameBut.next ?_ hw h
  clear hw h
  unfold tearQueue
  repeat' first
    | with_reducible exact SameBut.refl _ _
    | with_reducible assumption
    | (extract_lets +onlyGivenNames z; first | (refine SameBut.cut (x := z) ?_ (fun _ => ?_) <;> [(unfold z; clear z); clear_value z]) | (refine SameBut.cut (x := z.2) ?_ (fun _ => ?_) <;> [(unfold z; clear z); clear_value z]) | (refine SameBut.cut (x := z.1) ?_ (fun _ => ?_) <;> [(unfold z; clear z); clear_value z]) | clear_value z)
    | with_reducible refine modCtx_keeps _ _ _ _ _ (by decide) ?_
    | with_reducible refine modQ_keeps _ _ _ _ _ (by decide) ?_
    | with_reducible refine abortQueue_keeps _ _ _ _ (by decide) ?_
    | with_reducible refine destroyQueue_keeps _ _ _ _ _ _ (by decide) ?_
    | with_reducible refine abortQueue_keeps_eq _ _ _ _ _ _ ‹_› (by decide) ?_
    | split

end Sys2Proof.Machine
end

