-- ==== Sys2Proof/Laws/Start.lean ====
section
/-! SUPPORT. What the operations of Start.lean leave as it was. -/

set_option linter.unusedTactic false
set_option linter.unreachableTactic false
set_option linter.tactic.unusedName false

namespace Sys2Proof.Machine

theorem startProgram_keeps (w : List Part) (a : Core) (x0 : Core) (x1 : Nat) (x2 : Nat) (x3 : Sub)
    (hw : [.io, .rsCnts, .rsPages, .fe, .queues, .sqs, .pmu, .trc, .dbg] ⊆ w) (h : SameBut w a x0) :
    SameBut w a (startProgram x0 x1 x2 x3) := by
  refine SameBut.next ?_ hw h
  clear hw h
  unfold startProgram
  repeat' first
    | with_reducible exact SameBut.refl _ _
    | with_reducible assumption
    | (extract_lets +onlyGivenNames z; first | (refine SameBut.cut (x := z) ?_ (fun _ => ?_) <;> [(unfold z; clear z); clear_value z]) | clear_value z)
    | with_reducible refine SameBut.ite _ _ _ _ _ (fun _ => ?_) (fun _ => ?_)
    | with_reducible refine progress_keeps _ _ _ _ (by decide) ?_
    | with_reducible refine pointTimer_keeps _ _ _ _ (by decide) ?_
    | with_reducible refine modQ_keeps _ _ _ _ _ (by decide) ?_
    | with_reducible refine cntAdd_keeps _ _ _ _ _ _ (by decide) ?_
    | with_reducible refine modSq_keeps _ _ _ _ _ (by decide) ?_
    | with_reducible refine trace_keeps _ _ _ _ _ _ _ _ _ _ (by decide) ?_
    | with_reducible refine bpCheck_keeps _ _ _ _ (by decide) ?_
    | with_reducible refine prefetch_keeps _ _ _ _ (by decide) ?_

theorem ringTailSet_keeps (w : List Part) (a : Core) (x0 : Core) (x1 : Reg)
    (hw : [.io, .rsRegs, .rsPages, .fe, .pmu] ⊆ w) (h : SameBut w a x0) :
    SameBut w a (ringTailSet x0 x1) := by
  refine SameBut.next ?_ hw h
  clear hw h
  unfold ringTailSet
  repeat' first
    | with_reducible exact SameBut.refl _ _
    | with_reducible assumption
    | with_reducible refine SameBut.ite _ _ _ _ _ (fun _ => ?_) (fun _ => ?_)
    | with_reducible refine pageErr_keeps _ _ _ _ _ _ _ (by decide) ?_
    | with_reducible refine feKick_keeps _ _ _ (by decide) ?_
    | with_reducible refine regSet_keeps _ _ _ _ _ _ (by decide) ?_

theorem feEnSet_keeps (w : List Part) (a : Core) (x0 : Core) (x1 : Bool)
    (hw : [.io, .rsRegs, .rsPages, .fe, .pmu] ⊆ w) (h : SameBut w a x0) :
    SameBut w a (feEnSet x0 x1) := by
  refine SameBut.next ?_ hw h
  clear hw h
  unfold feEnSet
  repeat' first
    | with_reducible exact SameBut.refl _ _
    | with_reducible assumption
    | with_reducible refine SameBut.ite _ _ _ _ _ (fun _ => ?_) (fun _ => ?_)
    | with_reducible refine pageErr_keeps _ _ _ _ _ _ _ (by decide) ?_
    | with_reducible refine feKick_keeps _ _ _ (by decide) ?_
    | with_reducible refine regSet_keeps _ _ _ _ _ _ (by decide) ?_
    | with_reducible refine SameBut.set_fe _ _ _ _ (by decide) ?_

theorem respHeadSet_keeps (w : List Part) (a : Core) (x0 : Core) (x1 : Reg)
    (hw : [.io, .rsRegs, .rsPages, .fe, .pmu] ⊆ w) (h : SameBut w a x0) :
    SameBut w a (respHeadSet x0 x1) := by
  refine SameBut.next ?_ hw h
  clear hw h
  unfold respHeadSet
  repeat' first
    | with_reducible exact SameBut.refl _ _
    | with_reducible assumption
    | (extract_lets +onlyGivenNames z; first | (refine SameBut.cut (x := z) ?_ (fun _ => ?_) <;> [(unfold z; clear z); clear_value z]) | clear_value z)
    | with_reducible refine respPump_keeps _ _ _ (by decide) ?_
    | with_reducible refine regSet_keeps _ _ _ _ _ _ (by decide) ?_
    | with_reducible refine SameBut.set_fe _ _ _ _ (by decide) ?_

end Sys2Proof.Machine
end

