-- ==== Sys2Proof/Laws/Ctx.lean ====
section
/-! SUPPORT. What the operations of Ctx.lean leave as it was. -/

set_option linter.unusedTactic false
set_option linter.unreachableTactic false
set_option linter.tactic.unusedName false

namespace Sys2Proof.Machine

theorem partEnSet_keeps (w : List Part) (a : Core) (x0 : Core) (x1 : Nat) (x2 : Reg)
    (hw : [.rsRegs, .rsPages] ⊆ w) (h : SameBut w a x0) :
    SameBut w a (partEnSet x0 x1 x2) := by
  refine SameBut.next ?_ hw h
  clear hw h
  unfold partEnSet
  repeat' first
    | with_reducible exact SameBut.refl _ _
    | with_reducible assumption
    | with_reducible refine SameBut.ite _ _ _ _ _ (fun _ => ?_) (fun _ => ?_)
    | with_reducible refine pageErr_keeps _ _ _ _ _ _ _ (by decide) ?_
    | with_reducible refine regSet_keeps _ _ _ _ _ _ (by decide) ?_
    | split

theorem freeSlots_keeps (w : List Part) (a : Core) (x0 : Core) (x1 : Nat)
    (hw : [.st, .mf] ⊆ w) (h : SameBut w a x0) :
    SameBut w a (freeSlots x0 x1).1 := by
  refine SameBut.next ?_ hw h
  clear hw h
  unfold freeSlots
  repeat' first
    | with_reducible exact SameBut.refl _ _
    | with_reducible assumption
    | (extract_lets +onlyGivenNames z; first | (refine SameBut.cut (x := z) ?_ (fun _ => ?_) <;> [(unfold z; clear z); clear_value z]) | (refine SameBut.cut (x := z.2) ?_ (fun _ => ?_) <;> [(unfold z; clear z); clear_value z]) | (refine SameBut.cut (x := z.1) ?_ (fun _ => ?_) <;> [(unfold z; clear z); clear_value z]) | clear_value z)
    | with_reducible refine SameBut.set_st _ _ _ _ (by decide) ?_
    | with_reducible refine SameBut.set_mf _ _ _ _ (by decide) ?_
    | ((with_reducible refine SameBut.upd _ _ _ _ _ _ _ _ _ _ _ _ _ _ _ _ _ _ _ _ _ _ _ _ _ _ _ _ _ _ _ _ _ _ _ _ _ _ ?_ ?_); rotate_left; exact (fun p => by cases p <;> first | exact Or.inr rfl | exact Or.inl (by decide) | exact Or.inr ⟨rfl, rfl⟩))

theorem freeSlots_keeps_eq (w : List Part) (a : Core) (x0 : Core) (x1 : Nat)
    (y d) (e : freeSlots x0 x1 = (d, y)) (hw : [.st, .mf] ⊆ w) (h : SameBut w a x0) :
    SameBut w a d := by
  have := freeSlots_keeps w a x0 x1 hw h
  rw [e] at this
  exact this

theorem freeCtx_keeps (w : List Part) (a : Core) (x0 : Core) (x1 : Nat)
    (hw : [.ctxs] ⊆ w) (h : SameBut w a x0) :
    SameBut w a (freeCtx x0 x1) := by
  refine SameBut.next ?_ hw h
  clear hw h
  unfold freeCtx
  repeat' first
    | with_reducible exact SameBut.refl _ _
    | with_reducible assumption
    | with_reducible refine modCtx_keeps _ _ _ _ _ (by decide) ?_

theorem partStep_keeps (p : Core × List (Hdr × List Nat × Nat × List Nat × Nat × Nat)) (e : Hdr × List Nat × Nat × List Nat × Nat × Nat) :
    SameBut [.io, .rsRegs, .rsCnts, .rsPages, .fe, .pmu] p.1 (partStep p e).1 := by
  unfold partStep
  repeat' first
    | exact SameBut.refl _ _
    | exact answer_keeps _ _ _ _ _ _ _ _ (by decide) (SameBut.refl _ _)
    | split
    | dsimp only

theorem partAnswers_keeps (w : List Part) (a : Core) (x0 : Core)
    (hw : [.io, .rsRegs, .rsCnts, .rsPages, .fe, .pmu] ⊆ w) (h : SameBut w a x0) :
    SameBut w a (partAnswers x0) := by
  refine SameBut.next ?_ hw h
  refine SameBut.set_fe _ _ _ _ (by decide) (SameBut.fold_fst _ _ _ _ _ (fun p b => ?_) (SameBut.refl _ _))
  exact partStep_keeps _ _

theorem partFreed_keeps (w : List Part) (a : Core) (x0 : Core) (x1 : Nat) (x2 : Nat) (x3 : Nat)
    (hw : [.io, .rsRegs, .rsCnts, .rsPages, .fe, .pmu] ⊆ w) (h : SameBut w a x0) :
    SameBut w a (partFreed x0 x1 x2 x3) := by
  exact partAnswers_keeps _ _ _ hw (SameBut.set_fe _ _ _ _ (hw (by decide)) h)

theorem abandonSlots_keeps (w : List Part) (a : Core) (x0 : Core) (x1 : Nat)
    (hw : [.io, .rsRegs, .rsCnts, .rsPages, .fe, .queues, .ctxs, .sqs, .isr, .de, .lanes, .st, .mf, .cru, .sched, .tu, .shr, .strm, .pp, .pmu, .trc, .free] ⊆ w) (h : SameBut w a x0) :
    SameBut w a (abandonSlots x0 x1) := by
  refine SameBut.next ?_ hw h
  clear hw h
  unfold abandonSlots
  repeat' first
    | with_reducible exact SameBut.refl _ _
    | with_reducible assumption
    | (extract_lets +onlyGivenNames z; first | (refine SameBut.cut (x := z) ?_ (fun _ => ?_) <;> [(unfold z; clear z); clear_value z]) | clear_value z)
    | with_reducible refine modObj_keeps _ _ _ _ _ (by decide) ?_
    | with_reducible refine modCtx_keeps _ _ _ _ _ (by decide) ?_
    | with_reducible refine modRxq_keeps _ _ _ _ _ (by decide) ?_
    | with_reducible refine selectGone_keeps _ _ _ _ _ (by decide) ?_
    | with_reducible refine faultAbandoned_keeps _ _ _ (by decide) ?_
    | with_reducible refine abandonWaits_keeps _ _ _ _ (by decide) ?_
    | with_reducible refine SameBut.fold _ _ _ _ _ (fun _ _ => ?_) ?_
    | with_reducible refine SameBut.set_st _ _ _ _ (by decide) ?_

theorem joinCalls_keeps (w : List Part) (a : Core) (x0 : Core) (x1 : Nat)
    (hw : [.ctxs, .ras] ⊆ w) (h : SameBut w a x0) :
    SameBut w a (joinCalls x0 x1) := by
  refine SameBut.next ?_ hw h
  clear hw h
  unfold joinCalls
  repeat' first
    | with_reducible exact SameBut.refl _ _
    | with_reducible assumption
    | (extract_lets +onlyGivenNames z; first | (refine SameBut.cut (x := z) ?_ (fun _ => ?_) <;> [(unfold z; clear z); clear_value z]) | clear_value z)
    | with_reducible refine modCtx_keeps _ _ _ _ _ (by decide) ?_
    | with_reducible refine SameBut.fold _ _ _ _ _ (fun _ _ => ?_) ?_
    | split
    | with_reducible refine SameBut.set_ras _ _ _ _ (by decide) ?_

theorem tearStep_keeps (w : List Part) (a : Core) (x0 : Core) (x1 : Contain)
    (hw : [.io, .rsRegs, .rsCnts, .rsPages, .fe, .queues, .ctxs, .sqs, .isr, .de, .lanes, .st, .mf, .cru, .sched, .tu, .shr, .strm, .pp, .ras, .pmu, .trc, .dbg, .free] ⊆ w) (h : SameBut w a x0) :
    SameBut w a (tearStep x0 x1) := by
  refine SameBut.next ?_ hw h
  clear hw h
  unfold tearStep
  repeat' first
    | with_reducible exact SameBut.refl _ _
    | with_reducible assumption
    | (extract_lets +onlyGivenNames z; first | (refine SameBut.cut (x := z) ?_ (fun _ => ?_) <;> [(unfold z; clear z); clear_value z]) | clear_value z)
    | with_reducible refine SameBut.ite _ _ _ _ _ (fun _ => ?_) (fun _ => ?_)
    | with_reducible refine pmuEv_keeps _ _ _ _ _ _ (by decide) ?_
    | with_reducible refine abandonSlots_keeps _ _ _ _ (by decide) ?_
    | with_reducible refine modCtx_keeps _ _ _ _ _ (by decide) ?_
    | with_reducible refine joinCalls_keeps _ _ _ _ (by decide) ?_
    | with_reducible refine cntAdd_keeps _ _ _ _ _ _ (by decide) ?_
    | with_reducible refine tearQueue_keeps _ _ _ _ (by decide) ?_
    | with_reducible refine stDrain_keeps _ _ _ (by decide) ?_
    | with_reducible refine feDone_keeps _ _ _ (by decide) ?_
    | with_reducible refine SameBut.fold _ _ _ _ _ (fun _ _ => ?_) ?_
    | with_reducible refine SameBut.set_st _ _ _ _ (by decide) ?_

theorem unloadOwned_keeps (w : List Part) (a : Core) (x0 : Core) (x1 : Nat)
    (hw : [.io, .rsRegs, .rsCnts, .rsPages, .fe, .ctxs, .gs, .pmu] ⊆ w) (h : SameBut w a x0) :
    SameBut w a (unloadOwned x0 x1) := by
  refine SameBut.next ?_ hw h
  clear hw h
  unfold unloadOwned
  repeat' first
    | with_reducible exact SameBut.refl _ _
    | with_reducible assumption
    | (extract_lets +onlyGivenNames z; first | (refine SameBut.cut (x := z) ?_ (fun _ => ?_) <;> [(unfold z; clear z); clear_value z]) | clear_value z)
    | with_reducible refine SameBut.ite _ _ _ _ _ (fun _ => ?_) (fun _ => ?_)
    | with_reducible refine sweepGraph_keeps _ _ _ _ (by decide) ?_
    | with_reducible refine modImg_keeps _ _ _ _ _ (by decide) ?_
    | with_reducible refine SameBut.fold _ _ _ _ _ (fun _ _ => ?_) ?_
    | with_reducible refine SameBut.set_gs _ _ _ _ (by decide) ?_

theorem clearObjs_keeps (w : List Part) (a : Core) (x0 : Core) (x1 : Nat)
    (hw : [.fe, .ctxs] ⊆ w) (h : SameBut w a x0) :
    SameBut w a (clearObjs x0 x1) := by
  refine SameBut.next ?_ hw h
  clear hw h
  unfold clearObjs
  repeat' first
    | with_reducible exact SameBut.refl _ _
    | with_reducible assumption
    | (extract_lets +onlyGivenNames z; first | (refine SameBut.cut (x := z) ?_ (fun _ => ?_) <;> [(unfold z; clear z); clear_value z]) | clear_value z)
    | with_reducible refine modCtx_keeps _ _ _ _ _ (by decide) ?_
    | with_reducible refine SameBut.set_fe _ _ _ _ (by decide) ?_

theorem tearEnd_keeps (w : List Part) (a : Core) (x0 : Core) (x1 : Nat)
    (hw : [.io, .rsRegs, .rsCnts, .rsPages, .fe, .ctxs, .gs, .st, .mf, .pmu] ⊆ w) (h : SameBut w a x0) :
    SameBut w a (tearEnd x0 x1) := by
  refine SameBut.next ?_ hw h
  clear hw h
  unfold tearEnd
  repeat' first
    | with_reducible exact SameBut.refl _ _
    | with_reducible assumption
    | (extract_lets +onlyGivenNames z; first | (refine SameBut.cut (x := z) ?_ (fun _ => ?_) <;> [(unfold z; clear z); clear_value z]) | clear_value z)
    | with_reducible refine SameBut.ite _ _ _ _ _ (fun _ => ?_) (fun _ => ?_)
    | with_reducible refine pushRec_keeps _ _ _ _ (by decide) ?_
    | with_reducible refine freeCtx_keeps _ _ _ _ (by decide) ?_
    | with_reducible refine answer_keeps _ _ _ _ _ _ _ _ (by decide) ?_
    | with_reducible refine modCtx_keeps _ _ _ _ _ (by decide) ?_
    | with_reducible refine unloadOwned_keeps _ _ _ _ (by decide) ?_
    | with_reducible refine regOr_keeps _ _ _ _ _ _ (by decide) ?_
    | with_reducible refine clearObjs_keeps _ _ _ _ (by decide) ?_
    | with_reducible refine irqSet_keeps _ _ _ _ _ (by decide) ?_
    | with_reducible refine partFreed_keeps _ _ _ _ _ _ (by decide) ?_
    | with_reducible refine freeSlots_keeps _ _ _ _ (by decide) ?_
    | with_reducible refine SameBut.fold _ _ _ _ _ (fun _ _ => ?_) ?_
    | with_reducible refine freeSlots_keeps_eq _ _ _ _ _ _ ‹_› (by decide) ?_
    | with_reducible refine SameBut.set_st _ _ _ _ (by decide) ?_

theorem freeDead_keeps (w : List Part) (a : Core) (x0 : Core) (x1 : Nat)
    (hw : [.ctxs, .st, .mf] ⊆ w) (h : SameBut w a x0) :
    SameBut w a (freeDead x0 x1).1 := by
  refine SameBut.next ?_ hw h
  clear hw h
  unfold freeDead
  repeat' first
    | with_reducible exact SameBut.refl _ _
    | with_reducible assumption
    | (extract_lets +onlyGivenNames z; first | (refine SameBut.cut (x := z) ?_ (fun _ => ?_) <;> [(unfold z; clear z); clear_value z]) | (refine SameBut.cut (x := z.2) ?_ (fun _ => ?_) <;> [(unfold z; clear z); clear_value z]) | (refine SameBut.cut (x := z.1) ?_ (fun _ => ?_) <;> [(unfold z; clear z); clear_value z]) | clear_value z)
    | with_reducible refine freeCtx_keeps _ _ _ _ (by decide) ?_
    | with_reducible refine freeSlots_keeps _ _ _ _ (by decide) ?_
    | with_reducible refine freeSlots_keeps_eq _ _ _ _ _ _ ‹_› (by decide) ?_

theorem freeDead_keeps_eq (w : List Part) (a : Core) (x0 : Core) (x1 : Nat)
    (y d) (e : freeDead x0 x1 = (d, y)) (hw : [.ctxs, .st, .mf] ⊆ w) (h : SameBut w a x0) :
    SameBut w a d := by
  have := freeDead_keeps w a x0 x1 hw h
  rw [e] at this
  exact this

theorem callTeardown_keeps (w : List Part) (a : Core) (x0 : Core) (x1 : Nat) (x2 : Nat) (x3 : Option Hdr)
    (hw : [.io, .rsRegs, .rsCnts, .rsPages, .fe, .ctxs, .ras, .pmu, .trc] ⊆ w) (h : SameBut w a x0) :
    SameBut w a (callTeardown x0 x1 x2 x3) := by
  refine SameBut.next ?_ hw h
  clear hw h
  unfold callTeardown
  repeat' first
    | with_reducible exact SameBut.refl _ _
    | with_reducible assumption
    | (extract_lets +onlyGivenNames z; first | (refine SameBut.cut (x := z) ?_ (fun _ => ?_) <;> [(unfold z; clear z); clear_value z]) | clear_value z)
    | with_reducible refine modCtx_keeps _ _ _ _ _ (by decide) ?_
    | with_reducible refine contain_keeps _ _ _ _ (by decide) ?_
    | with_reducible refine SameBut.set_fe _ _ _ _ (by decide) ?_

theorem partCall_keeps (w : List Part) (a : Core) (x0 : Core) (x1 : Nat)
    (hw : [.io, .rsRegs, .rsCnts, .rsPages, .fe, .ctxs, .st, .mf, .ras, .pmu, .trc] ⊆ w) (h : SameBut w a x0) :
    SameBut w a (partCall x0 x1) := by
  refine SameBut.next ?_ hw h
  clear hw h
  unfold partCall
  repeat' first
    | with_reducible exact SameBut.refl _ _
    | with_reducible assumption
    | with_reducible refine modCtx_keeps _ _ _ _ _ (by decide) ?_
    | with_reducible refine freeDead_keeps _ _ _ _ (by decide) ?_
    | with_reducible refine callTeardown_keeps _ _ _ _ _ _ (by decide) ?_
    | with_reducible refine freeDead_keeps_eq _ _ _ _ _ _ ‹_› (by decide) ?_
    | split

theorem freeObj_keeps (w : List Part) (a : Core) (x0 : Core) (x1 : Hdr) (x2 : Nat) (x3 : List Word)
    (hw : [.io, .rsRegs, .rsCnts, .rsPages, .fe, .ctxs, .pmu] ⊆ w) (h : SameBut w a x0) :
    SameBut w a (freeObj x0 x1 x2 x3) := by
  refine SameBut.next ?_ hw h
  clear hw h
  unfold freeObj
  repeat' first
    | with_reducible exact SameBut.refl _ _
    | with_reducible assumption
    | (extract_lets +onlyGivenNames z; first | (refine SameBut.cut (x := z) ?_ (fun _ => ?_) <;> [(unfold z; clear z); clear_value z]) | clear_value z)
    | with_reducible refine SameBut.ite _ _ _ _ _ (fun _ => ?_) (fun _ => ?_)
    | with_reducible refine answer_keeps _ _ _ _ _ _ _ _ (by decide) ?_
    | with_reducible refine otChange_keeps _ _ _ _ _ _ (by decide) ?_

end Sys2Proof.Machine
end

