-- ==== Sys2Proof/Laws/Graph.lean ====
section
/-! SUPPORT. What the operations of Graph.lean leave as it was. -/

set_option linter.unusedTactic false
set_option linter.unreachableTactic false
set_option linter.tactic.unusedName false

namespace Sys2Proof.Machine

theorem gsEnd_keeps (w : List Part) (a : Core) (x0 : Core) (x1 : GsOp) (x2 : Nat) (x3 : Nat) (x4 : Nat)
    (hw : [.io, .rsRegs, .rsCnts, .rsPages, .fe, .gs, .pmu] ⊆ w) (h : SameBut w a x0) :
    SameBut w a (gsEnd x0 x1 x2 x3 x4) := by
  refine SameBut.next ?_ hw h
  clear hw h
  unfold gsEnd
  repeat' first
    | with_reducible exact SameBut.refl _ _
    | with_reducible assumption
    | with_reducible refine gsAnswer_keeps _ _ _ _ _ _ _ (by decide) ?_
    | with_reducible refine SameBut.set_gs _ _ _ _ (by decide) ?_

theorem loadFail_keeps (w : List Part) (a : Core) (x0 : Core) (x1 : GsOp) (x2 : Nat) (x3 : Nat)
    (hw : [.io, .rsRegs, .rsCnts, .rsPages, .fe, .ctxs, .gs, .pmu] ⊆ w) (h : SameBut w a x0) :
    SameBut w a (loadFail x0 x1 x2 x3) := by
  refine SameBut.next ?_ hw h
  clear hw h
  unfold loadFail
  repeat' first
    | with_reducible exact SameBut.refl _ _
    | with_reducible assumption
    | (extract_lets +onlyGivenNames z; first | (refine SameBut.cut (x := z) ?_ (fun _ => ?_) <;> [(unfold z; clear z); clear_value z]) | clear_value z)
    | with_reducible refine gsEnd_keeps _ _ _ _ _ _ _ (by decide) ?_
    | with_reducible refine modImg_keeps _ _ _ _ _ (by decide) ?_
    | with_reducible refine otPump_keeps _ _ _ (by decide) ?_
    | with_reducible refine SameBut.set_fe _ _ _ _ (by decide) ?_

theorem gsKickN_keeps (w : List Part) (a : Core) (x0 : Nat) (x1 : Core)
    (hw : [.io, .rsRegs, .rsCnts, .rsPages, .fe, .ctxs, .gs, .pmu] ⊆ w) (h : SameBut w a x1) :
    SameBut w a (gsKickN x0 x1) := by
  refine SameBut.next ?_ hw h
  clear hw h
  fun_induction gsKickN x0 x1
  all_goals repeat' first
    | with_reducible exact SameBut.refl _ _
    | with_reducible assumption
    | (with_reducible refine SameBut.trans ?_ (by assumption))
    | with_reducible refine SameBut.ite _ _ _ _ _ (fun _ => ?_) (fun _ => ?_)
    | with_reducible refine gsEnd_keeps _ _ _ _ _ _ _ (by decide) ?_
    | with_reducible refine loadFail_keeps _ _ _ _ _ _ (by decide) ?_
    | with_reducible refine mpRead_keeps _ _ _ _ _ _ _ (by decide) ?_
    | split

theorem gsKick_keeps (w : List Part) (a : Core) (x0 : Core)
    (hw : [.io, .rsRegs, .rsCnts, .rsPages, .fe, .ctxs, .gs, .pmu] ⊆ w) (h : SameBut w a x0) :
    SameBut w a (gsKick x0) := by
  refine SameBut.next ?_ hw h
  clear hw h
  unfold gsKick
  repeat' first
    | with_reducible exact SameBut.refl _ _
    | with_reducible assumption
    | with_reducible refine gsKickN_keeps _ _ _ _ (by decide) ?_

theorem gsPush_keeps (w : List Part) (a : Core) (x0 : Core) (x1 : GsOp)
    (hw : [.io, .rsRegs, .rsCnts, .rsPages, .fe, .ctxs, .gs, .pmu] ⊆ w) (h : SameBut w a x0) :
    SameBut w a (gsPush x0 x1) := by
  refine SameBut.next ?_ hw h
  clear hw h
  unfold gsPush
  repeat' first
    | with_reducible exact SameBut.refl _ _
    | with_reducible assumption
    | with_reducible refine gsKick_keeps _ _ _ (by decide) ?_
    | with_reducible refine SameBut.set_gs _ _ _ _ (by decide) ?_

theorem takeBlocks_keeps (w : List Part) (a : Core) (x0 : Nat) (x1 : List Nat) (x2 : Core)
    (hw : [.free] ⊆ w) (h : SameBut w a x2) :
    SameBut w a (takeBlocks x0 x1 x2).2 := by
  refine SameBut.next ?_ hw h
  clear hw h
  fun_induction takeBlocks x0 x1 x2
  all_goals repeat' first
    | with_reducible exact SameBut.refl _ _
    | with_reducible assumption
    | (with_reducible refine SameBut.trans ?_ (by assumption))
    | (extract_lets +onlyGivenNames z; first | (refine SameBut.cut (x := z) ?_ (fun _ => ?_) <;> [(unfold z; clear z); clear_value z]) | clear_value z)
    | with_reducible refine freeNat_keeps _ _ _ (by decide) ?_
    | with_reducible refine freeNat_keeps_eq _ _ _ _ _ ‹_› (by decide) ?_
    | split

theorem takeBlocks_keeps_eq (w : List Part) (a : Core) (x0 : Nat) (x1 : List Nat) (x2 : Core)
    (y d) (e : takeBlocks x0 x1 x2 = (y, d)) (hw : [.free] ⊆ w) (h : SameBut w a x2) :
    SameBut w a d := by
  have := takeBlocks_keeps w a x0 x1 x2 hw h
  rw [e] at this
  exact this

theorem setChunk_keeps (w : List Part) (a : Core) (x0 : Core) (x1 : Nat) (x2 : Bool)
    (hw : [.marv] ⊆ w) (h : SameBut w a x0) :
    SameBut w a (setChunk x0 x1 x2) := by
  refine SameBut.next ?_ hw h
  clear hw h
  unfold setChunk
  repeat' first
    | with_reducible exact SameBut.refl _ _
    | with_reducible assumption
    | with_reducible refine SameBut.set_marv _ _ _ _ (by decide) ?_

theorem takeRoom_keeps (w : List Part) (a : Core) (c : Core) (n m : Nat) (l k d) (e : takeRoom c n m = some (l, k, d))
    (hw : [.free] ⊆ w) (h : SameBut w a c) : SameBut w a d := by
  refine SameBut.next ?_ hw h
  unfold takeRoom at e
  extract_lets l1 s1 p r at e
  split at e
  · cases e
  · cases e
    exact freeNat_keeps _ _ _ (by decide) (takeBlocks_keeps _ _ _ _ _ (by decide) (SameBut.refl _ _))

theorem loadImage_keeps (w : List Part) (a : Core) (x0 : Core) (x1 : GsOp) (x2 : List Word) (x3 : List Word) (x4 : List Nat) (x5 : Nat)
    (hw : [.io, .rsRegs, .rsCnts, .rsPages, .fe, .ctxs, .gs, .marv, .pmu] ⊆ w) (h : SameBut w a x0) :
    SameBut w a (loadImage x0 x1 x2 x3 x4 x5) := by
  refine SameBut.next ?_ hw h
  clear hw h
  unfold loadImage
  repeat' first
    | with_reducible exact SameBut.refl _ _
    | with_reducible assumption
    | (extract_lets +onlyGivenNames z; first | (refine SameBut.cut (x := z) ?_ (fun _ => ?_) <;> [(unfold z; clear z); clear_value z]) | clear_value z)
    | with_reducible refine SameBut.ite _ _ _ _ _ (fun _ => ?_) (fun _ => ?_)
    | with_reducible refine pageErr_keeps _ _ _ _ _ _ _ (by decide) ?_
    | with_reducible refine gsEnd_keeps _ _ _ _ _ _ _ (by decide) ?_
    | with_reducible refine sweepGraph_keeps _ _ _ _ (by decide) ?_
    | with_reducible refine setChunk_keeps _ _ _ _ _ (by decide) ?_
    | with_reducible refine cntAdd_keeps _ _ _ _ _ _ (by decide) ?_
    | with_reducible refine modImg_keeps _ _ _ _ _ (by decide) ?_
    | with_reducible refine setKind_keeps _ _ _ _ _ (by decide) ?_
    | with_reducible refine modBlock_keeps _ _ _ _ _ (by decide) ?_
    | with_reducible refine SameBut.fold _ _ _ _ _ (fun _ _ => ?_) ?_
    | with_reducible refine SameBut.set_gs _ _ _ _ (by decide) ?_

theorem loadTables_keeps (w : List Part) (a : Core) (x0 : Core) (x1 : GsOp) (x2 : List Word)
    (hw : [.io, .rsRegs, .rsCnts, .rsPages, .fe, .ctxs, .gs, .marv, .pmu, .free] ⊆ w) (h : SameBut w a x0) :
    SameBut w a (loadTables x0 x1 x2) := by
  refine SameBut.next ?_ hw h
  clear hw h
  unfold loadTables
  extract_lets hd
  split
  · exact loadFail_keeps _ _ _ _ _ _ (by decide) (SameBut.refl _ _)
  split
  · exact loadFail_keeps _ _ _ _ _ _ (by decide) (SameBut.refl _ _)
  · exact loadImage_keeps _ _ _ _ _ _ _ _ (by decide) (takeRoom_keeps _ _ _ _ _ _ _ _ ‹_› (by decide) (SameBut.refl _ _))

theorem keepHead_keeps (w : List Part) (a : Core) (x0 : Core) (x1 : List Word)
    (hw : [.gs] ⊆ w) (h : SameBut w a x0) :
    SameBut w a (keepHead x0 x1) := by
  refine SameBut.next ?_ hw h
  clear hw h
  unfold keepHead
  repeat' first
    | with_reducible exact SameBut.refl _ _
    | with_reducible assumption
    | split
    | with_reducible refine SameBut.set_gs _ _ _ _ (by decide) ?_

theorem loadMore_keeps (w : List Part) (a : Core) (x0 : Core) (x1 : GsOp) (x2 : List Word)
    (hw : [.io, .rsRegs, .rsCnts, .rsPages, .fe, .ctxs, .gs, .marv, .pmu, .free] ⊆ w) (h : SameBut w a x0) :
    SameBut w a (loadMore x0 x1 x2) := by
  refine SameBut.next ?_ hw h
  clear hw h
  unfold loadMore
  repeat' first
    | with_reducible exact SameBut.refl _ _
    | with_reducible assumption
    | with_reducible refine keepHead_keeps _ _ _ _ (by decide) ?_
    | with_reducible refine loadTables_keeps _ _ _ _ _ (by decide) ?_
    | with_reducible refine mpRead_keeps _ _ _ _ _ _ _ (by decide) ?_
    | split

theorem loadHeader_keeps (w : List Part) (a : Core) (x0 : Core) (x1 : GsOp) (x2 : List Word)
    (hw : [.io, .rsRegs, .rsCnts, .rsPages, .fe, .ctxs, .gs, .marv, .pmu, .free] ⊆ w) (h : SameBut w a x0) :
    SameBut w a (loadHeader x0 x1 x2) := by
  refine SameBut.next ?_ hw h
  clear hw h
  unfold loadHeader
  repeat' first
    | with_reducible exact SameBut.refl _ _
    | with_reducible assumption
    | (extract_lets +onlyGivenNames z; first | (refine SameBut.cut (x := z) ?_ (fun _ => ?_) <;> [(unfold z; clear z); clear_value z]) | clear_value z)
    | with_reducible refine loadFail_keeps _ _ _ _ _ _ (by decide) ?_
    | with_reducible refine loadMore_keeps _ _ _ _ _ (by decide) ?_
    | split

theorem loadTable_keeps (w : List Part) (a : Core) (x0 : Core) (x1 : GsOp) (x2 : List Word)
    (hw : [.io, .rsRegs, .rsCnts, .rsPages, .fe, .ctxs, .gs, .marv, .pmu, .free] ⊆ w) (h : SameBut w a x0) :
    SameBut w a (loadTable x0 x1 x2) := by
  refine SameBut.next ?_ hw h
  clear hw h
  unfold loadTable
  repeat' first
    | with_reducible exact SameBut.refl _ _
    | with_reducible assumption
    | with_reducible refine loadMore_keeps _ _ _ _ _ (by decide) ?_
    | split

theorem copyBlock_keeps (w : List Part) (a : Core) (x0 : Core) (x1 : Nat) (x2 : Nat)
    (hw : [.gs, .marv] ⊆ w) (h : SameBut w a x0) :
    SameBut w a (copyBlock x0 x1 x2) := by
  refine SameBut.next ?_ hw h
  clear hw h
  unfold copyBlock
  repeat' first
    | with_reducible exact SameBut.refl _ _
    | with_reducible assumption
    | (extract_lets +onlyGivenNames z; first | (refine SameBut.cut (x := z) ?_ (fun _ => ?_) <;> [(unfold z; clear z); clear_value z]) | clear_value z)
    | with_reducible refine setChunk_keeps _ _ _ _ _ (by decide) ?_
    | with_reducible refine setKind_keeps _ _ _ _ _ (by decide) ?_
    | with_reducible refine modBlock_keeps _ _ _ _ _ (by decide) ?_
    | with_reducible refine SameBut.fold _ _ _ _ _ (fun _ _ => ?_) ?_

theorem writeRec_keeps (w : List Part) (a : Core) (x0 : Core) (x1 : Version) (x2 : Nat) (x3 : Nat) (x4 : List Word) (x5 : Bool)
    (hw : [.gs, .marv] ⊆ w) (h : SameBut w a x0) :
    SameBut w a (writeRec x0 x1 x2 x3 x4 x5) := by
  refine SameBut.next ?_ hw h
  clear hw h
  unfold writeRec
  repeat' first
    | with_reducible exact SameBut.refl _ _
    | with_reducible assumption
    | (extract_lets +onlyGivenNames z; first | (refine SameBut.cut (x := z) ?_ (fun _ => ?_) <;> [(unfold z; clear z); clear_value z]) | clear_value z)
    | with_reducible refine setChunk_keeps _ _ _ _ _ (by decide) ?_
    | with_reducible refine modBlock_keeps _ _ _ _ _ (by decide) ?_

theorem commitPatch_keeps (w : List Part) (a : Core) (x0 : Core) (x1 : GsOp) (x2 : List Word)
    (hw : [.io, .rsRegs, .rsCnts, .rsPages, .fe, .ctxs, .gs, .marv, .pmu, .free] ⊆ w) (h : SameBut w a x0) :
    SameBut w a (commitPatch x0 x1 x2) := by
  refine SameBut.next ?_ hw h
  clear hw h
  unfold commitPatch
  repeat' first
    | with_reducible exact SameBut.refl _ _
    | with_reducible assumption
    | (extract_lets +onlyGivenNames z; first | (refine SameBut.cut (x := z) ?_ (fun _ => ?_) <;> [(unfold z; clear z); clear_value z]) | clear_value z)
    | with_reducible refine SameBut.ite _ _ _ _ _ (fun _ => ?_) (fun _ => ?_)
    | with_reducible refine pageErr_keeps _ _ _ _ _ _ _ (by decide) ?_
    | with_reducible refine gsEnd_keeps _ _ _ _ _ _ _ (by decide) ?_
    | with_reducible refine sweepGraph_keeps _ _ _ _ (by decide) ?_
    | with_reducible refine cntAdd_keeps _ _ _ _ _ _ (by decide) ?_
    | with_reducible refine modImg_keeps _ _ _ _ _ (by decide) ?_
    | with_reducible refine setKind_keeps _ _ _ _ _ (by decide) ?_
    | with_reducible refine modBlock_keeps _ _ _ _ _ (by decide) ?_
    | with_reducible refine writeRec_keeps _ _ _ _ _ _ _ _ (by decide) ?_
    | with_reducible refine copyBlock_keeps _ _ _ _ _ (by decide) ?_
    | with_reducible refine SameBut.fold _ _ _ _ _ (fun _ _ => ?_) ?_
    | with_reducible refine takeRoom_keeps _ _ _ _ _ _ _ _ ‹_› (by decide) ?_
    | split

theorem patchList_keeps (w : List Part) (a : Core) (x0 : Core) (x1 : GsOp) (x2 : List Word)
    (hw : [.io, .rsRegs, .rsCnts, .rsPages, .fe, .gs, .pmu] ⊆ w) (h : SameBut w a x0) :
    SameBut w a (patchList x0 x1 x2) := by
  refine SameBut.next ?_ hw h
  clear hw h
  unfold patchList
  repeat' first
    | with_reducible exact SameBut.refl _ _
    | with_reducible assumption
    | (extract_lets +onlyGivenNames z; first | (refine SameBut.cut (x := z) ?_ (fun _ => ?_) <;> [(unfold z; clear z); clear_value z]) | clear_value z)
    | with_reducible refine SameBut.ite _ _ _ _ _ (fun _ => ?_) (fun _ => ?_)
    | with_reducible refine gsEnd_keeps _ _ _ _ _ _ _ (by decide) ?_
    | with_reducible refine keepHead_keeps _ _ _ _ (by decide) ?_
    | with_reducible refine mpRead_keeps _ _ _ _ _ _ _ (by decide) ?_

end Sys2Proof.Machine
end

