-- ==== Sys2Proof/Laws/Lehr.lean ====
section
/-! SUPPORT. What the operations of Lehr.lean leave as it was. -/

set_option linter.unusedTactic false
set_option linter.unreachableTactic false
set_option linter.tactic.unusedName false

namespace Sys2Proof.Machine

theorem lehrWatch_keeps (w : List Part) (a : Core) (x0 : Core)
    (hw : [.lehr] ⊆ w) (h : SameBut w a x0) :
    SameBut w a (lehrWatch x0) := by
  refine SameBut.next ?_ hw h
  clear hw h
  unfold lehrWatch
  repeat' first
    | with_reducible exact SameBut.refl _ _
    | with_reducible assumption
    | (extract_lets +onlyGivenNames z; first | (refine SameBut.cut (x := z) ?_ (fun _ => ?_) <;> [(unfold z; clear z); clear_value z]) | clear_value z)
    | with_reducible refine SameBut.fold _ _ _ _ _ (fun _ _ => ?_) ?_
    | with_reducible refine SameBut.set_lehr _ _ _ _ (by decide) ?_

theorem dumpWrites_keeps (w : List Part) (a : Core) (x0 : Nat) (x1 : Nat) (x2 : List Word) (x3 : Core)
    (hw : [.io, .pmu] ⊆ w) (h : SameBut w a x3) :
    SameBut w a (dumpWrites x0 x1 x2 x3) := by
  refine SameBut.next ?_ hw h
  clear hw h
  fun_induction dumpWrites x0 x1 x2 x3
  all_goals repeat' first
    | with_reducible exact SameBut.refl _ _
    | with_reducible assumption
    | (with_reducible refine SameBut.trans ?_ (by assumption))
    | with_reducible refine mpWrite_keeps _ _ _ _ _ _ _ (by decide) ?_
    | split

theorem dumpHeader_keeps (w : List Part) (a : Core) (x0 : Core) (x1 : Dump)
    (hw : [.io, .lehr, .pmu] ⊆ w) (h : SameBut w a x0) :
    SameBut w a (dumpHeader x0 x1) := by
  refine SameBut.next ?_ hw h
  clear hw h
  unfold dumpHeader
  repeat' first
    | with_reducible exact SameBut.refl _ _
    | with_reducible assumption
    | with_reducible refine mpWrite_keeps _ _ _ _ _ _ _ (by decide) ?_
    | with_reducible refine SameBut.set_lehr _ _ _ _ (by decide) ?_

theorem startDump_keeps (w : List Part) (a : Core) (x0 : Core) (x1 : Nat) (x2 : Nat) (x3 : Nat) (x4 : List Nat)
    (hw : [.io, .rsCnts, .lehr, .pmu] ⊆ w) (h : SameBut w a x0) :
    SameBut w a (startDump x0 x1 x2 x3 x4) := by
  refine SameBut.next ?_ hw h
  clear hw h
  unfold startDump
  repeat' first
    | with_reducible exact SameBut.refl _ _
    | with_reducible assumption
    | (extract_lets +onlyGivenNames z; first | (refine SameBut.cut (x := z) ?_ (fun _ => ?_) <;> [(unfold z; clear z); clear_value z]) | clear_value z)
    | with_reducible refine SameBut.ite _ _ _ _ _ (fun _ => ?_) (fun _ => ?_)
    | with_reducible refine dumpWrites_keeps _ _ _ _ _ _ (by decide) ?_
    | with_reducible refine cntAdd_keeps _ _ _ _ _ _ (by decide) ?_
    | with_reducible refine dumpHeader_keeps _ _ _ _ (by decide) ?_
    | with_reducible refine SameBut.set_lehr _ _ _ _ (by decide) ?_

theorem lehrReport_keeps (w : List Part) (a : Core) (x0 : Core) (x1 : Nat) (x2 : Nat) (x3 : Nat) (x4 : List Nat)
    (hw : [.io, .rsCnts, .rsPages, .lehr, .pmu] ⊆ w) (h : SameBut w a x0) :
    SameBut w a (lehrReport x0 x1 x2 x3 x4) := by
  refine SameBut.next ?_ hw h
  clear hw h
  unfold lehrReport
  repeat' first
    | with_reducible exact SameBut.refl _ _
    | with_reducible assumption
    | (extract_lets +onlyGivenNames z; first | (refine SameBut.cut (x := z) ?_ (fun _ => ?_) <;> [(unfold z; clear z); clear_value z]) | clear_value z)
    | with_reducible refine cntAdd_keeps _ _ _ _ _ _ (by decide) ?_
    | with_reducible refine startDump_keeps _ _ _ _ _ _ _ (by decide) ?_
    | with_reducible refine irqSet_keeps _ _ _ _ _ (by decide) ?_
    | with_reducible refine SameBut.set_lehr _ _ _ _ (by decide) ?_

theorem lehrForget_keeps (w : List Part) (a : Core) (x0 : Core)
    (hw : [.lehr] ⊆ w) (h : SameBut w a x0) :
    SameBut w a (lehrForget x0) := by
  refine SameBut.next ?_ hw h
  clear hw h
  unfold lehrForget
  repeat' first
    | with_reducible exact SameBut.refl _ _
    | with_reducible assumption
    | split
    | with_reducible refine SameBut.set_lehr _ _ _ _ (by decide) ?_

theorem reportsCleared_keeps (w : List Part) (a : Core) (x0 : Core)
    (hw : [.lehr] ⊆ w) (h : SameBut w a x0) :
    SameBut w a (reportsCleared x0) := by
  refine SameBut.next ?_ hw h
  clear hw h
  unfold reportsCleared
  repeat' first
    | with_reducible exact SameBut.refl _ _
    | with_reducible assumption
    | with_reducible refine SameBut.set_lehr _ _ _ _ (by decide) ?_

end Sys2Proof.Machine
end

