-- ==== Sys2Proof/Laws/Tally.lean ====
section
/-! SUPPORT. What the operations of Tally.lean leave as it was. -/

set_option linter.unusedTactic false
set_option linter.unreachableTactic false
set_option linter.tactic.unusedName false

namespace Sys2Proof.Machine

theorem pmuLevel_keeps (w : List Part) (a : Core) (x0 : Core) (x1 : Nat) (x2 : (Owner → Bool) → Nat)
    (hw : [.pmu] ⊆ w) (h : SameBut w a x0) :
    SameBut w a (pmuLevel x0 x1 x2) := by
  refine SameBut.next ?_ hw h
  clear hw h
  unfold pmuLevel
  repeat' first
    | with_reducible exact SameBut.refl _ _
    | with_reducible assumption
    | with_reducible refine SameBut.ite _ _ _ _ _ (fun _ => ?_) (fun _ => ?_)
    | with_reducible refine SameBut.fold _ _ _ _ _ (fun _ _ => ?_) ?_
    | with_reducible refine SameBut.set_pmu _ _ _ _ (by decide) ?_

theorem pmuLevels_keeps (w : List Part) (a : Core) (x0 : Core) (x1 : List (Nat × Owner))
    (hw : [.pmu] ⊆ w) (h : SameBut w a x0) :
    SameBut w a (pmuLevels x0 x1) := by
  refine SameBut.next ?_ hw h
  clear hw h
  unfold pmuLevels
  repeat' first
    | with_reducible exact SameBut.refl _ _
    | with_reducible assumption
    | (extract_lets +onlyGivenNames z; first | (refine SameBut.cut (x := z) ?_ (fun _ => ?_) <;> [(unfold z; clear z); clear_value z]) | clear_value z)
    | with_reducible refine pmuEv_keeps _ _ _ _ _ _ (by decide) ?_
    | with_reducible refine pmuLevel_keeps _ _ _ _ _ (by decide) ?_

theorem engTimes_keeps (w : List Part) (a : Core) (x0 : Core) (x1 : List (Nat × Owner))
    (hw : [.ctxs] ⊆ w) (h : SameBut w a x0) :
    SameBut w a (engTimes x0 x1) := by
  refine SameBut.next ?_ hw h
  clear hw h
  unfold engTimes
  repeat' first
    | with_reducible exact SameBut.refl _ _
    | with_reducible assumption
    | with_reducible refine modCtx_keeps _ _ _ _ _ (by decide) ?_
    | with_reducible refine SameBut.fold _ _ _ _ _ (fun _ _ => ?_) ?_

theorem stallTclk_keeps (w : List Part) (a : Core) (x0 : Core)
    (hw : [.rsCnts] ⊆ w) (h : SameBut w a x0) :
    SameBut w a (stallTclk x0) := by
  refine SameBut.next ?_ hw h
  clear hw h
  unfold stallTclk
  repeat' first
    | with_reducible exact SameBut.refl _ _
    | with_reducible assumption
    | with_reducible refine cntAdd_keeps _ _ _ _ _ _ (by decide) ?_
    | with_reducible refine SameBut.fold _ _ _ _ _ (fun _ _ => ?_) ?_

theorem lehrTick_keeps (w : List Part) (a : Core) (x0 : Core)
    (hw : [.lehr] ⊆ w) (h : SameBut w a x0) :
    SameBut w a (lehrTick x0) := by
  refine SameBut.next ?_ hw h
  clear hw h
  unfold lehrTick
  repeat' first
    | with_reducible exact SameBut.refl _ _
    | with_reducible assumption
    | with_reducible refine SameBut.ite _ _ _ _ _ (fun _ => ?_) (fun _ => ?_)
    | with_reducible refine lehrWatch_keeps _ _ _ (by decide) ?_
    | with_reducible refine SameBut.set_lehr _ _ _ _ (by decide) ?_

theorem tclkCounts_keeps (w : List Part) (a : Core) (x0 : Core)
    (hw : [.rsCnts, .ctxs, .lehr, .sched, .marv, .pmu, .tclk] ⊆ w) (h : SameBut w a x0) :
    SameBut w a (tclkCounts x0) := by
  refine SameBut.next ?_ hw h
  clear hw h
  unfold tclkCounts
  repeat' first
    | with_reducible exact SameBut.refl _ _
    | with_reducible assumption
    | (extract_lets +onlyGivenNames z; first | (refine SameBut.cut (x := z) ?_ (fun _ => ?_) <;> [(unfold z; clear z); clear_value z]) | clear_value z)
    | with_reducible refine stallTclk_keeps _ _ _ (by decide) ?_
    | with_reducible refine markActive_keeps _ _ _ (by decide) ?_
    | with_reducible refine lehrTick_keeps _ _ _ (by decide) ?_
    | with_reducible refine pmuLevels_keeps _ _ _ _ (by decide) ?_
    | with_reducible refine engTimes_keeps _ _ _ _ (by decide) ?_
    | with_reducible refine SameBut.set_marv _ _ _ _ (by decide) ?_
    | with_reducible refine SameBut.set_tclk _ _ _ _ (by decide) ?_

theorem lateSaves_keeps (w : List Part) (a : Core) (x0 : Core)
    (hw : [.io, .rsCnts, .rsPages, .queues, .sqs, .isr, .lanes, .st, .mf, .sched, .tu, .pp, .pmu, .trc] ⊆ w) (h : SameBut w a x0) :
    SameBut w a (lateSaves x0) := by
  refine SameBut.next ?_ hw h
  clear hw h
  unfold lateSaves
  repeat' first
    | with_reducible exact SameBut.refl _ _
    | with_reducible assumption
    | with_reducible refine lateSave_keeps _ _ _ _ (by decide) ?_
    | with_reducible refine SameBut.fold _ _ _ _ _ (fun _ _ => ?_) ?_

theorem backStep_keeps (w : List Part) (a : Core) (x0 : Core) (x1 : Word)
    (hw : [.rsCnts, .rsPages, .tu] ⊆ w) (h : SameBut w a x0) :
    SameBut w a (backStep x0 x1) := by
  refine SameBut.next ?_ hw h
  clear hw h
  unfold backStep
  repeat' first
    | with_reducible exact SameBut.refl _ _
    | with_reducible assumption
    | with_reducible refine SameBut.ite _ _ _ _ _ (fun _ => ?_) (fun _ => ?_)
    | with_reducible refine cntAdd_keeps _ _ _ _ _ _ (by decide) ?_
    | with_reducible refine irqSet_keeps _ _ _ _ _ (by decide) ?_
    | with_reducible refine SameBut.set_tu _ _ _ _ (by decide) ?_

theorem setTally_keeps (w : List Part) (a : Core) (x0 : Core) (x1 : Word)
    (hw : [.rsCnts, .rsPages, .tu] ⊆ w) (h : SameBut w a x0) :
    SameBut w a (setTally x0 x1) := by
  refine SameBut.next ?_ hw h
  clear hw h
  unfold setTally
  repeat' first
    | with_reducible exact SameBut.refl _ _
    | with_reducible assumption
    | with_reducible refine backStep_keeps _ _ _ _ (by decide) ?_
    | with_reducible refine alarmsPass_keeps _ _ _ (by decide) ?_
    | with_reducible refine SameBut.set_tu _ _ _ _ (by decide) ?_

theorem tick_keeps (w : List Part) (a : Core) (x0 : Core) (x1 : Word) (x2 : Bool)
    (hw : [.io, .rsCnts, .rsPages, .queues, .ctxs, .sqs, .isr, .lanes, .st, .lehr, .mf, .sched, .marv, .tu, .pp, .pmu, .trc, .tclk] ⊆ w) (h : SameBut w a x0) :
    SameBut w a (tick x0 x1 x2) := by
  refine SameBut.next ?_ hw h
  clear hw h
  unfold tick
  repeat' first
    | with_reducible exact SameBut.refl _ _
    | with_reducible assumption
    | (extract_lets +onlyGivenNames z; first | (refine SameBut.cut (x := z) ?_ (fun _ => ?_) <;> [(unfold z; clear z); clear_value z]) | clear_value z)
    | with_reducible refine tclkCounts_keeps _ _ _ (by decide) ?_
    | with_reducible refine lateSaves_keeps _ _ _ (by decide) ?_
    | with_reducible refine setTally_keeps _ _ _ _ (by decide) ?_
    | with_reducible refine SameBut.set_tu _ _ _ _ (by decide) ?_

end Sys2Proof.Machine
end

