-- ==== Sys2Proof/Laws/Tables.lean ====
section
/-! SUPPORT. What the operations of Tables.lean leave as it was. -/

set_option linter.unusedTactic false
set_option linter.unreachableTactic false
set_option linter.tactic.unusedName false

namespace Sys2Proof.Machine

theorem driftFix_keeps (w : List Part) (a : Core) (x0 : Core) (x1 : Nat)
    (hw : [.rsCnts, .rsPages, .st, .strm] ⊆ w) (h : SameBut w a x0) :
    SameBut w a (driftFix x0 x1) := by
  refine SameBut.next ?_ hw h
  clear hw h
  unfold driftFix
  repeat' first
    | with_reducible exact SameBut.refl _ _
    | with_reducible assumption
    | (extract_lets +onlyGivenNames z; first | (refine SameBut.cut (x := z) ?_ (fun _ => ?_) <;> [(unfold z; clear z); clear_value z]) | clear_value z)
    | with_reducible refine SameBut.ite _ _ _ _ _ (fun _ => ?_) (fun _ => ?_)
    | with_reducible refine cntAdd_keeps _ _ _ _ _ _ (by decide) ?_
    | with_reducible refine irqSet_keeps _ _ _ _ _ (by decide) ?_
    | with_reducible refine modStream_keeps _ _ _ _ _ (by decide) ?_
    | with_reducible refine SameBut.set_st _ _ _ _ (by decide) ?_

theorem driftPass_keeps (w : List Part) (a : Core) (x0 : Core)
    (hw : [.rsCnts, .rsPages, .st, .strm] ⊆ w) (h : SameBut w a x0) :
    SameBut w a (driftPass x0) := by
  refine SameBut.next ?_ hw h
  clear hw h
  unfold driftPass
  repeat' first
    | with_reducible exact SameBut.refl _ _
    | with_reducible assumption
    | with_reducible refine driftFix_keeps _ _ _ _ (by decide) ?_
    | with_reducible refine SameBut.fold _ _ _ _ _ (fun _ _ => ?_) ?_

theorem wakePass_keeps (w : List Part) (a : Core) (x0 : Core)
    (hw : [.io, .rsCnts, .rsPages, .queues, .isr, .st, .sched, .pp, .pmu, .trc] ⊆ w) (h : SameBut w a x0) :
    SameBut w a (wakePass x0) := by
  refine SameBut.next ?_ hw h
  clear hw h
  unfold wakePass
  repeat' first
    | with_reducible exact SameBut.refl _ _
    | with_reducible assumption
    | (extract_lets +onlyGivenNames z; first | (refine SameBut.cut (x := z) ?_ (fun _ => ?_) <;> [(unfold z; clear z); clear_value z]) | clear_value z)
    | with_reducible refine SameBut.ite _ _ _ _ _ (fun _ => ?_) (fun _ => ?_)
    | with_reducible refine cntAdd_keeps _ _ _ _ _ _ (by decide) ?_
    | with_reducible refine irqSet_keeps _ _ _ _ _ (by decide) ?_
    | with_reducible refine serveObj_keeps _ _ _ _ (by decide) ?_
    | with_reducible refine SameBut.fold _ _ _ _ _ (fun _ _ => ?_) ?_

theorem realignSkipped_keeps (w : List Part) (a : Core) (x0 : Core)
    (hw : [.rsCnts, .tu, .trc] ⊆ w) (h : SameBut w a x0) :
    SameBut w a (realignSkipped x0) := by
  refine SameBut.next ?_ hw h
  clear hw h
  unfold realignSkipped
  repeat' first
    | with_reducible exact SameBut.refl _ _
    | with_reducible assumption
    | (extract_lets +onlyGivenNames z; first | (refine SameBut.cut (x := z) ?_ (fun _ => ?_) <;> [(unfold z; clear z); clear_value z]) | clear_value z)
    | with_reducible refine SameBut.ite _ _ _ _ _ (fun _ => ?_) (fun _ => ?_)
    | with_reducible refine armPeriod_keeps _ _ _ _ _ _ (by decide) ?_
    | with_reducible refine cntAdd_keeps _ _ _ _ _ _ (by decide) ?_
    | with_reducible refine trace_keeps _ _ _ _ _ _ _ _ _ _ (by decide) ?_
    | split
    | with_reducible refine SameBut.set_tu _ _ _ _ (by decide) ?_

theorem tblState_keeps (w : List Part) (a : Core) (x0 : Core)
    (hw : [.rsPages] ⊆ w) (h : SameBut w a x0) :
    SameBut w a (tblState x0) := by
  refine SameBut.next ?_ hw h
  clear hw h
  unfold tblState
  repeat' first
    | with_reducible exact SameBut.refl _ _
    | with_reducible assumption
    | with_reducible refine pageErr_keeps _ _ _ _ _ _ _ (by decide) ?_

theorem tblSeal_keeps (w : List Part) (a : Core) (x0 : Core)
    (hw : [.rsPages, .tbl] ⊆ w) (h : SameBut w a x0) :
    SameBut w a (tblSeal x0) := by
  refine SameBut.next ?_ hw h
  clear hw h
  unfold tblSeal
  repeat' first
    | with_reducible exact SameBut.refl _ _
    | with_reducible assumption
    | with_reducible refine SameBut.ite _ _ _ _ _ (fun _ => ?_) (fun _ => ?_)
    | with_reducible refine tblState_keeps _ _ _ (by decide) ?_
    | with_reducible refine sealCheck_keeps _ _ _ (by decide) ?_
    | with_reducible refine SameBut.set_tbl _ _ _ _ (by decide) ?_

theorem tblUnseal_keeps (w : List Part) (a : Core) (x0 : Core)
    (hw : [.rsPages, .tbl] ⊆ w) (h : SameBut w a x0) :
    SameBut w a (tblUnseal x0) := by
  refine SameBut.next ?_ hw h
  clear hw h
  unfold tblUnseal
  repeat' first
    | with_reducible exact SameBut.refl _ _
    | with_reducible assumption
    | with_reducible refine SameBut.ite _ _ _ _ _ (fun _ => ?_) (fun _ => ?_)
    | with_reducible refine tblState_keeps _ _ _ (by decide) ?_
    | with_reducible refine SameBut.set_tbl _ _ _ _ (by decide) ?_

theorem tblArm_keeps (w : List Part) (a : Core) (x0 : Core) (x1 : Word)
    (hw : [.rsPages, .tu, .tbl] ⊆ w) (h : SameBut w a x0) :
    SameBut w a (tblArm x0 x1) := by
  refine SameBut.next ?_ hw h
  clear hw h
  unfold tblArm
  repeat' first
    | with_reducible exact SameBut.refl _ _
    | with_reducible assumption
    | with_reducible refine SameBut.ite _ _ _ _ _ (fun _ => ?_) (fun _ => ?_)
    | with_reducible refine pageErr_keeps _ _ _ _ _ _ _ (by decide) ?_
    | with_reducible refine alarmAdd_keeps _ _ _ _ _ _ (by decide) ?_
    | with_reducible refine tblState_keeps _ _ _ (by decide) ?_
    | with_reducible refine SameBut.set_tbl _ _ _ _ (by decide) ?_

theorem tblDisarm_keeps (w : List Part) (a : Core) (x0 : Core)
    (hw : [.rsPages, .tu, .tbl] ⊆ w) (h : SameBut w a x0) :
    SameBut w a (tblDisarm x0) := by
  refine SameBut.next ?_ hw h
  clear hw h
  unfold tblDisarm
  repeat' first
    | with_reducible exact SameBut.refl _ _
    | with_reducible assumption
    | with_reducible refine SameBut.ite _ _ _ _ _ (fun _ => ?_) (fun _ => ?_)
    | with_reducible refine tblState_keeps _ _ _ (by decide) ?_
    | with_reducible refine alarmDrop_keeps _ _ _ _ _ (by decide) ?_
    | with_reducible refine SameBut.set_tbl _ _ _ _ (by decide) ?_

theorem tblFlip_keeps (w : List Part) (a : Core) (x0 : Core)
    (hw : [.rsCnts, .rsPages, .tbl] ⊆ w) (h : SameBut w a x0) :
    SameBut w a (tblFlip x0) := by
  refine SameBut.next ?_ hw h
  clear hw h
  unfold tblFlip
  repeat' first
    | with_reducible exact SameBut.refl _ _
    | with_reducible assumption
    | (extract_lets +onlyGivenNames z; first | (refine SameBut.cut (x := z) ?_ (fun _ => ?_) <;> [(unfold z; clear z); clear_value z]) | clear_value z)
    | with_reducible refine SameBut.ite _ _ _ _ _ (fun _ => ?_) (fun _ => ?_)
    | with_reducible refine cntAdd_keeps _ _ _ _ _ _ (by decide) ?_
    | with_reducible refine irqSet_keeps _ _ _ _ _ (by decide) ?_
    | with_reducible refine SameBut.set_tbl _ _ _ _ (by decide) ?_

theorem writeEpochLoad_keeps (w : List Part) (a : Core) (x0 : Core) (x1 : Reg)
    (hw : [.rsPages, .tbl] ⊆ w) (h : SameBut w a x0) :
    SameBut w a (writeEpochLoad x0 x1) := by
  refine SameBut.next ?_ hw h
  clear hw h
  unfold writeEpochLoad
  repeat' first
    | with_reducible exact SameBut.refl _ _
    | with_reducible assumption
    | (extract_lets +onlyGivenNames z; first | (refine SameBut.cut (x := z) ?_ (fun _ => ?_) <;> [(unfold z; clear z); clear_value z]) | clear_value z)
    | with_reducible refine SameBut.ite _ _ _ _ _ (fun _ => ?_) (fun _ => ?_)
    | with_reducible refine pageErr_keeps _ _ _ _ _ _ _ (by decide) ?_
    | with_reducible refine SameBut.set_tbl _ _ _ _ (by decide) ?_

end Sys2Proof.Machine
end

