-- ==== Sys2Proof/Laws/Session.lean ====
section
/-! SUPPORT. What the operations of Session.lean leave as it was. -/

set_option linter.unusedTactic false
set_option linter.unreachableTactic false
set_option linter.tactic.unusedName false

namespace Sys2Proof.Machine

theorem linkState_keeps (w : List Part) (a : Core) (x0 : Core) (x1 : Nat) (x2 : LinkState)
    (hw : [.pp, .trc] ⊆ w) (h : SameBut w a x0) :
    SameBut w a (linkState x0 x1 x2) := by
  refine SameBut.next ?_ hw h
  clear hw h
  unfold linkState
  repeat' first
    | with_reducible exact SameBut.refl _ _
    | with_reducible assumption
    | (extract_lets +onlyGivenNames z; first | (refine SameBut.cut (x := z) ?_ (fun _ => ?_) <;> [(unfold z; clear z); clear_value z]) | clear_value z)
    | with_reducible refine modPeer_keeps _ _ _ _ _ (by decide) ?_
    | with_reducible refine trace_keeps _ _ _ _ _ _ _ _ _ _ (by decide) ?_
    | split

theorem heldLost_keeps (w : List Part) (a : Core) (x0 : Core) (x1 : TxFrom)
    (hw : [.io, .rsRegs, .rsCnts, .rsPages, .fe, .queues, .ctxs, .sqs, .isr, .de, .lanes, .st, .mf, .cru, .sched, .tu, .shr, .strm, .pp, .pmu, .trc, .free] ⊆ w) (h : SameBut w a x0) :
    SameBut w a (heldLost x0 x1) := by
  refine SameBut.next ?_ hw h
  clear hw h
  unfold heldLost
  repeat' first
    | with_reducible exact SameBut.refl _ _
    | with_reducible assumption
    | with_reducible refine SameBut.ite _ _ _ _ _ (fun _ => ?_) (fun _ => ?_)
    | with_reducible refine instFault_keeps _ _ _ _ _ _ _ (by decide) ?_
    | with_reducible refine cmdFault_keeps _ _ _ _ _ (by decide) ?_
    | with_reducible refine modInst_keeps _ _ _ _ _ (by decide) ?_
    | split

theorem waitersLost_keeps (w : List Part) (a : Core) (x0 : Core) (x1 : Nat)
    (hw : [.io, .rsRegs, .rsCnts, .rsPages, .fe, .queues, .ctxs, .sqs, .isr, .de, .lanes, .st, .mf, .cru, .sched, .tu, .shr, .strm, .pp, .pmu, .trc, .free] ⊆ w) (h : SameBut w a x0) :
    SameBut w a (waitersLost x0 x1) := by
  refine SameBut.next ?_ hw h
  clear hw h
  unfold waitersLost
  repeat' first
    | with_reducible exact SameBut.refl _ _
    | with_reducible assumption
    | with_reducible refine SameBut.ite _ _ _ _ _ (fun _ => ?_) (fun _ => ?_)
    | with_reducible refine cmdFault_keeps _ _ _ _ _ (by decide) ?_
    | with_reducible refine SameBut.fold _ _ _ _ _ (fun _ _ => ?_) ?_

theorem regsLost_keeps (w : List Part) (a : Core) (x0 : Core) (x1 : Nat)
    (hw : [.io, .rsCnts, .queues, .isr, .st, .sched, .pp, .pmu, .trc] ⊆ w) (h : SameBut w a x0) :
    SameBut w a (regsLost x0 x1) := by
  refine SameBut.next ?_ hw h
  clear hw h
  unfold regsLost
  repeat' first
    | with_reducible exact SameBut.refl _ _
    | with_reducible assumption
    | (extract_lets +onlyGivenNames z; first | (refine SameBut.cut (x := z) ?_ (fun _ => ?_) <;> [(unfold z; clear z); clear_value z]) | clear_value z)
    | with_reducible refine endWait_keeps _ _ _ _ _ (by decide) ?_
    | with_reducible refine SameBut.fold _ _ _ _ _ (fun _ _ => ?_) ?_
    | with_reducible refine SameBut.set_st _ _ _ _ (by decide) ?_

theorem msgsLost_keeps (w : List Part) (a : Core) (x0 : Core) (x1 : Nat)
    (hw : [.io, .rsCnts, .isr, .mf, .pp, .pmu] ⊆ w) (h : SameBut w a x0) :
    SameBut w a (msgsLost x0 x1) := by
  refine SameBut.next ?_ hw h
  clear hw h
  unfold msgsLost
  repeat' first
    | with_reducible exact SameBut.refl _ _
    | with_reducible assumption
    | (extract_lets +onlyGivenNames z; first | (refine SameBut.cut (x := z) ?_ (fun _ => ?_) <;> [(unfold z; clear z); clear_value z]) | (refine SameBut.cut (x := z.2) ?_ (fun _ => ?_) <;> [(unfold z; clear z); clear_value z]) | (refine SameBut.cut (x := z.1) ?_ (fun _ => ?_) <;> [(unfold z; clear z); clear_value z]) | clear_value z)
    | with_reducible refine SameBut.ite _ _ _ _ _ (fun _ => ?_) (fun _ => ?_)
    | with_reducible refine refillMsgs_keeps _ _ _ _ (by decide) ?_
    | split
    | with_reducible refine SameBut.set_mf _ _ _ _ (by decide) ?_
    | with_reducible refine SameBut.set_pp _ _ _ _ (by decide) ?_
    | ((with_reducible refine SameBut.upd _ _ _ _ _ _ _ _ _ _ _ _ _ _ _ _ _ _ _ _ _ _ _ _ _ _ _ _ _ _ _ _ _ _ _ _ _ _ ?_ ?_); rotate_left; exact (fun p => by cases p <;> first | exact Or.inr rfl | exact Or.inl (by decide) | exact Or.inr ⟨rfl, rfl⟩))

theorem lsBreak_keeps (w : List Part) (a : Core) (x0 : Core) (x1 : Nat)
    (hw : [.rsPages, .det] ⊆ w) (h : SameBut w a x0) :
    SameBut w a (lsBreak x0 x1) := by
  refine SameBut.next ?_ hw h
  clear hw h
  unfold lsBreak
  repeat' first
    | with_reducible exact SameBut.refl _ _
    | with_reducible assumption
    | with_reducible refine SameBut.ite _ _ _ _ _ (fun _ => ?_) (fun _ => ?_)
    | with_reducible refine irqSet_keeps _ _ _ _ _ (by decide) ?_
    | with_reducible refine SameBut.set_det _ _ _ _ (by decide) ?_

theorem endSession_keeps (w : List Part) (a : Core) (x0 : Core) (x1 : Nat) (x2 : Nat)
    (hw : [.io, .rsRegs, .rsCnts, .rsPages, .fe, .queues, .ctxs, .sqs, .isr, .de, .lanes, .st, .mf, .cru, .sched, .tu, .shr, .strm, .pp, .det, .pmu, .trc, .dbg, .free] ⊆ w) (h : SameBut w a x0) :
    SameBut w a (endSession x0 x1 x2) := by
  refine SameBut.next ?_ hw h
  clear hw h
  unfold endSession
  repeat' first
    | with_reducible exact SameBut.refl _ _
    | with_reducible assumption
    | (extract_lets +onlyGivenNames z; first | (refine SameBut.cut (x := z) ?_ (fun _ => ?_) <;> [(unfold z; clear z); clear_value z]) | clear_value z)
    | with_reducible refine SameBut.ite _ _ _ _ _ (fun _ => ?_) (fun _ => ?_)
    | with_reducible refine linkState_keeps _ _ _ _ _ (by decide) ?_
    | with_reducible refine msgsLost_keeps _ _ _ _ (by decide) ?_
    | with_reducible refine routesPeerLost_keeps _ _ _ _ (by decide) ?_
    | with_reducible refine linkPumpAll_keeps _ _ _ (by decide) ?_
    | with_reducible refine heldLost_keeps _ _ _ _ (by decide) ?_
    | with_reducible refine regOr_keeps _ _ _ _ _ _ (by decide) ?_
    | with_reducible refine cntAdd_keeps _ _ _ _ _ _ (by decide) ?_
    | with_reducible refine lsBreak_keeps _ _ _ _ (by decide) ?_
    | with_reducible refine irqSet_keeps _ _ _ _ _ (by decide) ?_
    | with_reducible refine regsLost_keeps _ _ _ _ (by decide) ?_
    | with_reducible refine drainAccepted_keeps _ _ _ (by decide) ?_
    | with_reducible refine modPeer_keeps _ _ _ _ _ (by decide) ?_
    | with_reducible refine waitersLost_keeps _ _ _ _ (by decide) ?_
    | with_reducible refine SameBut.fold _ _ _ _ _ (fun _ _ => ?_) ?_

theorem peerAdded_keeps (w : List Part) (a : Core) (x0 : Core) (x1 : Nat)
    (hw : [.pp, .trc] ⊆ w) (h : SameBut w a x0) :
    SameBut w a (peerAdded x0 x1) := by
  refine SameBut.next ?_ hw h
  clear hw h
  unfold peerAdded
  repeat' first
    | with_reducible exact SameBut.refl _ _
    | with_reducible assumption
    | with_reducible refine SameBut.ite _ _ _ _ _ (fun _ => ?_) (fun _ => ?_)
    | with_reducible refine linkState_keeps _ _ _ _ _ (by decide) ?_
    | with_reducible refine modPeer_keeps _ _ _ _ _ (by decide) ?_

theorem peerRemoved_keeps (w : List Part) (a : Core) (x0 : Core) (x1 : Nat)
    (hw : [.io, .rsRegs, .rsCnts, .rsPages, .fe, .queues, .ctxs, .sqs, .isr, .de, .lanes, .st, .mf, .cru, .sched, .tu, .shr, .strm, .pp, .det, .pmu, .trc, .dbg, .free] ⊆ w) (h : SameBut w a x0) :
    SameBut w a (peerRemoved x0 x1) := by
  refine SameBut.next ?_ hw h
  clear hw h
  unfold peerRemoved
  repeat' first
    | with_reducible exact SameBut.refl _ _
    | with_reducible assumption
    | (extract_lets +onlyGivenNames z; first | (refine SameBut.cut (x := z) ?_ (fun _ => ?_) <;> [(unfold z; clear z); clear_value z]) | clear_value z)
    | with_reducible refine SameBut.ite _ _ _ _ _ (fun _ => ?_) (fun _ => ?_)
    | with_reducible refine linkState_keeps _ _ _ _ _ (by decide) ?_
    | with_reducible refine endSession_keeps _ _ _ _ _ (by decide) ?_

theorem peerMaskSet_keeps (w : List Part) (a : Core) (x0 : Core) (x1 : Word) (x2 : Word)
    (hw : [.io, .rsRegs, .rsCnts, .rsPages, .fe, .queues, .ctxs, .sqs, .isr, .de, .lanes, .st, .mf, .cru, .sched, .tu, .shr, .strm, .pp, .det, .pmu, .trc, .dbg, .free] ⊆ w) (h : SameBut w a x0) :
    SameBut w a (peerMaskSet x0 x1 x2) := by
  refine SameBut.next ?_ hw h
  clear hw h
  unfold peerMaskSet
  repeat' first
    | with_reducible exact SameBut.refl _ _
    | with_reducible assumption
    | (extract_lets +onlyGivenNames z; first | (refine SameBut.cut (x := z) ?_ (fun _ => ?_) <;> [(unfold z; clear z); clear_value z]) | clear_value z)
    | with_reducible refine SameBut.ite _ _ _ _ _ (fun _ => ?_) (fun _ => ?_)
    | with_reducible refine peerRemoved_keeps _ _ _ _ (by decide) ?_
    | with_reducible refine peerAdded_keeps _ _ _ _ (by decide) ?_
    | with_reducible refine SameBut.fold _ _ _ _ _ (fun _ _ => ?_) ?_

end Sys2Proof.Machine
end

