-- ==== Sys2Proof/Laws/Agree.lean ====
section
/-! SUPPORT. What the operations of Agree.lean leave as it was. -/

set_option linter.unusedTactic false
set_option linter.unreachableTactic false
set_option linter.tactic.unusedName false

namespace Sys2Proof.Machine

theorem committedMarv_keeps (w : List Part) (a : Core) (x0 : Core) (x1 : Core)
    (hw : [.marv] ⊆ w) (h : SameBut w a x1) :
    SameBut w a (committedMarv x0 x1) := by
  refine SameBut.next ?_ hw h
  clear hw h
  unfold committedMarv
  repeat' first
    | with_reducible exact SameBut.refl _ _
    | with_reducible assumption
    | with_reducible refine SameBut.ite _ _ _ _ _ (fun _ => ?_) (fun _ => ?_)
    | with_reducible refine SameBut.set_marv _ _ _ _ (by decide) ?_

theorem committedSt_keeps (w : List Part) (a : Core) (x0 : Core) (x1 : Core)
    (hw : [.tu] ⊆ w) (h : SameBut w a x1) :
    SameBut w a (committedSt x0 x1) := by
  refine SameBut.next ?_ hw h
  clear hw h
  unfold committedSt
  repeat' first
    | with_reducible exact SameBut.refl _ _
    | with_reducible assumption
    | with_reducible refine SameBut.ite _ _ _ _ _ (fun _ => ?_) (fun _ => ?_)
    | with_reducible refine armPeriod_keeps _ _ _ _ _ _ (by decide) ?_
    | with_reducible refine alarmDrop_keeps _ _ _ _ _ (by decide) ?_

theorem committedPmu_keeps (w : List Part) (a : Core) (x0 : Core) (x1 : Core)
    (hw : [.pmu] ⊆ w) (h : SameBut w a x1) :
    SameBut w a (committedPmu x0 x1) := by
  refine SameBut.next ?_ hw h
  clear hw h
  unfold committedPmu
  repeat' first
    | with_reducible exact SameBut.refl _ _
    | with_reducible assumption
    | (extract_lets +onlyGivenNames z; first | (refine SameBut.cut (x := z) ?_ (fun _ => ?_) <;> [(unfold z; clear z); clear_value z]) | clear_value z)
    | with_reducible refine SameBut.set_pmu _ _ _ _ (by decide) ?_

theorem committed_keeps (w : List Part) (a : Core) (x0 : Core) (x1 : Core) (x2 : Nat)
    (hw : [.io, .rsRegs, .rsCnts, .rsPages, .rsDigest, .fe, .queues, .ctxs, .sqs, .isr, .de, .lanes, .st, .mf, .cru, .sched, .marv, .tu, .shr, .strm, .pp, .det, .pmu, .trc, .dbg, .free] ⊆ w) (h : SameBut w a x1) :
    SameBut w a (committed x0 x1 x2) := by
  refine SameBut.next ?_ hw h
  clear hw h
  unfold committed
  repeat' first
    | with_reducible exact SameBut.refl _ _
    | with_reducible assumption
    | with_reducible refine SameBut.ite _ _ _ _ _ (fun _ => ?_) (fun _ => ?_)
    | with_reducible refine committedPmu_keeps _ _ _ _ (by decide) ?_
    | with_reducible refine committedSt_keeps _ _ _ _ (by decide) ?_
    | with_reducible refine committedMarv_keeps _ _ _ _ (by decide) ?_
    | with_reducible refine peerMaskSet_keeps _ _ _ _ _ (by decide) ?_
    | split
    | with_reducible refine SameBut.set_dieBusy _ _ _ _ (by decide) ?_

theorem shadowDrop_keeps (w : List Part) (a : Core) (x0 : Core) (x1 : Nat)
    (hw : [.rsShadow, .rsPages] ⊆ w) (h : SameBut w a x0) :
    SameBut w a (shadowDrop x0 x1) := by
  exact modPage_keeps _ _ _ _ _ (List.Subset.trans (by decide) hw) (SameBut.set_shadow _ _ _ _ (hw (by decide)) h)

theorem shadowApply_keeps (w : List Part) (a : Core) (x0 : Core) (x1 : Nat)
    (hw : [.rsRegs] ⊆ w) (h : SameBut w a x0) :
    SameBut w a (shadowApply x0 x1) := by
  refine SameBut.next ?_ hw h
  clear hw h
  unfold shadowApply
  repeat' first
    | with_reducible exact SameBut.refl _ _
    | with_reducible assumption
    | with_reducible refine regPut_keeps _ _ _ _ _ _ (by decide) ?_
    | with_reducible refine SameBut.fold _ _ _ _ _ (fun _ _ => ?_) ?_

theorem commitPage_keeps (w : List Part) (a : Core) (x0 : Core) (x1 : Nat)
    (hw : [.io, .rsRegs, .rsShadow, .rsCnts, .rsPages, .rsDigest, .fe, .queues, .ctxs, .sqs, .isr, .de, .lanes, .st, .mf, .cru, .sched, .marv, .tu, .shr, .strm, .pp, .det, .pmu, .trc, .dbg, .free] ⊆ w) (h : SameBut w a x0) :
    SameBut w a (commitPage x0 x1) := by
  refine SameBut.next ?_ hw h
  clear hw h
  unfold commitPage
  repeat' first
    | with_reducible exact SameBut.refl _ _
    | with_reducible assumption
    | (extract_lets +onlyGivenNames z; first | (refine SameBut.cut (x := z) ?_ (fun _ => ?_) <;> [(unfold z; clear z); clear_value z]) | clear_value z)
    | with_reducible refine SameBut.ite _ _ _ _ _ (fun _ => ?_) (fun _ => ?_)
    | with_reducible refine pageErr_keeps _ _ _ _ _ _ _ (by decide) ?_
    | with_reducible refine modPage_keeps _ _ _ _ _ (by decide) ?_
    | with_reducible refine irqSet_keeps _ _ _ _ _ (by decide) ?_
    | with_reducible refine committed_keeps _ _ _ _ _ (by decide) ?_
    | with_reducible refine shadowDrop_keeps _ _ _ _ (by decide) ?_
    | with_reducible refine shadowApply_keeps _ _ _ _ (by decide) ?_
    | split

theorem discardPage_keeps (w : List Part) (a : Core) (x0 : Core) (x1 : Nat)
    (hw : [.rsShadow, .rsPages] ⊆ w) (h : SameBut w a x0) :
    SameBut w a (discardPage x0 x1) := by
  refine SameBut.next ?_ hw h
  clear hw h
  unfold discardPage
  repeat' first
    | with_reducible exact SameBut.refl _ _
    | with_reducible assumption
    | with_reducible refine shadowDrop_keeps _ _ _ _ (by decide) ?_

end Sys2Proof.Machine
end

