-- ==== Sys2Proof/Laws/Cast.lean ====
section
/-! SUPPORT. What the operations of Cast.lean leave as it was. -/

set_option linter.unusedTactic false
set_option linter.unreachableTactic false
set_option linter.tactic.unusedName false

namespace Sys2Proof.Machine

theorem castSend_keeps (w : List Part) (a : Core) (x0 : Core) (x1 : Nat) (x2 : List Nat) (x3 : Bool) (x4 : Word)
    (hw : [.io, .rsCnts, .isr, .pp, .pmu] ⊆ w) (h : SameBut w a x0) :
    SameBut w a (castSend x0 x1 x2 x3 x4) := by
  refine SameBut.next ?_ hw h
  clear hw h
  unfold castSend
  repeat' first
    | with_reducible exact SameBut.refl _ _
    | with_reducible assumption
    | (extract_lets +onlyGivenNames z; first | (refine SameBut.cut (x := z) ?_ (fun _ => ?_) <;> [(unfold z; clear z); clear_value z]) | clear_value z)
    | with_reducible refine SameBut.ite _ _ _ _ _ (fun _ => ?_) (fun _ => ?_)
    | with_reducible refine linkOffer_keeps _ _ _ _ _ _ (by decide) ?_
    | with_reducible refine SameBut.fold _ _ _ _ _ (fun _ _ => ?_) ?_

theorem castEnd_keeps (w : List Part) (a : Core) (x0 : Core) (x1 : Nat) (x2 : Bool)
    (hw : [.rsPages, .pp] ⊆ w) (h : SameBut w a x0) :
    SameBut w a (castEnd x0 x1 x2) := by
  refine SameBut.next ?_ hw h
  clear hw h
  unfold castEnd
  repeat' first
    | with_reducible exact SameBut.refl _ _
    | with_reducible assumption
    | (extract_lets +onlyGivenNames z; first | (refine SameBut.cut (x := z) ?_ (fun _ => ?_) <;> [(unfold z; clear z); clear_value z]) | clear_value z)
    | with_reducible refine SameBut.ite _ _ _ _ _ (fun _ => ?_) (fun _ => ?_)
    | with_reducible refine irqSet_keeps _ _ _ _ _ (by decide) ?_
    | with_reducible refine SameBut.set_pp _ _ _ _ (by decide) ?_

theorem castMod_keeps (w : List Part) (a : Core) (x0 : Core) (x1 : Cast → Cast)
    (hw : [.pp] ⊆ w) (h : SameBut w a x0) :
    SameBut w a (castMod x0 x1) := by
  refine SameBut.next ?_ hw h
  clear hw h
  unfold castMod
  repeat' first
    | with_reducible exact SameBut.refl _ _
    | with_reducible assumption
    | with_reducible refine SameBut.set_pp _ _ _ _ (by decide) ?_

theorem castArmed_keeps (w : List Part) (a : Core) (x0 : Core) (x1 : Cast)
    (hw : [.rsPages, .pp] ⊆ w) (h : SameBut w a x0) :
    SameBut w a (castArmed x0 x1) := by
  refine SameBut.next ?_ hw h
  clear hw h
  unfold castArmed
  repeat' first
    | with_reducible exact SameBut.refl _ _
    | with_reducible assumption
    | with_reducible refine SameBut.ite _ _ _ _ _ (fun _ => ?_) (fun _ => ?_)
    | with_reducible refine castEnd_keeps _ _ _ _ _ (by decide) ?_

theorem castArm_keeps (w : List Part) (a : Core) (x0 : Core) (x1 : Cast)
    (hw : [.io, .rsCnts, .rsPages, .isr, .tu, .tbl, .pp, .pmu] ⊆ w) (h : SameBut w a x0) :
    SameBut w a (castArm x0 x1) := by
  refine SameBut.next ?_ hw h
  clear hw h
  unfold castArm
  repeat' first
    | with_reducible exact SameBut.refl _ _
    | with_reducible assumption
    | (extract_lets +onlyGivenNames z; first | (refine SameBut.cut (x := z) ?_ (fun _ => ?_) <;> [(unfold z; clear z); clear_value z]) | clear_value z)
    | with_reducible refine castSend_keeps _ _ _ _ _ _ _ (by decide) ?_
    | with_reducible refine tblArm_keeps _ _ _ _ (by decide) ?_
    | with_reducible refine castArmed_keeps _ _ _ _ (by decide) ?_
    | with_reducible refine SameBut.set_pp _ _ _ _ (by decide) ?_

theorem castStep_keeps (w : List Part) (a : Core) (x0 : Core)
    (hw : [.io, .rsCnts, .rsPages, .isr, .tu, .tbl, .pp, .pmu] ⊆ w) (h : SameBut w a x0) :
    SameBut w a (castStep x0) := by
  refine SameBut.next ?_ hw h
  clear hw h
  unfold castStep
  repeat' first
    | with_reducible exact SameBut.refl _ _
    | with_reducible assumption
    | with_reducible refine SameBut.ite _ _ _ _ _ (fun _ => ?_) (fun _ => ?_)
    | with_reducible refine castEnd_keeps _ _ _ _ _ (by decide) ?_
    | with_reducible refine castArm_keeps _ _ _ _ (by decide) ?_
    | split
    | with_reducible refine SameBut.set_pp _ _ _ _ (by decide) ?_

theorem castBegin_keeps (w : List Part) (a : Core) (x0 : Core) (x1 : Word)
    (hw : [.io, .rsCnts, .rsPages, .isr, .tu, .tbl, .pp, .pmu] ⊆ w) (h : SameBut w a x0) :
    SameBut w a (castBegin x0 x1) := by
  refine SameBut.next ?_ hw h
  clear hw h
  unfold castBegin
  repeat' first
    | with_reducible exact SameBut.refl _ _
    | with_reducible assumption
    | (extract_lets +onlyGivenNames z; first | (refine SameBut.cut (x := z) ?_ (fun _ => ?_) <;> [(unfold z; clear z); clear_value z]) | clear_value z)
    | with_reducible refine SameBut.ite _ _ _ _ _ (fun _ => ?_) (fun _ => ?_)
    | with_reducible refine pageErr_keeps _ _ _ _ _ _ _ (by decide) ?_
    | with_reducible refine castSend_keeps _ _ _ _ _ _ _ (by decide) ?_
    | with_reducible refine tblState_keeps _ _ _ (by decide) ?_
    | with_reducible refine castStep_keeps _ _ _ (by decide) ?_
    | with_reducible refine SameBut.set_pp _ _ _ _ (by decide) ?_

theorem castDisarm_keeps (w : List Part) (a : Core) (x0 : Core)
    (hw : [.io, .rsCnts, .rsPages, .isr, .tu, .tbl, .pp, .pmu] ⊆ w) (h : SameBut w a x0) :
    SameBut w a (castDisarm x0) := by
  refine SameBut.next ?_ hw h
  clear hw h
  unfold castDisarm
  repeat' first
    | with_reducible exact SameBut.refl _ _
    | with_reducible assumption
    | (extract_lets +onlyGivenNames z; first | (refine SameBut.cut (x := z) ?_ (fun _ => ?_) <;> [(unfold z; clear z); clear_value z]) | clear_value z)
    | with_reducible refine SameBut.ite _ _ _ _ _ (fun _ => ?_) (fun _ => ?_)
    | with_reducible refine castSend_keeps _ _ _ _ _ _ _ (by decide) ?_
    | with_reducible refine tblDisarm_keeps _ _ _ (by decide) ?_
    | with_reducible refine tblState_keeps _ _ _ (by decide) ?_
    | with_reducible refine castStep_keeps _ _ _ (by decide) ?_
    | with_reducible refine SameBut.set_pp _ _ _ _ (by decide) ?_

theorem ctrlArm_keeps (w : List Part) (a : Core) (x0 : Core)
    (hw : [.io, .rsCnts, .rsPages, .isr, .tu, .tbl, .pp, .pmu] ⊆ w) (h : SameBut w a x0) :
    SameBut w a (ctrlArm x0) := by
  refine SameBut.next ?_ hw h
  clear hw h
  unfold ctrlArm
  repeat' first
    | with_reducible exact SameBut.refl _ _
    | with_reducible assumption
    | with_reducible refine SameBut.ite _ _ _ _ _ (fun _ => ?_) (fun _ => ?_)
    | with_reducible refine castBegin_keeps _ _ _ _ (by decide) ?_
    | with_reducible refine tblArm_keeps _ _ _ _ (by decide) ?_

theorem ctrlDisarm_keeps (w : List Part) (a : Core) (x0 : Core)
    (hw : [.io, .rsCnts, .rsPages, .isr, .tu, .tbl, .pp, .pmu] ⊆ w) (h : SameBut w a x0) :
    SameBut w a (ctrlDisarm x0) := by
  refine SameBut.next ?_ hw h
  clear hw h
  unfold ctrlDisarm
  repeat' first
    | with_reducible exact SameBut.refl _ _
    | with_reducible assumption
    | with_reducible refine SameBut.ite _ _ _ _ _ (fun _ => ?_) (fun _ => ?_)
    | with_reducible refine tblDisarm_keeps _ _ _ (by decide) ?_
    | with_reducible refine castDisarm_keeps _ _ _ (by decide) ?_

theorem writeTblCtrl_keeps (w : List Part) (a : Core) (x0 : Core) (x1 : Reg)
    (hw : [.io, .rsCnts, .rsPages, .isr, .tu, .tbl, .pp, .pmu] ⊆ w) (h : SameBut w a x0) :
    SameBut w a (writeTblCtrl x0 x1) := by
  refine SameBut.next ?_ hw h
  clear hw h
  unfold writeTblCtrl
  repeat' first
    | with_reducible exact SameBut.refl _ _
    | with_reducible assumption
    | (extract_lets +onlyGivenNames z; first | (refine SameBut.cut (x := z) ?_ (fun _ => ?_) <;> [(unfold z; clear z); clear_value z]) | clear_value z)
    | with_reducible refine SameBut.ite _ _ _ _ _ (fun _ => ?_) (fun _ => ?_)
    | with_reducible refine ctrlArm_keeps _ _ _ (by decide) ?_
    | with_reducible refine ctrlDisarm_keeps _ _ _ (by decide) ?_
    | with_reducible refine tblSeal_keeps _ _ _ (by decide) ?_
    | with_reducible refine tblState_keeps _ _ _ (by decide) ?_
    | with_reducible refine tblUnseal_keeps _ _ _ (by decide) ?_

theorem takeHold_keeps (w : List Part) (a : Core) (x0 : Core) (x1 : Nat) (x2 : Nat) (y d)
    (e : takeHold x0 x1 x2 = some (y, d)) (hw : [.pp] ⊆ w) (h : SameBut w a x0) :
    SameBut w a d := by
  refine SameBut.next ?_ hw h
  clear hw h
  unfold takeHold at e
  repeat' first
    | (cases e)
    | with_reducible exact SameBut.refl _ _
    | with_reducible assumption
    | with_reducible refine SameBut.ite _ _ _ _ _ (fun _ => ?_) (fun _ => ?_)
    | with_reducible refine modPeer_keeps _ _ _ _ _ (by decide) ?_
    | split
    | (injection e with e; subst e)
    | dsimp only at e
    | split at e

theorem takeFrame_keeps (w : List Part) (a : Core) (die ty : Nat) (g : Frame → Core → Core) (c : Core)
    (hw : [.io, .rsRegs, .rsCnts, .rsPages, .fe, .queues, .ctxs, .sqs, .isr, .de, .lanes, .st, .mf, .cru, .sched, .tu, .shr, .strm, .pp, .pmu, .trc, .dbg, .free] ⊆ w) (hg : ∀ f c, SameBut w c (g f c)) (h : SameBut w a c) : SameBut w a (takeFrame die ty g c) := by
  refine h.trans ?_
  unfold takeFrame
  split
  · exact SameBut.refl _ _
  · exact drainAccepted_keeps _ _ _ (List.Subset.trans (by decide) hw) ((takeHold_keeps _ _ _ _ _ _ _ ‹_› (List.Subset.trans (by decide) hw) (SameBut.refl _ _)).trans (hg _ _))

theorem tblAnswer_keeps (w : List Part) (a : Core) (x0 : Core) (x1 : Nat) (x2 : Frame) (x3 : Nat)
    (hw : [.io, .rsCnts, .isr, .pp, .pmu] ⊆ w) (h : SameBut w a x0) :
    SameBut w a (tblAnswer x0 x1 x2 x3) := by
  refine SameBut.next ?_ hw h
  clear hw h
  unfold tblAnswer
  repeat' first
    | with_reducible exact SameBut.refl _ _
    | with_reducible assumption
    | with_reducible refine SameBut.ite _ _ _ _ _ (fun _ => ?_) (fun _ => ?_)
    | with_reducible refine linkOffer_keeps _ _ _ _ _ _ (by decide) ?_

end Sys2Proof.Machine
end

