-- ==== Sys2Proof/Laws/Fifo.lean ====
section
/-! SUPPORT. What the operations of Fifo.lean leave as it was. -/

set_option linter.unusedTactic false
set_option linter.unreachableTactic false
set_option linter.tactic.unusedName false

namespace Sys2Proof.Machine

theorem modFifo_keeps (w : List Part) (a : Core) (x0 : Core) (x1 : Nat) (x2 : RegFifo → RegFifo)
    (hw : [.sched, .ras] ⊆ w) (h : SameBut w a x0) :
    SameBut w a (modFifo x0 x1 x2) := by
  refine SameBut.next ?_ hw h
  clear hw h
  unfold modFifo
  repeat' first
    | with_reducible exact SameBut.refl _ _
    | with_reducible assumption
    | with_reducible refine SameBut.ite _ _ _ _ _ (fun _ => ?_) (fun _ => ?_)
    | with_reducible refine SameBut.set_sched _ _ _ _ (by decide) ?_
    | with_reducible refine SameBut.set_ras _ _ _ _ (by decide) ?_

end Sys2Proof.Machine
end

