-- ==== Sys2Proof/Laws/Punty.lean ====
section
/-! SUPPORT. What the operations of Punty.lean leave as it was. -/

set_option linter.unusedTactic false
set_option linter.unreachableTactic false
set_option linter.tactic.unusedName false

namespace Sys2Proof.Machine

theorem lsStart_keeps (w : List Part) (a : Core) (x0 : Core)
    (hw : [.io, .rsCnts, .isr, .pp, .det, .pmu] ⊆ w) (h : SameBut w a x0) :
    SameBut w a (lsStart x0) := by
  refine SameBut.next ?_ hw h
  clear hw h
  unfold lsStart
  repeat' first
    | with_reducible exact SameBut.refl _ _
    | with_reducible assumption
    | (extract_lets +onlyGivenNames z; first | (refine SameBut.cut (x := z) ?_ (fun _ => ?_) <;> [(unfold z; clear z); clear_value z]) | clear_value z)
    | with_reducible refine SameBut.ite _ _ _ _ _ (fun _ => ?_) (fun _ => ?_)
    | with_reducible refine linkOffer_keeps _ _ _ _ _ _ (by decide) ?_
    | with_reducible refine SameBut.set_det _ _ _ _ (by decide) ?_

theorem rxFlit_keeps (w : List Part) (a : Core) (is : Nat → Bool) (g : Nat → BitVec 512 → Core → Core) (x : BitVec 512) (c : Core)
    (hw : [.io, .rsRegs, .rsCnts, .rsPages, .fe, .queues, .ctxs, .sqs, .isr, .de, .lanes, .st, .mf, .cru, .sched, .tu, .shr, .strm, .pp, .det, .pmu, .trc, .dbg, .free] ⊆ w) (hg : ∀ d x c, SameBut w c (g d x c)) (h : SameBut w a c) : SameBut w a (rxFlit is g x c) := by
  refine h.trans ?_
  unfold rxFlit
  refine SameBut.ite _ _ _ _ _ (fun _ => SameBut.refl _ _) (fun _ => ?_)
  split
  · exact cntAdd_keeps _ _ _ _ _ _ (List.Subset.trans (by decide) hw) (SameBut.refl _ _)
  refine SameBut.ite _ _ _ _ _ (fun _ => ?_) (fun _ => SameBut.refl _ _)
  exact drainAccepted_keeps _ _ _ (List.Subset.trans (by decide) hw) (lsPump_keeps _ _ _ (List.Subset.trans (by decide) hw)
    ((cntAdd_keeps _ _ _ _ _ _ (List.Subset.trans (by decide) hw) (SameBut.refl _ _)).trans (hg _ _ _)))

theorem takeAck_keeps (w : List Part) (a : Core) (x0 : Core) (x1 : Nat) (x2 : BitVec 512)
    (hw : [.io, .rsCnts, .isr, .pp, .pmu] ⊆ w) (h : SameBut w a x0) :
    SameBut w a (takeAck x0 x1 x2) := by
  refine SameBut.next ?_ hw h
  clear hw h
  unfold takeAck
  repeat' first
    | with_reducible exact SameBut.refl _ _
    | with_reducible assumption
    | with_reducible refine SameBut.ite _ _ _ _ _ (fun _ => ?_) (fun _ => ?_)
    | with_reducible refine onAck_keeps _ _ _ _ _ (by decide) ?_

theorem twoManagers_keeps (w : List Part) (a : Core) (x0 : Core) (x1 : Nat) (x2 : Nat)
    (hw : [.rsPages] ⊆ w) (h : SameBut w a x0) :
    SameBut w a (twoManagers x0 x1 x2) := by
  refine SameBut.next ?_ hw h
  clear hw h
  unfold twoManagers
  repeat' first
    | with_reducible exact SameBut.refl _ _
    | with_reducible assumption
    | with_reducible refine SameBut.ite _ _ _ _ _ (fun _ => ?_) (fun _ => ?_)
    | with_reducible refine pageErr_keeps _ _ _ _ _ _ _ (by decide) ?_

theorem wrstSeen_keeps (w : List Part) (a : Core) (x0 : Core) (x1 : Nat) (x2 : Reg)
    (hw : [.rsPages, .pp] ⊆ w) (h : SameBut w a x0) :
    SameBut w a (wrstSeen x0 x1 x2) := by
  refine SameBut.next ?_ hw h
  clear hw h
  unfold wrstSeen
  repeat' first
    | with_reducible exact SameBut.refl _ _
    | with_reducible assumption
    | with_reducible refine SameBut.ite _ _ _ _ _ (fun _ => ?_) (fun _ => ?_)
    | with_reducible refine irqSet_keeps _ _ _ _ _ (by decide) ?_
    | with_reducible refine SameBut.set_pp _ _ _ _ (by decide) ?_

theorem copyAgreed_keeps (w : List Part) (a : Core) (x0 : Core) (x1 : Nat) (x2 : BitVec 512)
    (hw : [.pp] ⊆ w) (h : SameBut w a x0) :
    SameBut w a (copyAgreed x0 x1 x2) := by
  refine SameBut.next ?_ hw h
  clear hw h
  unfold copyAgreed
  repeat' first
    | with_reducible exact SameBut.refl _ _
    | with_reducible assumption
    | (extract_lets +onlyGivenNames z; first | (refine SameBut.cut (x := z) ?_ (fun _ => ?_) <;> [(unfold z; clear z); clear_value z]) | clear_value z)
    | with_reducible refine SameBut.ite _ _ _ _ _ (fun _ => ?_) (fun _ => ?_)
    | with_reducible refine SameBut.set_pp _ _ _ _ (by decide) ?_

theorem noteHb_keeps (w : List Part) (a : Core) (x0 : Core) (x1 : Nat) (x2 : BitVec 512)
    (hw : [.pp] ⊆ w) (h : SameBut w a x0) :
    SameBut w a (noteHb x0 x1 x2) := by
  refine SameBut.next ?_ hw h
  clear hw h
  unfold noteHb
  repeat' first
    | with_reducible exact SameBut.refl _ _
    | with_reducible assumption
    | with_reducible refine modPeer_keeps _ _ _ _ _ (by decide) ?_

theorem skewCheck_keeps (w : List Part) (a : Core) (x0 : Core) (x1 : Nat) (x2 : BitVec 512)
    (hw : [.rsPages, .pp] ⊆ w) (h : SameBut w a x0) :
    SameBut w a (skewCheck x0 x1 x2) := by
  refine SameBut.next ?_ hw h
  clear hw h
  unfold skewCheck
  repeat' first
    | with_reducible exact SameBut.refl _ _
    | with_reducible assumption
    | (extract_lets +onlyGivenNames z; first | (refine SameBut.cut (x := z) ?_ (fun _ => ?_) <;> [(unfold z; clear z); clear_value z]) | clear_value z)
    | with_reducible refine SameBut.ite _ _ _ _ _ (fun _ => ?_) (fun _ => ?_)
    | with_reducible refine irqSet_keeps _ _ _ _ _ (by decide) ?_
    | with_reducible refine modPeer_keeps _ _ _ _ _ (by decide) ?_
    | with_reducible refine SameBut.set_pp _ _ _ _ (by decide) ?_

theorem hbHello_keeps (w : List Part) (a : Core) (x0 : Core) (x1 : Nat) (x2 : Reg) (x3 : Bool)
    (hw : [.rsCnts, .rsPages, .pp, .trc] ⊆ w) (h : SameBut w a x0) :
    SameBut w a (hbHello x0 x1 x2 x3) := by
  refine SameBut.next ?_ hw h
  clear hw h
  unfold hbHello
  repeat' first
    | with_reducible exact SameBut.refl _ _
    | with_reducible assumption
    | (extract_lets +onlyGivenNames z; first | (refine SameBut.cut (x := z) ?_ (fun _ => ?_) <;> [(unfold z; clear z); clear_value z]) | clear_value z)
    | with_reducible refine SameBut.ite _ _ _ _ _ (fun _ => ?_) (fun _ => ?_)
    | with_reducible refine linkState_keeps _ _ _ _ _ (by decide) ?_
    | with_reducible refine cntAdd_keeps _ _ _ _ _ _ (by decide) ?_
    | with_reducible refine irqSet_keeps _ _ _ _ _ (by decide) ?_
    | with_reducible refine modPeer_keeps _ _ _ _ _ (by decide) ?_

theorem hbUp_keeps (w : List Part) (a : Core) (x0 : Core) (x1 : Nat) (x2 : Reg) (x3 : Bool) (x4 : BitVec 512)
    (hw : [.io, .rsRegs, .rsCnts, .rsPages, .fe, .queues, .ctxs, .sqs, .isr, .de, .lanes, .st, .mf, .cru, .sched, .tu, .shr, .strm, .pp, .det, .pmu, .trc, .dbg, .free] ⊆ w) (h : SameBut w a x0) :
    SameBut w a (hbUp x0 x1 x2 x3 x4) := by
  refine SameBut.next ?_ hw h
  clear hw h
  unfold hbUp
  repeat' first
    | with_reducible exact SameBut.refl _ _
    | with_reducible assumption
    | (extract_lets +onlyGivenNames z; first | (refine SameBut.cut (x := z) ?_ (fun _ => ?_) <;> [(unfold z; clear z); clear_value z]) | clear_value z)
    | with_reducible refine SameBut.ite _ _ _ _ _ (fun _ => ?_) (fun _ => ?_)
    | with_reducible refine lsStart_keeps _ _ _ (by decide) ?_
    | with_reducible refine takeAck_keeps _ _ _ _ _ (by decide) ?_
    | with_reducible refine linkPump_keeps _ _ _ _ (by decide) ?_
    | with_reducible refine skewCheck_keeps _ _ _ _ _ (by decide) ?_
    | with_reducible refine endSession_keeps _ _ _ _ _ (by decide) ?_
    | with_reducible refine modPeer_keeps _ _ _ _ _ (by decide) ?_

theorem takeHb_keeps (w : List Part) (a : Core) (x0 : Nat) (x1 : BitVec 512) (x2 : Core)
    (hw : [.io, .rsRegs, .rsCnts, .rsPages, .fe, .queues, .ctxs, .sqs, .isr, .de, .lanes, .st, .mf, .cru, .sched, .tu, .shr, .strm, .pp, .det, .pmu, .trc, .dbg, .free] ⊆ w) (h : SameBut w a x2) :
    SameBut w a (takeHb x0 x1 x2) := by
  refine SameBut.next ?_ hw h
  clear hw h
  unfold takeHb
  repeat' first
    | with_reducible exact SameBut.refl _ _
    | with_reducible assumption
    | (extract_lets +onlyGivenNames z; first | (refine SameBut.cut (x := z) ?_ (fun _ => ?_) <;> [(unfold z; clear z); clear_value z]) | clear_value z)
    | with_reducible refine SameBut.ite _ _ _ _ _ (fun _ => ?_) (fun _ => ?_)
    | with_reducible refine noteHb_keeps _ _ _ _ _ (by decide) ?_
    | with_reducible refine copyAgreed_keeps _ _ _ _ _ (by decide) ?_
    | with_reducible refine twoManagers_keeps _ _ _ _ _ (by decide) ?_
    | with_reducible refine hbHello_keeps _ _ _ _ _ _ (by decide) ?_
    | with_reducible refine hbUp_keeps _ _ _ _ _ _ _ (by decide) ?_
    | with_reducible refine wrstSeen_keeps _ _ _ _ _ (by decide) ?_

theorem sendHb_keeps (w : List Part) (a : Core) (x0 : Core) (x1 : Nat)
    (hw : [.io, .rsCnts, .pp, .pmu] ⊆ w) (h : SameBut w a x0) :
    SameBut w a (sendHb x0 x1) := by
  refine SameBut.next ?_ hw h
  clear hw h
  unfold sendHb
  repeat' first
    | with_reducible exact SameBut.refl _ _
    | with_reducible assumption
    | (extract_lets +onlyGivenNames z; first | (refine SameBut.cut (x := z) ?_ (fun _ => ?_) <;> [(unfold z; clear z); clear_value z]) | clear_value z)
    | with_reducible refine SameBut.ite _ _ _ _ _ (fun _ => ?_) (fun _ => ?_)
    | with_reducible refine sendFlit_keeps _ _ _ _ (by decide) ?_
    | with_reducible refine modPeer_keeps _ _ _ _ _ (by decide) ?_

theorem ackAgain_keeps (w : List Part) (a : Core) (x0 : Core) (x1 : Nat)
    (hw : [.io, .rsCnts, .pp, .pmu] ⊆ w) (h : SameBut w a x0) :
    SameBut w a (ackAgain x0 x1) := by
  refine SameBut.next ?_ hw h
  clear hw h
  unfold ackAgain
  repeat' first
    | with_reducible exact SameBut.refl _ _
    | with_reducible assumption
    | with_reducible refine SameBut.ite _ _ _ _ _ (fun _ => ?_) (fun _ => ?_)
    | with_reducible refine sendAck_keeps _ _ _ _ (by decide) ?_
    | with_reducible refine modPeer_keeps _ _ _ _ _ (by decide) ?_

theorem takeSeq_keeps (w : List Part) (a : Core) (x0 : Nat) (x1 : BitVec 512) (x2 : Core)
    (hw : [.io, .rsCnts, .isr, .pp, .pmu] ⊆ w) (h : SameBut w a x2) :
    SameBut w a (takeSeq x0 x1 x2) := by
  refine SameBut.next ?_ hw h
  clear hw h
  unfold takeSeq
  repeat' first
    | with_reducible exact SameBut.refl _ _
    | with_reducible assumption
    | (extract_lets +onlyGivenNames z; first | (refine SameBut.cut (x := z) ?_ (fun _ => ?_) <;> [(unfold z; clear z); clear_value z]) | clear_value z)
    | with_reducible refine SameBut.ite _ _ _ _ _ (fun _ => ?_) (fun _ => ?_)
    | with_reducible refine ackAgain_keeps _ _ _ _ (by decide) ?_
    | with_reducible refine sendNak_keeps _ _ _ _ (by decide) ?_
    | with_reducible refine takeAck_keeps _ _ _ _ _ (by decide) ?_
    | with_reducible refine cntAdd_keeps _ _ _ _ _ _ (by decide) ?_
    | with_reducible refine sendAck_keeps _ _ _ _ (by decide) ?_
    | with_reducible refine modPeer_keeps _ _ _ _ _ (by decide) ?_

theorem takeNak_keeps (w : List Part) (a : Core) (x0 : Nat) (x1 : BitVec 512) (x2 : Core)
    (hw : [.io, .rsCnts, .isr, .pp, .pmu] ⊆ w) (h : SameBut w a x2) :
    SameBut w a (takeNak x0 x1 x2) := by
  refine SameBut.next ?_ hw h
  clear hw h
  unfold takeNak
  repeat' first
    | with_reducible exact SameBut.refl _ _
    | with_reducible assumption
    | (extract_lets +onlyGivenNames z; first | (refine SameBut.cut (x := z) ?_ (fun _ => ?_) <;> [(unfold z; clear z); clear_value z]) | clear_value z)
    | with_reducible refine SameBut.ite _ _ _ _ _ (fun _ => ?_) (fun _ => ?_)
    | with_reducible refine goBack_keeps _ _ _ _ (by decide) ?_
    | with_reducible refine onAck_keeps _ _ _ _ _ (by decide) ?_

theorem takeSyncOp_keeps (w : List Part) (a : Core) (x0 : Nat) (x1 : Frame) (x2 : Core)
    (hw : [.st] ⊆ w) (h : SameBut w a x2) :
    SameBut w a (takeSyncOp x0 x1 x2) := by
  refine SameBut.next ?_ hw h
  clear hw h
  unfold takeSyncOp
  repeat' first
    | with_reducible exact SameBut.refl _ _
    | with_reducible assumption
    | (extract_lets +onlyGivenNames z; first | (refine SameBut.cut (x := z) ?_ (fun _ => ?_) <;> [(unfold z; clear z); clear_value z]) | clear_value z)
    | with_reducible refine stOffer_keeps _ _ _ _ (by decide) ?_
    | split

theorem returnUnits_keeps (w : List Part) (a : Core) (x0 : Core) (x1 : Nat) (x2 : Nat) (x3 : Word)
    (hw : [.io, .rsCnts, .isr, .pp, .pmu, .free] ⊆ w) (h : SameBut w a x0) :
    SameBut w a (returnUnits x0 x1 x2 x3) := by
  refine SameBut.next ?_ hw h
  clear hw h
  unfold returnUnits
  repeat' first
    | with_reducible exact SameBut.refl _ _
    | with_reducible assumption
    | (extract_lets +onlyGivenNames z; first | (refine SameBut.cut (x := z) ?_ (fun _ => ?_) <;> [(unfold z; clear z); clear_value z]) | (refine SameBut.cut (x := z.2) ?_ (fun _ => ?_) <;> [(unfold z; clear z); clear_value z]) | (refine SameBut.cut (x := z.1) ?_ (fun _ => ?_) <;> [(unfold z; clear z); clear_value z]) | clear_value z)
    | with_reducible refine freeNat_keeps _ _ _ (by decide) ?_
    | with_reducible refine linkOffer_keeps _ _ _ _ _ _ (by decide) ?_
    | with_reducible refine freeNat_keeps_eq _ _ _ _ _ ‹_› (by decide) ?_

theorem takeSyncRel_keeps (w : List Part) (a : Core) (x0 : Nat) (x1 : Frame) (x2 : Core)
    (hw : [.io, .rsRegs, .rsCnts, .rsPages, .fe, .queues, .ctxs, .sqs, .isr, .de, .lanes, .st, .mf, .cru, .sched, .tu, .shr, .strm, .pp, .pmu, .trc, .free] ⊆ w) (h : SameBut w a x2) :
    SameBut w a (takeSyncRel x0 x1 x2) := by
  refine SameBut.next ?_ hw h
  clear hw h
  unfold takeSyncRel
  repeat' first
    | with_reducible exact SameBut.refl _ _
    | with_reducible assumption
    | (extract_lets +onlyGivenNames z; first | (refine SameBut.cut (x := z) ?_ (fun _ => ?_) <;> [(unfold z; clear z); clear_value z]) | clear_value z)
    | with_reducible refine SameBut.ite _ _ _ _ _ (fun _ => ?_) (fun _ => ?_)
    | with_reducible refine returnUnits_keeps _ _ _ _ _ _ (by decide) ?_
    | with_reducible refine cmdFault_keeps _ _ _ _ _ (by decide) ?_
    | with_reducible refine modSq_keeps _ _ _ _ _ (by decide) ?_
    | split
    | with_reducible refine SameBut.set_st _ _ _ _ (by decide) ?_

theorem offerMsg_keeps (w : List Part) (a : Core) (x0 : Core) (x1 : Nat) (x2 : Frame) (x3 : Msg)
    (hw : [.mf] ⊆ w) (h : SameBut w a x0) :
    SameBut w a (offerMsg x0 x1 x2 x3) := by
  refine SameBut.next ?_ hw h
  clear hw h
  unfold offerMsg
  repeat' first
    | with_reducible exact SameBut.refl _ _
    | with_reducible assumption
    | with_reducible refine SameBut.set_mf _ _ _ _ (by decide) ?_

theorem takeMsgFrame_keeps (w : List Part) (a : Core) (x0 : Nat) (x1 : Frame) (x2 : Core)
    (hw : [.mf, .pp] ⊆ w) (h : SameBut w a x2) :
    SameBut w a (takeMsgFrame x0 x1 x2) := by
  refine SameBut.next ?_ hw h
  clear hw h
  unfold takeMsgFrame
  repeat' first
    | with_reducible exact SameBut.refl _ _
    | with_reducible assumption
    | with_reducible refine SameBut.ite _ _ _ _ _ (fun _ => ?_) (fun _ => ?_)
    | with_reducible refine offerMsg_keeps _ _ _ _ _ _ (by decide) ?_
    | with_reducible refine modPeer_keeps _ _ _ _ _ (by decide) ?_

theorem takeAnswer_keeps (w : List Part) (a : Core) (x0 : Nat) (x1 : Frame) (x2 : Core)
    (hw : [.io, .rsRegs, .rsCnts, .rsPages, .fe, .queues, .ctxs, .sqs, .isr, .de, .lanes, .st, .mf, .cru, .sched, .tu, .shr, .strm, .pp, .pmu, .trc, .free] ⊆ w) (h : SameBut w a x2) :
    SameBut w a (takeAnswer x0 x1 x2) := by
  refine SameBut.next ?_ hw h
  clear hw h
  unfold takeAnswer
  repeat' first
    | with_reducible exact SameBut.refl _ _
    | with_reducible assumption
    | (extract_lets +onlyGivenNames z; first | (refine SameBut.cut (x := z) ?_ (fun _ => ?_) <;> [(unfold z; clear z); clear_value z]) | clear_value z)
    | with_reducible refine countAnswer_keeps _ _ _ _ _ _ (by decide) ?_
    | with_reducible refine refillMsgs_keeps _ _ _ _ (by decide) ?_
    | split
    | with_reducible refine SameBut.set_mf _ _ _ _ (by decide) ?_
    | with_reducible refine SameBut.set_pp _ _ _ _ (by decide) ?_

theorem ackReset_keeps (w : List Part) (a : Core) (x0 : Core) (x1 : Nat)
    (hw : [.pp] ⊆ w) (h : SameBut w a x0) :
    SameBut w a (ackReset x0 x1) := by
  refine SameBut.next ?_ hw h
  clear hw h
  unfold ackReset
  repeat' first
    | with_reducible exact SameBut.refl _ _
    | with_reducible assumption
    | (extract_lets +onlyGivenNames z; first | (refine SameBut.cut (x := z) ?_ (fun _ => ?_) <;> [(unfold z; clear z); clear_value z]) | clear_value z)
    | with_reducible refine modPeer_keeps _ _ _ _ _ (by decide) ?_

theorem takeResetAck_keeps (w : List Part) (a : Core) (x0 : Nat) (x1 : BitVec 512) (x2 : Core)
    (hw : [.io, .rsRegs, .rsCnts, .rsPages, .fe, .queues, .ctxs, .sqs, .isr, .de, .lanes, .st, .mf, .cru, .sched, .tu, .shr, .strm, .pp, .det, .pmu, .trc, .dbg, .free] ⊆ w) (h : SameBut w a x2) :
    SameBut w a (takeResetAck x0 x1 x2) := by
  refine SameBut.next ?_ hw h
  clear hw h
  unfold takeResetAck
  repeat' first
    | with_reducible exact SameBut.refl _ _
    | with_reducible assumption
    | (extract_lets +onlyGivenNames z; first | (refine SameBut.cut (x := z) ?_ (fun _ => ?_) <;> [(unfold z; clear z); clear_value z]) | clear_value z)
    | with_reducible refine SameBut.ite _ _ _ _ _ (fun _ => ?_) (fun _ => ?_)
    | with_reducible refine irqSet_keeps _ _ _ _ _ (by decide) ?_
    | with_reducible refine endSession_keeps _ _ _ _ _ (by decide) ?_
    | with_reducible refine ackReset_keeps _ _ _ _ (by decide) ?_
    | with_reducible refine SameBut.set_pp _ _ _ _ (by decide) ?_

theorem writeWrst_keeps (w : List Part) (a : Core) (x0 : Core) (x1 : Reg)
    (hw : [.io, .rsCnts, .isr, .pp, .pmu] ⊆ w) (h : SameBut w a x0) :
    SameBut w a (writeWrst x0 x1) := by
  refine SameBut.next ?_ hw h
  clear hw h
  unfold writeWrst
  repeat' first
    | with_reducible exact SameBut.refl _ _
    | with_reducible assumption
    | (extract_lets +onlyGivenNames z; first | (refine SameBut.cut (x := z) ?_ (fun _ => ?_) <;> [(unfold z; clear z); clear_value z]) | clear_value z)
    | with_reducible refine SameBut.ite _ _ _ _ _ (fun _ => ?_) (fun _ => ?_)
    | with_reducible refine linkOffer_keeps _ _ _ _ _ _ (by decide) ?_
    | with_reducible refine SameBut.set_pp _ _ _ _ (by decide) ?_

end Sys2Proof.Machine
end

