-- ==== Sys2Proof/Laws/Lockstep.lean ====
section
/-! SUPPORT. What the operations of Lockstep.lean leave as it was. -/

set_option linter.unusedTactic false
set_option linter.unreachableTactic false
set_option linter.tactic.unusedName false

namespace Sys2Proof.Machine

theorem writeLsCtrl_keeps (w : List Part) (a : Core) (x0 : Core) (x1 : Reg)
    (hw : [.io, .rsRegs, .rsCnts, .rsPages, .isr, .pp, .det, .pmu] ⊆ w) (h : SameBut w a x0) :
    SameBut w a (writeLsCtrl x0 x1) := by
  refine SameBut.next ?_ hw h
  clear hw h
  unfold writeLsCtrl
  repeat' first
    | with_reducible exact SameBut.refl _ _
    | with_reducible assumption
    | (extract_lets +onlyGivenNames z; first | (refine SameBut.cut (x := z) ?_ (fun _ => ?_) <;> [(unfold z; clear z); clear_value z]) | clear_value z)
    | with_reducible refine SameBut.ite _ _ _ _ _ (fun _ => ?_) (fun _ => ?_)
    | with_reducible refine pageErr_keeps _ _ _ _ _ _ _ (by decide) ?_
    | with_reducible refine lsStart_keeps _ _ _ (by decide) ?_
    | with_reducible refine regSet_keeps _ _ _ _ _ _ (by decide) ?_
    | split
    | with_reducible refine SameBut.set_det _ _ _ _ (by decide) ?_

theorem lsPair_keeps (w : List Part) (a : Core) (x0 : Core) (x1 : Frame)
    (hw : [.rsPages, .det] ⊆ w) (h : SameBut w a x0) :
    SameBut w a (lsPair x0 x1) := by
  refine SameBut.next ?_ hw h
  clear hw h
  unfold lsPair
  repeat' first
    | with_reducible exact SameBut.refl _ _
    | with_reducible assumption
    | (extract_lets +onlyGivenNames z; first | (refine SameBut.cut (x := z) ?_ (fun _ => ?_) <;> [(unfold z; clear z); clear_value z]) | clear_value z)
    | with_reducible refine SameBut.ite _ _ _ _ _ (fun _ => ?_) (fun _ => ?_)
    | with_reducible refine irqSet_keeps _ _ _ _ _ (by decide) ?_
    | with_reducible refine SameBut.set_det _ _ _ _ (by decide) ?_

theorem takeLstep_keeps (w : List Part) (a : Core) (x0 : Nat) (x1 : Frame) (x2 : Core)
    (hw : [.io, .rsRegs, .rsCnts, .rsPages, .qsc, .isr, .lanes, .pp, .det, .pmu] ⊆ w) (h : SameBut w a x2) :
    SameBut w a (takeLstep x0 x1 x2) := by
  refine SameBut.next ?_ hw h
  clear hw h
  unfold takeLstep
  repeat' first
    | with_reducible exact SameBut.refl _ _
    | with_reducible assumption
    | with_reducible refine SameBut.ite _ _ _ _ _ (fun _ => ?_) (fun _ => ?_)
    | with_reducible refine quiesceStart_keeps _ _ _ _ (by decide) ?_
    | with_reducible refine lsMatch_keeps _ _ _ _ (by decide) ?_
    | with_reducible refine lsPair_keeps _ _ _ _ (by decide) ?_
    | with_reducible refine SameBut.fold _ _ _ _ _ (fun _ _ => ?_) ?_
    | split

end Sys2Proof.Machine
end

