-- ==== Sys2Proof/Laws/Ras.lean ====
section
/-! SUPPORT. What the operations of Ras.lean leave as it was. -/

set_option linter.unusedTactic false
set_option linter.unreachableTactic false
set_option linter.tactic.unusedName false

namespace Sys2Proof.Machine

theorem savesResume_keeps (w : List Part) (a : Core) (x0 : Core)
    (hw : [.io, .rsPages, .queues, .sqs, .sched, .pmu, .trc, .dbg] ⊆ w) (h : SameBut w a x0) :
    SameBut w a (savesResume x0) := by
  refine SameBut.next ?_ hw h
  clear hw h
  unfold savesResume
  repeat' first
    | with_reducible exact SameBut.refl _ _
    | with_reducible assumption
    | with_reducible refine saveAdvance_keeps _ _ _ _ (by decide) ?_
    | with_reducible refine restoreAdvance_keeps _ _ _ _ (by decide) ?_
    | with_reducible refine SameBut.fold _ _ _ _ _ (fun _ _ => ?_) ?_

theorem unitsResume_keeps (w : List Part) (a : Core) (x0 : Core)
    (hw : [.io, .rsRegs, .rsCnts, .rsPages, .qsc, .fe, .queues, .ctxs, .sqs, .isr, .de, .lanes, .st, .mf, .cru, .sched, .tu, .shr, .strm, .pp, .det, .pmu, .trc, .dbg, .free] ⊆ w) (h : SameBut w a x0) :
    SameBut w a (unitsResume x0) := by
  refine SameBut.next ?_ hw h
  clear hw h
  unfold unitsResume
  repeat' first
    | with_reducible exact SameBut.refl _ _
    | with_reducible assumption
    | (extract_lets +onlyGivenNames z; first | (refine SameBut.cut (x := z) ?_ (fun _ => ?_) <;> [(unfold z; clear z); clear_value z]) | clear_value z)
    | with_reducible refine routeKick_keeps _ _ _ (by decide) ?_
    | with_reducible refine cruResume_keeps _ _ _ _ (by decide) ?_
    | with_reducible refine feKick_keeps _ _ _ (by decide) ?_
    | with_reducible refine linkPump_keeps _ _ _ _ (by decide) ?_
    | with_reducible refine savesResume_keeps _ _ _ (by decide) ?_
    | with_reducible refine lsPump_keeps _ _ _ (by decide) ?_
    | with_reducible refine drainAccepted_keeps _ _ _ (by decide) ?_
    | with_reducible refine stFill_keeps _ _ _ (by decide) ?_
    | with_reducible refine SameBut.fold _ _ _ _ _ (fun _ _ => ?_) ?_

theorem dropPrefetch_keeps (w : List Part) (a : Core) (x0 : Core) (x1 : Nat)
    (hw : [.queues] ⊆ w) (h : SameBut w a x0) :
    SameBut w a (dropPrefetch x0 x1) := by
  refine SameBut.next ?_ hw h
  clear hw h
  unfold dropPrefetch
  repeat' first
    | with_reducible exact SameBut.refl _ _
    | with_reducible assumption
    | with_reducible refine SameBut.ite _ _ _ _ _ (fun _ => ?_) (fun _ => ?_)
    | with_reducible refine modQ_keeps _ _ _ _ _ (by decide) ?_
    | split

theorem maskSram_keeps (w : List Part) (a : Core) (x0 : Core) (x1 : Nat) (x2 : Nat) (x3 : Nat) (d : Core)
    (e : maskSram x0 x1 x2 x3 = some d) (hw : [.rsCnts, .queues, .marv, .det, .ras, .trc] ⊆ w) (h : SameBut w a x0) :
    SameBut w a d := by
  refine SameBut.next ?_ hw h
  clear hw h
  unfold maskSram at e
  split at e
  · split at e
    · cases e; exact dropPrefetch_keeps _ _ _ _ (by decide) (SameBut.refl _ _)
    · cases e
  · split at e <;> cases e
    exact SameBut.refl _ _
  · cases e; exact SameBut.set_marv _ _ _ _ (by decide) (SameBut.refl _ _)
  · cases e; exact cntAdd_keeps _ _ _ _ _ _ (by decide) (SameBut.set_trc _ _ _ _ (by decide) (SameBut.refl _ _))
  · cases e; exact SameBut.set_ras _ _ _ _ (by decide) (SameBut.refl _ _)
  · cases e; exact cntAdd_keeps _ _ _ _ _ _ (by decide) (SameBut.refl _ _)
  · cases e; exact SameBut.set_det _ _ _ _ (by decide) (SameBut.refl _ _)
  · cases e

theorem poisonBlock_keeps (w : List Part) (a : Core) (x0 : Core) (x1 : Nat) (x2 : Nat)
    (hw : [.gs] ⊆ w) (h : SameBut w a x0) :
    SameBut w a (poisonBlock x0 x1 x2) := by
  refine SameBut.next ?_ hw h
  clear hw h
  unfold poisonBlock
  repeat' first
    | with_reducible exact SameBut.refl _ _
    | with_reducible assumption
    | (extract_lets +onlyGivenNames z; first | (refine SameBut.cut (x := z) ?_ (fun _ => ?_) <;> [(unfold z; clear z); clear_value z]) | clear_value z)
    | with_reducible refine SameBut.ite _ _ _ _ _ (fun _ => ?_) (fun _ => ?_)
    | with_reducible refine SameBut.set_gs _ _ _ _ (by decide) ?_

theorem injUsed_keeps (w : List Part) (a : Core) (x0 : Core) (x1 : Nat) (x2 : Bool)
    (hw : [.ras] ⊆ w) (h : SameBut w a x0) :
    SameBut w a (injUsed x0 x1 x2) := by
  refine SameBut.next ?_ hw h
  clear hw h
  unfold injUsed
  repeat' first
    | with_reducible exact SameBut.refl _ _
    | with_reducible assumption
    | split
    | with_reducible refine SameBut.set_ras _ _ _ _ (by decide) ?_

theorem countUe_keeps (w : List Part) (a : Core) (x0 : Core) (x1 : Nat) (x2 : Reg)
    (hw : [.rsCnts, .rsPages, .ras] ⊆ w) (h : SameBut w a x0) :
    SameBut w a (countUe x0 x1 x2) := by
  refine SameBut.next ?_ hw h
  clear hw h
  unfold countUe
  repeat' first
    | with_reducible exact SameBut.refl _ _
    | with_reducible assumption
    | (extract_lets +onlyGivenNames z; first | (refine SameBut.cut (x := z) ?_ (fun _ => ?_) <;> [(unfold z; clear z); clear_value z]) | clear_value z)
    | with_reducible refine cntAdd_keeps _ _ _ _ _ _ (by decide) ?_
    | with_reducible refine irqSet_keeps _ _ _ _ _ (by decide) ?_
    | with_reducible refine SameBut.set_ras _ _ _ _ (by decide) ?_

theorem sramFault_keeps (w : List Part) (a : Core) (x0 : Core) (x1 : Nat) (x2 : Nat) (x3 : Reg) (x4 : Nat)
    (hw : [.io, .rsRegs, .rsCnts, .rsPages, .fe, .queues, .ctxs, .gs, .marv, .det, .ras, .pmu, .trc] ⊆ w) (h : SameBut w a x0) :
    SameBut w a (sramFault x0 x1 x2 x3 x4) := by
  refine SameBut.next ?_ hw h
  clear hw h
  unfold sramFault
  repeat' first
    | with_reducible exact SameBut.refl _ _
    | with_reducible assumption
    | (extract_lets +onlyGivenNames z; first | (refine SameBut.cut (x := z) ?_ (fun _ => ?_) <;> [(unfold z; clear z); clear_value z]) | clear_value z)
    | with_reducible refine SameBut.ite _ _ _ _ _ (fun _ => ?_) (fun _ => ?_)
    | with_reducible refine injUsed_keeps _ _ _ _ _ (by decide) ?_
    | with_reducible refine countUe_keeps _ _ _ _ _ (by decide) ?_
    | with_reducible refine poisonBlock_keeps _ _ _ _ _ (by decide) ?_
    | with_reducible refine logErr_keeps _ _ _ _ (by decide) ?_
    | with_reducible refine contain_keeps _ _ _ _ (by decide) ?_
    | with_reducible refine maskSram_keeps _ _ _ _ _ _ _ ‹_› (by decide) ?_
    | split

theorem writeInj_keeps (w : List Part) (a : Core) (x0 : Core) (x1 : Reg)
    (hw : [.rsPages, .ras] ⊆ w) (h : SameBut w a x0) :
    SameBut w a (writeInj x0 x1) := by
  refine SameBut.next ?_ hw h
  clear hw h
  unfold writeInj
  repeat' first
    | with_reducible exact SameBut.refl _ _
    | with_reducible assumption
    | with_reducible refine SameBut.ite _ _ _ _ _ (fun _ => ?_) (fun _ => ?_)
    | with_reducible refine pageErr_keeps _ _ _ _ _ _ _ (by decide) ?_
    | with_reducible refine SameBut.set_ras _ _ _ _ (by decide) ?_

end Sys2Proof.Machine
end

