-- ==== Sys2Proof/Laws/Monitor.lean ====
section
/-! SUPPORT. What the operations of Monitor.lean leave as it was. -/

set_option linter.unusedTactic false
set_option linter.unreachableTactic false
set_option linter.tactic.unusedName false

namespace Sys2Proof.Machine

theorem pmuSnap_keeps (w : List Part) (a : Core) (x0 : Core)
    (hw : [.pmu] ⊆ w) (h : SameBut w a x0) :
    SameBut w a (pmuSnap x0) := by
  refine SameBut.next ?_ hw h
  clear hw h
  unfold pmuSnap
  repeat' first
    | with_reducible exact SameBut.refl _ _
    | with_reducible assumption
    | with_reducible refine SameBut.set_pmu _ _ _ _ (by decide) ?_

theorem pmuClear_keeps (w : List Part) (a : Core) (x0 : Core)
    (hw : [.pmu] ⊆ w) (h : SameBut w a x0) :
    SameBut w a (pmuClear x0) := by
  refine SameBut.next ?_ hw h
  clear hw h
  unfold pmuClear
  repeat' first
    | with_reducible exact SameBut.refl _ _
    | with_reducible assumption
    | with_reducible refine SameBut.set_pmu _ _ _ _ (by decide) ?_

theorem writePmuCmd_keeps (w : List Part) (a : Core) (x0 : Core) (x1 : Reg)
    (hw : [.pmu] ⊆ w) (h : SameBut w a x0) :
    SameBut w a (writePmuCmd x0 x1) := by
  refine SameBut.next ?_ hw h
  clear hw h
  unfold writePmuCmd
  repeat' first
    | with_reducible exact SameBut.refl _ _
    | with_reducible assumption
    | (extract_lets +onlyGivenNames z; first | (refine SameBut.cut (x := z) ?_ (fun _ => ?_) <;> [(unfold z; clear z); clear_value z]) | clear_value z)
    | with_reducible refine SameBut.ite _ _ _ _ _ (fun _ => ?_) (fun _ => ?_)
    | with_reducible refine pmuSnap_keeps _ _ _ (by decide) ?_
    | with_reducible refine pmuClear_keeps _ _ _ (by decide) ?_

theorem writeUqSel_keeps (w : List Part) (a : Core) (x0 : Core) (x1 : Reg)
    (hw : [.rsRegs, .rsPages, .pmu] ⊆ w) (h : SameBut w a x0) :
    SameBut w a (writeUqSel x0 x1) := by
  refine SameBut.next ?_ hw h
  clear hw h
  unfold writeUqSel
  repeat' first
    | with_reducible exact SameBut.refl _ _
    | with_reducible assumption
    | (extract_lets +onlyGivenNames z; first | (refine SameBut.cut (x := z) ?_ (fun _ => ?_) <;> [(unfold z; clear z); clear_value z]) | clear_value z)
    | with_reducible refine regSet_keeps _ _ _ _ _ _ (by decide) ?_
    | with_reducible refine SameBut.set_pmu _ _ _ _ (by decide) ?_

theorem trcStop_keeps (w : List Part) (a : Core) (x0 : Core)
    (hw : [.rsRegs, .rsPages, .trc] ⊆ w) (h : SameBut w a x0) :
    SameBut w a (trcStop x0) := by
  refine SameBut.next ?_ hw h
  clear hw h
  unfold trcStop
  repeat' first
    | with_reducible exact SameBut.refl _ _
    | with_reducible assumption
    | (extract_lets +onlyGivenNames z; first | (refine SameBut.cut (x := z) ?_ (fun _ => ?_) <;> [(unfold z; clear z); clear_value z]) | clear_value z)
    | with_reducible refine irqSet_keeps _ _ _ _ _ (by decide) ?_
    | with_reducible refine regSet_keeps _ _ _ _ _ _ (by decide) ?_
    | with_reducible refine SameBut.set_trc _ _ _ _ (by decide) ?_

theorem trcPost_keeps (w : List Part) (a : Core) (x0 : Core) (x1 : Nat)
    (hw : [.rsRegs, .rsPages, .trc] ⊆ w) (h : SameBut w a x0) :
    SameBut w a (trcPost x0 x1) := by
  refine SameBut.next ?_ hw h
  clear hw h
  unfold trcPost
  repeat' first
    | with_reducible exact SameBut.refl _ _
    | with_reducible assumption
    | with_reducible refine SameBut.ite _ _ _ _ _ (fun _ => ?_) (fun _ => ?_)
    | with_reducible refine trcStop_keeps _ _ _ (by decide) ?_
    | split
    | with_reducible refine SameBut.set_trc _ _ _ _ (by decide) ?_

theorem stageOne_keeps (w : List Part) (a : Core) (x0 : Core) (x1 : TrcRec)
    (hw : [.rsRegs, .rsCnts, .rsPages, .trc] ⊆ w) (h : SameBut w a x0) :
    SameBut w a (stageOne x0 x1) := by
  refine SameBut.next ?_ hw h
  clear hw h
  unfold stageOne
  repeat' first
    | with_reducible exact SameBut.refl _ _
    | with_reducible assumption
    | (extract_lets +onlyGivenNames z; first | (refine SameBut.cut (x := z) ?_ (fun _ => ?_) <;> [(unfold z; clear z); clear_value z]) | clear_value z)
    | with_reducible refine SameBut.ite _ _ _ _ _ (fun _ => ?_) (fun _ => ?_)
    | with_reducible refine trcPost_keeps _ _ _ _ (by decide) ?_
    | with_reducible refine cntAdd_keeps _ _ _ _ _ _ (by decide) ?_
    | with_reducible refine SameBut.set_trc _ _ _ _ (by decide) ?_

theorem stageAll_keeps (w : List Part) (a : Core) (x0 : Core) (x1 : List TrcRec)
    (hw : [.rsRegs, .rsCnts, .rsPages, .trc] ⊆ w) (h : SameBut w a x0) :
    SameBut w a (stageAll x0 x1) := by
  refine SameBut.next ?_ hw h
  clear hw h
  fun_induction stageAll x0 x1
  all_goals repeat' first
    | with_reducible exact SameBut.refl _ _
    | with_reducible assumption
    | (with_reducible refine SameBut.trans ?_ (by assumption))
    | with_reducible refine SameBut.ite _ _ _ _ _ (fun _ => ?_) (fun _ => ?_)
    | with_reducible refine stageOne_keeps _ _ _ _ (by decide) ?_
    | split

theorem trcFail_keeps (w : List Part) (a : Core) (x0 : Core) (x1 : Nat)
    (hw : [.rsRegs, .rsPages, .trc] ⊆ w) (h : SameBut w a x0) :
    SameBut w a (trcFail x0 x1) := by
  refine SameBut.next ?_ hw h
  clear hw h
  unfold trcFail
  repeat' first
    | with_reducible exact SameBut.refl _ _
    | with_reducible assumption
    | (extract_lets +onlyGivenNames z; first | (refine SameBut.cut (x := z) ?_ (fun _ => ?_) <;> [(unfold z; clear z); clear_value z]) | clear_value z)
    | with_reducible refine pageErr_keeps _ _ _ _ _ _ _ (by decide) ?_
    | with_reducible refine irqSet_keeps _ _ _ _ _ (by decide) ?_
    | with_reducible refine regSet_keeps _ _ _ _ _ _ (by decide) ?_
    | with_reducible refine SameBut.set_trc _ _ _ _ (by decide) ?_

theorem writeTrcCtrl_keeps (w : List Part) (a : Core) (x0 : Core) (x1 : Reg)
    (hw : [.rsRegs, .rsPages] ⊆ w) (h : SameBut w a x0) :
    SameBut w a (writeTrcCtrl x0 x1) := by
  refine SameBut.next ?_ hw h
  clear hw h
  unfold writeTrcCtrl
  repeat' first
    | with_reducible exact SameBut.refl _ _
    | with_reducible assumption
    | (extract_lets +onlyGivenNames z; first | (refine SameBut.cut (x := z) ?_ (fun _ => ?_) <;> [(unfold z; clear z); clear_value z]) | clear_value z)
    | with_reducible refine SameBut.ite _ _ _ _ _ (fun _ => ?_) (fun _ => ?_)
    | with_reducible refine pageErr_keeps _ _ _ _ _ _ _ (by decide) ?_
    | with_reducible refine regSet_keeps _ _ _ _ _ _ (by decide) ?_

theorem writeTrcMark_keeps (w : List Part) (a : Core) (x0 : Core) (x1 : Reg)
    (hw : [.trc] ⊆ w) (h : SameBut w a x0) :
    SameBut w a (writeTrcMark x0 x1) := by
  refine SameBut.next ?_ hw h
  clear hw h
  unfold writeTrcMark
  repeat' first
    | with_reducible exact SameBut.refl _ _
    | with_reducible assumption
    | with_reducible refine trace_keeps _ _ _ _ _ _ _ _ _ _ (by decide) ?_

theorem haltOne_keeps (w : List Part) (a : Core) (x0 : Core) (x1 : Nat)
    (hw : [.rsPages, .sqs] ⊆ w) (h : SameBut w a x0) :
    SameBut w a (haltOne x0 x1) := by
  refine SameBut.next ?_ hw h
  clear hw h
  unfold haltOne
  repeat' first
    | with_reducible exact SameBut.refl _ _
    | with_reducible assumption
    | with_reducible refine SameBut.ite _ _ _ _ _ (fun _ => ?_) (fun _ => ?_)
    | with_reducible refine irqSet_keeps _ _ _ _ _ (by decide) ?_
    | with_reducible refine modSq_keeps _ _ _ _ _ (by decide) ?_

theorem writeHaltReq_keeps (w : List Part) (a : Core) (x0 : Core) (x1 : Reg)
    (hw : [.rsPages, .sqs] ⊆ w) (h : SameBut w a x0) :
    SameBut w a (writeHaltReq x0 x1) := by
  refine SameBut.next ?_ hw h
  clear hw h
  unfold writeHaltReq
  repeat' first
    | with_reducible exact SameBut.refl _ _
    | with_reducible assumption
    | with_reducible refine haltOne_keeps _ _ _ _ (by decide) ?_
    | with_reducible refine SameBut.fold _ _ _ _ _ (fun _ _ => ?_) ?_

theorem resumeOne_keeps (w : List Part) (a : Core) (x0 : Core) (x1 : Nat)
    (hw : [.io, .rsCnts, .rsPages, .queues, .sqs, .isr, .lanes, .st, .mf, .sched, .tu, .pp, .pmu, .trc] ⊆ w) (h : SameBut w a x0) :
    SameBut w a (resumeOne x0 x1) := by
  refine SameBut.next ?_ hw h
  clear hw h
  unfold resumeOne
  repeat' first
    | with_reducible exact SameBut.refl _ _
    | with_reducible assumption
    | with_reducible refine SameBut.ite _ _ _ _ _ (fun _ => ?_) (fun _ => ?_)
    | with_reducible refine lateSave_keeps _ _ _ _ (by decide) ?_
    | with_reducible refine modSq_keeps _ _ _ _ _ (by decide) ?_

theorem writeResume_keeps (w : List Part) (a : Core) (x0 : Core) (x1 : Reg)
    (hw : [.io, .rsCnts, .rsPages, .queues, .sqs, .isr, .lanes, .st, .mf, .sched, .tu, .pp, .pmu, .trc] ⊆ w) (h : SameBut w a x0) :
    SameBut w a (writeResume x0 x1) := by
  refine SameBut.next ?_ hw h
  clear hw h
  unfold writeResume
  repeat' first
    | with_reducible exact SameBut.refl _ _
    | with_reducible assumption
    | with_reducible refine resumeOne_keeps _ _ _ _ (by decide) ?_
    | with_reducible refine SameBut.fold _ _ _ _ _ (fun _ _ => ?_) ?_

theorem stepOne_keeps (w : List Part) (a : Core) (x0 : Core) (x1 : Nat)
    (hw : [.sqs] ⊆ w) (h : SameBut w a x0) :
    SameBut w a (stepOne x0 x1) := by
  refine SameBut.next ?_ hw h
  clear hw h
  unfold stepOne
  repeat' first
    | with_reducible exact SameBut.refl _ _
    | with_reducible assumption
    | with_reducible refine SameBut.ite _ _ _ _ _ (fun _ => ?_) (fun _ => ?_)
    | with_reducible refine modSq_keeps _ _ _ _ _ (by decide) ?_

theorem writeStep_keeps (w : List Part) (a : Core) (x0 : Core) (x1 : Reg)
    (hw : [.sqs] ⊆ w) (h : SameBut w a x0) :
    SameBut w a (writeStep x0 x1) := by
  refine SameBut.next ?_ hw h
  clear hw h
  unfold writeStep
  repeat' first
    | with_reducible exact SameBut.refl _ _
    | with_reducible assumption
    | with_reducible refine stepOne_keeps _ _ _ _ (by decide) ?_
    | with_reducible refine SameBut.fold _ _ _ _ _ (fun _ _ => ?_) ?_

theorem dbgRefuse_keeps (w : List Part) (a : Core) (x0 : Core) (x1 : Nat)
    (hw : [.rsPages, .dbg] ⊆ w) (h : SameBut w a x0) :
    SameBut w a (dbgRefuse x0 x1) := by
  refine SameBut.next ?_ hw h
  clear hw h
  unfold dbgRefuse
  repeat' first
    | with_reducible exact SameBut.refl _ _
    | with_reducible assumption
    | with_reducible refine pageErr_keeps _ _ _ _ _ _ _ (by decide) ?_
    | with_reducible refine SameBut.set_dbg _ _ _ _ (by decide) ?_

theorem writeShapeHi_keeps (w : List Part) (a : Core) (x0 : Core) (x1 : Reg)
    (hw : [.rsPages, .sqs, .dbg] ⊆ w) (h : SameBut w a x0) :
    SameBut w a (writeShapeHi x0 x1) := by
  refine SameBut.next ?_ hw h
  clear hw h
  unfold writeShapeHi
  repeat' first
    | with_reducible exact SameBut.refl _ _
    | with_reducible assumption
    | (extract_lets +onlyGivenNames z; first | (refine SameBut.cut (x := z) ?_ (fun _ => ?_) <;> [(unfold z; clear z); clear_value z]) | clear_value z)
    | with_reducible refine SameBut.ite _ _ _ _ _ (fun _ => ?_) (fun _ => ?_)
    | with_reducible refine dbgRefuse_keeps _ _ _ _ (by decide) ?_
    | with_reducible refine setSreg_keeps _ _ _ _ _ _ (by decide) ?_
    | with_reducible refine SameBut.set_dbg _ _ _ _ (by decide) ?_

theorem sramUndefined_keeps (w : List Part) (a : Core) (x0 : Core)
    (hw : [.sqs, .gs, .isr, .lanes, .st, .mf, .cru, .sched, .marv, .pp, .det, .ras, .trc, .free] ⊆ w) (h : SameBut w a x0) :
    SameBut w a (sramUndefined x0) := by
  refine SameBut.next ?_ hw h
  exact fun p => by cases p <;> first | exact Or.inl (by decide) | exact Or.inr rfl | exact Or.inr ⟨rfl, rfl⟩

end Sys2Proof.Machine
end

