-- ==== Sys2Proof/Laws/Quiesce.lean ====
section
/-! SUPPORT. What the operations of Quiesce.lean leave as it was. -/

set_option linter.unusedTactic false
set_option linter.unreachableTactic false
set_option linter.tactic.unusedName false

namespace Sys2Proof.Machine

theorem routeTimers_keeps (w : List Part) (a : Core) (x0 : Core) (x1 : Word)
    (hw : [.shr] ⊆ w) (h : SameBut w a x0) :
    SameBut w a (routeTimers x0 x1) := by
  refine SameBut.next ?_ hw h
  clear hw h
  unfold routeTimers
  repeat' first
    | with_reducible exact SameBut.refl _ _
    | with_reducible assumption
    | (extract_lets +onlyGivenNames z; first | (refine SameBut.cut (x := z) ?_ (fun _ => ?_) <;> [(unfold z; clear z); clear_value z]) | clear_value z)
    | with_reducible refine SameBut.ite _ _ _ _ _ (fun _ => ?_) (fun _ => ?_)
    | with_reducible refine SameBut.set_shr _ _ _ _ (by decide) ?_

theorem alarmsLate_keeps (w : List Part) (a : Core) (x0 : Core)
    (hw : [.tu] ⊆ w) (h : SameBut w a x0) :
    SameBut w a (alarmsLate x0) := by
  refine SameBut.next ?_ hw h
  clear hw h
  unfold alarmsLate
  repeat' first
    | with_reducible exact SameBut.refl _ _
    | with_reducible assumption
    | with_reducible refine SameBut.set_tu _ _ _ _ (by decide) ?_

theorem heldGo_keeps (w : List Part) (a : Core) (x0 : Core)
    (hw : [.io, .pmu] ⊆ w) (h : SameBut w a x0) :
    SameBut w a (heldGo x0) := by
  refine SameBut.next ?_ hw h
  clear hw h
  unfold heldGo
  repeat' first
    | with_reducible exact SameBut.refl _ _
    | with_reducible assumption
    | (extract_lets +onlyGivenNames z; first | (refine SameBut.cut (x := z) ?_ (fun _ => ?_) <;> [(unfold z; clear z); clear_value z]) | clear_value z)
    | with_reducible refine driveReq_keeps _ _ _ _ (by decide) ?_
    | with_reducible refine SameBut.fold _ _ _ _ _ (fun _ _ => ?_) ?_
    | with_reducible refine SameBut.set_io _ _ _ _ (by decide) ?_

theorem quiesceEnd_keeps (w : List Part) (a : Core) (x0 : Core)
    (hw : [.io, .rsRegs, .rsCnts, .rsPages, .qsc, .fe, .queues, .ctxs, .sqs, .isr, .de, .lanes, .st, .mf, .cru, .sched, .tu, .shr, .strm, .pp, .det, .pmu, .trc, .dbg, .free] ⊆ w) (h : SameBut w a x0) :
    SameBut w a (quiesceEnd x0) := by
  refine SameBut.next ?_ hw h
  clear hw h
  unfold quiesceEnd
  repeat' first
    | with_reducible exact SameBut.refl _ _
    | with_reducible assumption
    | (extract_lets +onlyGivenNames z; first | (refine SameBut.cut (x := z) ?_ (fun _ => ?_) <;> [(unfold z; clear z); clear_value z]) | clear_value z)
    | with_reducible refine routeTimers_keeps _ _ _ _ (by decide) ?_
    | with_reducible refine unitsResume_keeps _ _ _ (by decide) ?_
    | with_reducible refine alarmsLate_keeps _ _ _ (by decide) ?_
    | with_reducible refine realignSkipped_keeps _ _ _ (by decide) ?_
    | with_reducible refine heldGo_keeps _ _ _ (by decide) ?_
    | with_reducible refine SameBut.set_qsc _ _ _ _ (by decide) ?_

theorem writeQuiesce_keeps (w : List Part) (a : Core) (x0 : Core) (x1 : Reg)
    (hw : [.io, .rsRegs, .rsCnts, .rsPages, .qsc, .fe, .queues, .ctxs, .sqs, .isr, .de, .lanes, .st, .mf, .cru, .sched, .tu, .shr, .strm, .pp, .det, .pmu, .trc, .dbg, .free] ⊆ w) (h : SameBut w a x0) :
    SameBut w a (writeQuiesce x0 x1) := by
  refine SameBut.next ?_ hw h
  clear hw h
  unfold writeQuiesce
  repeat' first
    | with_reducible exact SameBut.refl _ _
    | with_reducible assumption
    | (extract_lets +onlyGivenNames z; first | (refine SameBut.cut (x := z) ?_ (fun _ => ?_) <;> [(unfold z; clear z); clear_value z]) | clear_value z)
    | with_reducible refine SameBut.ite _ _ _ _ _ (fun _ => ?_) (fun _ => ?_)
    | with_reducible refine quiesceStart_keeps _ _ _ _ (by decide) ?_
    | with_reducible refine quiesceEnd_keeps _ _ _ (by decide) ?_
    | with_reducible refine regSet_keeps _ _ _ _ _ _ (by decide) ?_

end Sys2Proof.Machine
end

