-- ==== Sys2Proof/Laws/Registers.lean ====
section
/-! SUPPORT. What the operations of Registers.lean leave as it was. -/

set_option linter.unusedTactic false
set_option linter.unreachableTactic false
set_option linter.tactic.unusedName false

namespace Sys2Proof.Machine

theorem readReg_keeps (w : List Part) (a : Core) (x0 : Rst) (x1 : Core) (x2 : Nat) (x3 : Nat)
    (hw : [.rsPages, .st, .sched, .ras] ⊆ w) (h : SameBut w a x1) :
    SameBut w a (readReg x0 x1 x2 x3).2 := by
  refine SameBut.next ?_ hw h
  clear hw h
  unfold readReg
  repeat' first
    | with_reducible exact SameBut.refl _ _
    | with_reducible assumption
    | (extract_lets +onlyGivenNames z; first | (refine SameBut.cut (x := z) ?_ (fun _ => ?_) <;> [(unfold z; clear z); clear_value z]) | clear_value z)
    | with_reducible refine SameBut.ite _ _ _ _ _ (fun _ => ?_) (fun _ => ?_)
    | with_reducible refine modPage_keeps _ _ _ _ _ (by decide) ?_
    | with_reducible refine modFifo_keeps _ _ _ _ _ (by decide) ?_
    | with_reducible refine dbgSnap_keeps _ _ _ (by decide) ?_
    | with_reducible refine modFifo_keeps _ _ _ _ _ (by decide) ?_
    | dsimp only
    | split

theorem readReg_keeps_eq (w : List Part) (a : Core) (x0 : Rst) (x1 : Core) (x2 : Nat) (x3 : Nat)
    (y d) (e : readReg x0 x1 x2 x3 = (y, d)) (hw : [.rsPages, .st, .sched, .ras] ⊆ w) (h : SameBut w a x1) :
    SameBut w a d := by
  have := readReg_keeps w a x0 x1 x2 x3 hw h
  rw [e] at this
  exact this

theorem answerHtp_keeps (w : List Part) (a : Core) (x0 : Core) (x1 : PortEvent)
    (hw : [.io] ⊆ w) (h : SameBut w a x0) :
    SameBut w a (answerHtp x0 x1) := by
  refine SameBut.next ?_ hw h
  clear hw h
  unfold answerHtp
  repeat' first
    | with_reducible exact SameBut.refl _ _
    | with_reducible assumption
    | with_reducible refine SameBut.set_io _ _ _ _ (by decide) ?_

theorem htpRead_keeps (w : List Part) (a : Core) (x0 : Rst) (x1 : Core) (x2 : Nat) (x3 : Nat)
    (hw : [.io, .rsPages, .st, .sched, .ras] ⊆ w) (h : SameBut w a x1) :
    SameBut w a (htpRead x0 x1 x2 x3) := by
  refine SameBut.next ?_ hw h
  clear hw h
  unfold htpRead
  repeat' first
    | with_reducible exact SameBut.refl _ _
    | with_reducible assumption
    | (extract_lets +onlyGivenNames z; first | (refine SameBut.cut (x := z) ?_ (fun _ => ?_) <;> [(unfold z; clear z); clear_value z]) | (refine SameBut.cut (x := z.2) ?_ (fun _ => ?_) <;> [(unfold z; clear z); clear_value z]) | (refine SameBut.cut (x := z.1) ?_ (fun _ => ?_) <;> [(unfold z; clear z); clear_value z]) | clear_value z)
    | with_reducible refine SameBut.ite _ _ _ _ _ (fun _ => ?_) (fun _ => ?_)
    | with_reducible refine answerHtp_keeps _ _ _ _ (by decide) ?_
    | with_reducible refine readReg_keeps _ _ _ _ _ _ (by decide) ?_
    | with_reducible refine readReg_keeps_eq _ _ _ _ _ _ _ _ ‹_› (by decide) ?_
    | with_reducible refine SameBut.set_st _ _ _ _ (by decide) ?_

theorem errClear_keeps (w : List Part) (a : Core) (x0 : Core) (x1 : Nat)
    (hw : [.rsPages] ⊆ w) (h : SameBut w a x0) :
    SameBut w a (errClear x0 x1) := by
  refine SameBut.next ?_ hw h
  clear hw h
  unfold errClear
  repeat' first
    | with_reducible exact SameBut.refl _ _
    | with_reducible assumption
    | with_reducible refine modPage_keeps _ _ _ _ _ (by decide) ?_

theorem writeHdrReg_keeps (w : List Part) (a : Core) (x0 : Core) (x1 : Nat) (x2 : Nat) (x3 : Reg)
    (hw : [.io, .rsRegs, .rsShadow, .rsCnts, .rsPages, .rsDigest, .fe, .queues, .ctxs, .sqs, .isr, .de, .lanes, .st, .lehr, .mf, .cru, .sched, .marv, .tu, .shr, .strm, .pp, .det, .pmu, .trc, .dbg, .free] ⊆ w) (h : SameBut w a x0) :
    SameBut w a (writeHdrReg x0 x1 x2 x3) := by
  refine SameBut.next ?_ hw h
  clear hw h
  unfold writeHdrReg
  repeat' first
    | with_reducible exact SameBut.refl _ _
    | with_reducible assumption
    | (extract_lets +onlyGivenNames z; first | (refine SameBut.cut (x := z) ?_ (fun _ => ?_) <;> [(unfold z; clear z); clear_value z]) | clear_value z)
    | with_reducible refine SameBut.ite _ _ _ _ _ (fun _ => ?_) (fun _ => ?_)
    | with_reducible refine reportsCleared_keeps _ _ _ (by decide) ?_
    | with_reducible refine errClear_keeps _ _ _ _ (by decide) ?_
    | with_reducible refine modPage_keeps _ _ _ _ _ (by decide) ?_
    | with_reducible refine discardPage_keeps _ _ _ _ (by decide) ?_
    | with_reducible refine commitPage_keeps _ _ _ _ (by decide) ?_
    | with_reducible refine regSet_keeps _ _ _ _ _ _ (by decide) ?_
    | split

theorem writeRow_keeps (w : List Part) (a : Core) (x0 : Core) (x1 : Nat) (x2 : Nat) (x3 : RegRow) (x4 : Reg)
    (hw : [.rsRegs, .rsShadow, .rsPages] ⊆ w) (h : SameBut w a x0) :
    SameBut w a (writeRow x0 x1 x2 x3 x4) := by
  refine SameBut.next ?_ hw h
  unfold writeRow
  refine SameBut.ite _ _ _ _ _ (fun _ => ?_) (fun _ => regSet_keeps _ _ _ _ _ _ (by decide) (SameBut.refl _ _))
  exact modPage_keeps _ _ _ _ _ (by decide) (SameBut.set_shadow _ _ _ _ (by decide) (SameBut.refl _ _))

theorem writeOwn_keeps (w : List Part) (a : Core) (x0 : Core) (x1 : Nat) (x2 : Nat) (x3 : Option Reg) (x4 : Reg)
    (hw : [.rsRegs, .rsShadow, .rsPages] ⊆ w) (h : SameBut w a x0) :
    SameBut w a (writeOwn x0 x1 x2 x3 x4) := by
  refine SameBut.next ?_ hw h
  clear hw h
  unfold writeOwn
  repeat' first
    | with_reducible exact SameBut.refl _ _
    | with_reducible assumption
    | (extract_lets +onlyGivenNames z; first | (refine SameBut.cut (x := z) ?_ (fun _ => ?_) <;> [(unfold z; clear z); clear_value z]) | clear_value z)
    | with_reducible refine writeRow_keeps _ _ _ _ _ _ _ (by decide) ?_
    | split

theorem cqWrite_keeps (w : List Part) (a : Core) (x0 : Core) (x1 : Nat) (x2 : Reg) (x3 : Cq → Cq)
    (hw : [.rsPages, .cru] ⊆ w) (h : SameBut w a x0) :
    SameBut w a (cqWrite x0 x1 x2 x3) := by
  refine SameBut.next ?_ hw h
  clear hw h
  unfold cqWrite
  repeat' first
    | with_reducible exact SameBut.refl _ _
    | with_reducible assumption
    | (extract_lets +onlyGivenNames z; first | (refine SameBut.cut (x := z) ?_ (fun _ => ?_) <;> [(unfold z; clear z); clear_value z]) | clear_value z)
    | with_reducible refine SameBut.ite _ _ _ _ _ (fun _ => ?_) (fun _ => ?_)
    | with_reducible refine pageErr_keeps _ _ _ _ _ _ _ (by decide) ?_
    | with_reducible refine modCq_keeps _ _ _ _ _ (by decide) ?_

theorem writeCru_keeps (w : List Part) (a : Core) (x0 : Core) (x1 : Nat) (x2 : Reg) (d : Core)
    (e : writeCru x0 x1 x2 = some d) (hw : [.rsPages, .cru] ⊆ w) (h : SameBut w a x0) :
    SameBut w a d := by
  refine SameBut.next ?_ hw h
  clear hw h
  unfold writeCru at e
  repeat' first
    | (cases e)
    | with_reducible exact SameBut.refl _ _
    | with_reducible assumption
    | with_reducible refine writeCqCtrl_keeps _ _ _ _ (by decide) ?_
    | with_reducible refine cqWrite_keeps _ _ _ _ _ _ (by decide) ?_
    | split
    | (injection e with e; subst e)
    | dsimp only at e
    | split at e

theorem writeShr_keeps (w : List Part) (a : Core) (x0 : Core) (x1 : Nat) (x2 : Reg) (d : Core)
    (e : writeShr x0 x1 x2 = some d) (hw : [.rsPages, .shr] ⊆ w) (h : SameBut w a x0) :
    SameBut w a d := by
  refine SameBut.next ?_ hw h
  clear hw h
  unfold writeShr at e
  repeat' first
    | (cases e)
    | with_reducible exact SameBut.refl _ _
    | with_reducible assumption
    | with_reducible refine modGroup_keeps _ _ _ _ _ (by decide) ?_
    | with_reducible refine writeGrpCfg_keeps _ _ _ _ (by decide) ?_
    | with_reducible refine groupWrite_keeps _ _ _ _ _ _ (by decide) ?_
    | split
    | (injection e with e; subst e)
    | dsimp only at e
    | split at e

theorem writeMf_keeps (w : List Part) (a : Core) (x0 : Core) (x1 : Nat) (x2 : Option Reg) (x3 : Reg) (d : Core)
    (e : writeMf x0 x1 x2 x3 = some d) (hw : [.rsPages, .mf] ⊆ w) (h : SameBut w a x0) :
    SameBut w a d := by
  refine SameBut.next ?_ hw h
  clear hw h
  unfold writeMf at e
  repeat' first
    | (cases e)
    | with_reducible exact SameBut.refl _ _
    | with_reducible assumption
    | with_reducible refine writeRxqCtrl_keeps _ _ _ _ (by decide) ?_
    | with_reducible refine writeLandHi_keeps _ _ _ _ _ (by decide) ?_
    | with_reducible refine writeLandSize_keeps _ _ _ _ (by decide) ?_
    | split
    | (injection e with e; subst e)
    | dsimp only at e
    | split at e

theorem writeDbg_keeps (w : List Part) (a : Core) (x0 : Core) (x1 : Nat) (x2 : Reg) (d : Core)
    (e : writeDbg x0 x1 x2 = some d) (hw : [.io, .rsCnts, .rsPages, .queues, .sqs, .isr, .lanes, .st, .mf, .sched, .tu, .pp, .pmu, .trc, .dbg] ⊆ w) (h : SameBut w a x0) :
    SameBut w a d := by
  refine SameBut.next ?_ hw h
  unfold writeDbg at e
  split at e <;> cases e
  · exact writeHaltReq_keeps _ _ _ _ (by decide) (SameBut.refl _ _)
  · exact writeResume_keeps _ _ _ _ (by decide) (SameBut.refl _ _)
  · exact writeStep_keeps _ _ _ _ (by decide) (SameBut.refl _ _)
  · exact SameBut.set_dbg _ _ _ _ (by decide) (SameBut.refl _ _)
  · exact writeShapeHi_keeps _ _ _ _ (by decide) (SameBut.refl _ _)

theorem writeFe_keeps (w : List Part) (a : Core) (x0 : Core) (x1 : Nat) (x2 : Reg) (d : Core)
    (e : writeFe x0 x1 x2 = some d) (hw : [.io, .rsRegs, .rsPages, .fe, .pmu] ⊆ w) (h : SameBut w a x0) :
    SameBut w a d := by
  refine SameBut.next ?_ hw h
  clear hw h
  unfold writeFe at e
  repeat' first
    | (cases e)
    | with_reducible exact SameBut.refl _ _
    | with_reducible assumption
    | with_reducible refine feEnSet_keeps _ _ _ _ (by decide) ?_
    | with_reducible refine respHeadSet_keeps _ _ _ _ (by decide) ?_
    | with_reducible refine ringTailSet_keeps _ _ _ _ (by decide) ?_
    | split
    | (injection e with e; subst e)
    | dsimp only at e
    | split at e

theorem writeFifo_keeps (w : List Part) (a : Core) (x0 : Core) (x1 : Nat) (x2 : Nat) (x3 : Reg) (d : Core)
    (e : writeFifo x0 x1 x2 x3 = some d) (hw : [.sched, .ras] ⊆ w) (h : SameBut w a x0) :
    SameBut w a d := by
  refine SameBut.next ?_ hw h
  unfold writeFifo at e
  split at e <;> cases e <;> exact modFifo_keeps _ _ _ _ _ (by decide) (SameBut.refl _ _)

theorem writeRepro_keeps (w : List Part) (a : Core) (x0 : Core) (x1 : Reg)
    (hw : [.rsRegs, .rsPages, .det] ⊆ w) (h : SameBut w a x0) :
    SameBut w a (writeRepro x0 x1) := by
  refine SameBut.next ?_ hw h
  clear hw h
  unfold writeRepro
  repeat' first
    | with_reducible exact SameBut.refl _ _
    | with_reducible assumption
    | (extract_lets +onlyGivenNames z; first | (refine SameBut.cut (x := z) ?_ (fun _ => ?_) <;> [(unfold z; clear z); clear_value z]) | clear_value z)
    | with_reducible refine SameBut.ite _ _ _ _ _ (fun _ => ?_) (fun _ => ?_)
    | with_reducible refine regSet_keeps _ _ _ _ _ _ (by decide) ?_
    | with_reducible refine SameBut.set_det _ _ _ _ (by decide) ?_

theorem unitWrite_keeps (w : List Part) (a : Core) (x0 : Core) (x1 : Nat) (x2 : Nat) (x3 : Nat) (x4 : Nat) (x5 : Option Reg) (x6 : Reg) (d : Core)
    (e : unitWrite x0 x1 x2 x3 x4 x5 x6 = some d) (hw : [.io, .rsRegs, .rsCnts, .rsPages, .qsc, .fe, .queues, .ctxs, .sqs, .isr, .de, .lanes, .st, .mf, .cru, .sched, .tu, .shr, .strm, .tbl, .pp, .det, .ras, .pmu, .trc, .dbg, .free, .rstReq] ⊆ w) (h : SameBut w a x0) :
    SameBut w a d := by
  refine SameBut.next ?_ hw h
  clear hw h
  unfold unitWrite at e
  split at e
  · injection e with e; subst e; exact writeQuiesce_keeps _ _ _ _ (by decide) (SameBut.refl _ _)
  · injection e with e; subst e
    exact SameBut.ite _ _ _ _ _ (fun _ => SameBut.set_rstReq _ _ _ _ (by decide) (SameBut.refl _ _)) (fun _ => SameBut.refl _ _)
  · injection e with e; subst e; exact writeInj_keeps _ _ _ _ (by decide) (SameBut.refl _ _)
  · exact writeFifo_keeps _ _ _ _ _ _ _ e (by decide) (SameBut.refl _ _)
  · injection e with e; subst e; exact writeTrcCtrl_keeps _ _ _ _ (by decide) (SameBut.refl _ _)
  · injection e with e; subst e; exact writeTrcMark_keeps _ _ _ _ (by decide) (SameBut.refl _ _)
  · injection e with e; subst e; exact writePmuCmd_keeps _ _ _ _ (by decide) (SameBut.refl _ _)
  · injection e with e; subst e; exact writeUqSel_keeps _ _ _ _ (by decide) (SameBut.refl _ _)
  · exact writeDbg_keeps _ _ _ _ _ _ e (by decide) (SameBut.refl _ _)
  · exact writeFe_keeps _ _ _ _ _ _ e (by decide) (SameBut.refl _ _)
  · injection e with e; subst e; exact partEnSet_keeps _ _ _ _ _ (by decide) (SameBut.refl _ _)
  · injection e with e; subst e; exact objQuery_keeps _ _ _ _ (by decide) (regSet_keeps _ _ _ _ _ _ (by decide) (SameBut.refl _ _))
  · injection e with e; subst e; exact SameBut.set_st _ _ _ _ (by decide) (SameBut.refl _ _)
  · injection e with e; subst e; exact forceHi_keeps _ _ _ _ (by decide) (SameBut.refl _ _)
  · exact writeMf_keeps _ _ _ _ _ _ _ e (by decide) (SameBut.refl _ _)
  · exact writeCru_keeps _ _ _ _ _ _ e (by decide) (SameBut.refl _ _)
  · exact writeFifo_keeps _ _ _ _ _ _ _ e (by decide) (SameBut.refl _ _)
  · exact writeShr_keeps _ _ _ _ _ _ e (by decide) (SameBut.refl _ _)
  · injection e with e; subst e; exact writeEpochLoad_keeps _ _ _ _ (by decide) (SameBut.refl _ _)
  · injection e with e; subst e; exact writeTblCtrl_keeps _ _ _ _ (by decide) (SameBut.refl _ _)
  · injection e with e; subst e; exact writeWrst_keeps _ _ _ _ (by decide) (SameBut.refl _ _)
  · injection e with e; subst e; exact writeRepro_keeps _ _ _ _ (by decide) (SameBut.refl _ _)
  · injection e with e; subst e; exact writeLsCtrl_keeps _ _ _ _ (by decide) (SameBut.refl _ _)
  · cases e

theorem writeReg_keeps (w : List Part) (a : Core) (x0 : Core) (x1 : Nat) (x2 : Nat) (x3 : Reg)
    (hw : [.io, .rsRegs, .rsShadow, .rsCnts, .rsPages, .rsDigest, .qsc, .fe, .queues, .ctxs, .sqs, .isr, .de, .lanes, .st, .lehr, .mf, .cru, .sched, .marv, .tu, .shr, .strm, .tbl, .pp, .det, .ras, .pmu, .trc, .dbg, .free, .rstReq] ⊆ w) (h : SameBut w a x0) :
    SameBut w a (writeReg x0 x1 x2 x3) := by
  refine SameBut.next ?_ hw h
  clear hw h
  unfold writeReg
  split
  · exact SameBut.refl _ _
  refine SameBut.ite _ _ _ _ _ (fun _ => modPage_keeps _ _ _ _ _ (by decide) (SameBut.refl _ _)) (fun _ => ?_)
  extract_lets lo c
  have hc : SameBut [.io, .rsRegs, .rsShadow, .rsCnts, .rsPages, .rsDigest, .qsc, .fe, .queues, .ctxs, .sqs, .isr, .de, .lanes, .st, .lehr, .mf, .cru, .sched, .marv, .tu, .shr, .strm, .tbl, .pp, .det, .ras, .pmu, .trc, .dbg, .free, .rstReq] x0 c := modPage_keeps _ _ _ _ _ (by decide) (SameBut.refl _ _)
  clear_value c
  refine SameBut.ite _ _ _ _ _ (fun _ => writeHdrReg_keeps _ _ _ _ _ _ (by decide) hc) (fun _ => ?_)
  refine SameBut.ite _ _ _ _ _ (fun _ => pageErr_keeps _ _ _ _ _ _ _ (by decide) hc) (fun _ => ?_)
  exact SameBut.getD _ _ _ _ (fun d hd => unitWrite_keeps _ _ _ _ _ _ _ _ _ _ hd (by decide) hc)
    (writeOwn_keeps _ _ _ _ _ _ _ (by decide) hc)

theorem htpWrite_keeps (w : List Part) (a : Core) (x0 : Core) (x1 : Nat) (x2 : Nat) (x3 : BitVec 4) (x4 : Reg)
    (hw : [.io, .rsRegs, .rsShadow, .rsCnts, .rsPages, .rsDigest, .qsc, .fe, .queues, .ctxs, .sqs, .isr, .de, .lanes, .st, .lehr, .mf, .cru, .sched, .marv, .tu, .shr, .strm, .tbl, .pp, .det, .ras, .pmu, .trc, .dbg, .free, .rstReq] ⊆ w) (h : SameBut w a x0) :
    SameBut w a (htpWrite x0 x1 x2 x3 x4) := by
  refine SameBut.next ?_ hw h
  clear hw h
  unfold htpWrite
  repeat' first
    | with_reducible exact SameBut.refl _ _
    | with_reducible assumption
    | (extract_lets +onlyGivenNames z; first | (refine SameBut.cut (x := z) ?_ (fun _ => ?_) <;> [(unfold z; clear z); clear_value z]) | clear_value z)
    | with_reducible refine SameBut.ite _ _ _ _ _ (fun _ => ?_) (fun _ => ?_)
    | with_reducible refine answerHtp_keeps _ _ _ _ (by decide) ?_
    | with_reducible refine writeReg_keeps _ _ _ _ _ _ (by decide) ?_
    | with_reducible refine SameBut.set_st _ _ _ _ (by decide) ?_

end Sys2Proof.Machine
end

