-- ==== Sys2Proof/Laws/RegCmds.lean ====
section
/-! SUPPORT. What the operations of RegCmds.lean leave as it was. -/

set_option linter.unusedTactic false
set_option linter.unreachableTactic false
set_option linter.tactic.unusedName false

namespace Sys2Proof.Machine

theorem tapResult_keeps (w : List Part) (a : Core) (x0 : Core) (x1 : Reg) (x2 : Bool)
    (hw : [.dbg] ⊆ w) (h : SameBut w a x0) :
    SameBut w a (tapResult x0 x1 x2) := by
  refine SameBut.next ?_ hw h
  clear hw h
  unfold tapResult
  repeat' first
    | with_reducible exact SameBut.refl _ _
    | with_reducible assumption
    | with_reducible refine SameBut.set_dbg _ _ _ _ (by decide) ?_

theorem tapRead_keeps (w : List Part) (a : Core) (x0 : Rst) (x1 : Core) (x2 : Nat)
    (hw : [.rsPages, .st, .sched, .ras, .dbg] ⊆ w) (h : SameBut w a x1) :
    SameBut w a (tapRead x0 x1 x2) := by
  refine SameBut.next ?_ hw h
  clear hw h
  unfold tapRead
  repeat' first
    | with_reducible exact SameBut.refl _ _
    | with_reducible assumption
    | (extract_lets +onlyGivenNames z; first | (refine SameBut.cut (x := z) ?_ (fun _ => ?_) <;> [(unfold z; clear z); clear_value z]) | (refine SameBut.cut (x := z.2) ?_ (fun _ => ?_) <;> [(unfold z; clear z); clear_value z]) | (refine SameBut.cut (x := z.1) ?_ (fun _ => ?_) <;> [(unfold z; clear z); clear_value z]) | clear_value z)
    | with_reducible refine SameBut.ite _ _ _ _ _ (fun _ => ?_) (fun _ => ?_)
    | with_reducible refine readReg_keeps _ _ _ _ _ _ (by decide) ?_
    | with_reducible refine tapResult_keeps _ _ _ _ _ (by decide) ?_
    | with_reducible refine readReg_keeps_eq _ _ _ _ _ _ _ _ ‹_› (by decide) ?_

theorem tapWrite_keeps (w : List Part) (a : Core) (x0 : Core) (x1 : Nat) (x2 : Reg)
    (hw : [.io, .rsRegs, .rsShadow, .rsCnts, .rsPages, .rsDigest, .qsc, .fe, .queues, .ctxs, .sqs, .isr, .de, .lanes, .st, .lehr, .mf, .cru, .sched, .marv, .tu, .shr, .strm, .tbl, .pp, .det, .ras, .pmu, .trc, .dbg, .free, .rstReq] ⊆ w) (h : SameBut w a x0) :
    SameBut w a (tapWrite x0 x1 x2) := by
  refine SameBut.next ?_ hw h
  clear hw h
  unfold tapWrite
  repeat' first
    | with_reducible exact SameBut.refl _ _
    | with_reducible assumption
    | with_reducible refine SameBut.ite _ _ _ _ _ (fun _ => ?_) (fun _ => ?_)
    | with_reducible refine dbgRefuse_keeps _ _ _ _ (by decide) ?_
    | with_reducible refine writeReg_keeps _ _ _ _ _ _ (by decide) ?_
    | with_reducible refine tapResult_keeps _ _ _ _ _ (by decide) ?_

end Sys2Proof.Machine
end

