-- ==== Sys2Proof/Laws/Tbl.lean ====
section
/-! SUPPORT. The laws of sparse tables: what a key reads as after each operation, and that each keeps the canonical form. -/

namespace Sys2Proof.Machine

variable {α : Type}

@[simp] theorem tfind_nil (n : Nat) : tfind ([] : Tbl α) n = none := rfl

theorem tfind_tdel_self (t : Tbl α) (n : Nat) : tfind (tdel t n) n = none := by
  induction t with
  | nil => rfl
  | cons e t ih =>
    by_cases h : e.1 = n
    · simp [tdel, h] at ih ⊢; exact ih
    · simp [tdel, h, tfind] at ih ⊢; exact ih

theorem tfind_tdel_ne (t : Tbl α) {n m : Nat} (h : m ≠ n) : tfind (tdel t n) m = tfind t m := by
  induction t with
  | nil => rfl
  | cons e t ih =>
    obtain ⟨k, v⟩ := e
    by_cases hk : k = n
    · subst hk; simp [tdel, tfind, Ne.symm h] at ih ⊢; exact ih
    · simp only [tdel, List.filter_cons, decide_not, hk, decide_false, Bool.not_false, if_true, tfind] at ih ⊢
      split
      · rfl
      · exact ih

theorem tfind_tins_self (t : Tbl α) (n : Nat) (v : α) (h : tfind t n = none) : tfind (tins n v t) n = some v := by
  induction t with
  | nil => simp [tins, tfind]
  | cons e t ih =>
    obtain ⟨k, w⟩ := e
    by_cases hk : k = n
    · simp [tfind, hk] at h
    · simp only [tfind, hk, if_false] at h
      simp only [tins]
      split
      · simp [tfind]
      · simp [tfind, hk, ih h]

theorem tfind_tins_ne (t : Tbl α) {n m : Nat} (v : α) (h : m ≠ n) : tfind (tins n v t) m = tfind t m := by
  induction t with
  | nil => simp [tins, tfind, Ne.symm h]
  | cons e t ih =>
    obtain ⟨k, w⟩ := e
    simp only [tins]
    split
    · simp [tfind, Ne.symm h]
    · simp only [tfind]; split
      · rfl
      · exact ih

@[simp] theorem tfind_tput_self (t : Tbl α) (n : Nat) (v : α) : tfind (tput t n v) n = some v :=
  tfind_tins_self _ _ _ (tfind_tdel_self t n)

theorem tfind_tput_ne (t : Tbl α) {n m : Nat} (v : α) (h : m ≠ n) : tfind (tput t n v) m = tfind t m := by
  rw [tput, tfind_tins_ne _ _ h, tfind_tdel_ne _ h]

@[simp] theorem tget_tdel_self (t : Tbl α) (d : α) (n : Nat) : tget (tdel t n) d n = d := by simp [tget, tfind_tdel_self]

theorem tget_tdel_ne (t : Tbl α) (d : α) {n m : Nat} (h : m ≠ n) : tget (tdel t n) d m = tget t d m := by
  simp [tget, tfind_tdel_ne t h]

variable [DecidableEq α]

theorem tfind_tset_ne (t : Tbl α) (d : α) {n m : Nat} (v : α) (h : m ≠ n) : tfind (tset t d n v) m = tfind t m := by
  unfold tset; split
  · exact tfind_tdel_ne _ h
  · exact tfind_tput_ne _ _ h

@[simp] theorem tget_tset_self (t : Tbl α) (d : α) (n : Nat) (v : α) : tget (tset t d n v) d n = v := by
  unfold tset
  split
  · simp [*]
  · simp [tget, tfind_tins_self _ _ _ (tfind_tdel_self t n)]

theorem tget_tset_ne (t : Tbl α) (d : α) {n m : Nat} (v : α) (h : m ≠ n) : tget (tset t d n v) d m = tget t d m := by
  unfold tset
  split
  · exact tget_tdel_ne t d h
  · simp [tget, tfind_tins_ne _ _ h, tfind_tdel_ne t h]

@[simp] theorem tget_tmod_self (t : Tbl α) (d : α) (n : Nat) (f : α → α) : tget (tmod t d n f) d n = f (tget t d n) :=
  tget_tset_self _ _ _ _

theorem tget_tmod_ne (t : Tbl α) (d : α) {n m : Nat} (f : α → α) (h : m ≠ n) : tget (tmod t d n f) d m = tget t d m :=
  tget_tset_ne _ _ _ h

/-! ## The canonical form -/

theorem twf_iff (d : α) (t : Tbl α) : twf d t = true ↔ (∀ e ∈ t, e.2 ≠ d) ∧ (t.map (·.1)).Pairwise (· < ·) := by
  simp [twf]

theorem twf_nil (d : α) : twf d [] = true := rfl

theorem twf_tdel (d : α) (t : Tbl α) (n : Nat) (h : twf d t = true) : twf d (tdel t n) = true := by
  rw [twf_iff] at h ⊢
  refine ⟨fun e he => h.1 e (List.mem_filter.mp he).1, ?_⟩
  exact List.Pairwise.sublist (List.filter_sublist.map _) h.2

theorem mem_tins {t : Tbl α} {n : Nat} {v : α} {e : Nat × α} : e ∈ tins n v t ↔ e = (n, v) ∨ e ∈ t := by
  induction t with
  | nil => simp [tins]
  | cons x t ih =>
    simp only [tins]
    split
    · simp
    · simp [ih]; tauto

theorem pairwise_tins (t : Tbl α) (n : Nat) (v : α) (hn : ∀ e ∈ t, e.1 ≠ n) (h : (t.map (·.1)).Pairwise (· < ·)) :
    ((tins n v t).map (·.1)).Pairwise (· < ·) := by
  induction t with
  | nil => simp [tins]
  | cons x t ih =>
    simp only [List.map_cons, List.pairwise_cons] at h
    simp only [tins]
    split
    · rename_i hx
      simp only [List.map_cons, List.pairwise_cons]
      refine ⟨fun k hk => ?_, h⟩
      rcases List.mem_cons.mp hk with rfl | hk
      · exact hx
      · exact hx.trans (h.1 k hk)
    · rename_i hx
      simp only [List.map_cons, List.pairwise_cons]
      refine ⟨fun k hk => ?_, ih (fun e he => hn e (List.mem_cons_of_mem _ he)) h.2⟩
      obtain ⟨e, he, rfl⟩ := List.mem_map.mp hk
      rcases mem_tins.mp he with rfl | he
      · exact lt_of_le_of_ne (not_lt.mp hx) (hn x (List.mem_cons_self))
      · exact h.1 _ (List.mem_map_of_mem he)

theorem twf_tset (d : α) (t : Tbl α) (n : Nat) (v : α) (h : twf d t = true) : twf d (tset t d n v) = true := by
  unfold tset
  split
  · exact twf_tdel d t n h
  · rename_i hv
    have h' := (twf_iff d _).mp (twf_tdel d t n h)
    rw [twf_iff]
    refine ⟨fun e he => ?_, pairwise_tins _ _ _ (fun e he => ?_) h'.2⟩
    · rcases mem_tins.mp he with rfl | he
      · exact hv
      · exact h'.1 e he
    · simpa using (List.mem_filter.mp he).2

theorem twf_tmod (d : α) (t : Tbl α) (n : Nat) (f : α → α) (h : twf d t = true) : twf d (tmod t d n f) = true :=
  twf_tset d t n _ h

end Sys2Proof.Machine
end

