-- ==== Sys2Proof/Laws/State.lean ====
section
/-! SUPPORT. What each single update of the block's state leaves as it was, field by field, what it reads back, and what an
effect shows after the event messages of its step. -/

namespace Sys2Proof.Machine

/-! ## modQ -/

@[simp] theorem getQ_modQ_self (c : Core) (k : Nat) (f : Queue → Queue) : getQ (modQ c k f) k = f (getQ c k) :=
  tget_tmod_self _ _ _ _
theorem getQ_modQ_ne (c : Core) (k j : Nat) (f : Queue → Queue) (h : j ≠ k) : getQ (modQ c k f) j = getQ c j :=
  tget_tmod_ne _ _ _ h
@[simp] theorem modQ_io (c : Core) (k : Nat) (f : Queue → Queue) : (modQ c k f).io = c.io := rfl
@[simp] theorem modQ_bring (c : Core) (k : Nat) (f : Queue → Queue) : (modQ c k f).bring = c.bring := rfl
@[simp] theorem modQ_engs (c : Core) (k : Nat) (f : Queue → Queue) : (modQ c k f).engs = c.engs := rfl
@[simp] theorem modQ_lanesUp (c : Core) (k : Nat) (f : Queue → Queue) : (modQ c k f).lanesUp = c.lanesUp := rfl
@[simp] theorem modQ_sic (c : Core) (k : Nat) (f : Queue → Queue) : (modQ c k f).sic = c.sic := rfl
@[simp] theorem modQ_rs (c : Core) (k : Nat) (f : Queue → Queue) : (modQ c k f).rs = c.rs := rfl
@[simp] theorem modQ_qsc (c : Core) (k : Nat) (f : Queue → Queue) : (modQ c k f).qsc = c.qsc := rfl
@[simp] theorem modQ_fe (c : Core) (k : Nat) (f : Queue → Queue) : (modQ c k f).fe = c.fe := rfl
@[simp] theorem modQ_ctxs (c : Core) (k : Nat) (f : Queue → Queue) : (modQ c k f).ctxs = c.ctxs := rfl
@[simp] theorem modQ_sqs (c : Core) (k : Nat) (f : Queue → Queue) : (modQ c k f).sqs = c.sqs := rfl
@[simp] theorem modQ_gs (c : Core) (k : Nat) (f : Queue → Queue) : (modQ c k f).gs = c.gs := rfl
@[simp] theorem modQ_isr (c : Core) (k : Nat) (f : Queue → Queue) : (modQ c k f).isr = c.isr := rfl
@[simp] theorem modQ_de (c : Core) (k : Nat) (f : Queue → Queue) : (modQ c k f).de = c.de := rfl
@[simp] theorem modQ_lanes (c : Core) (k : Nat) (f : Queue → Queue) : (modQ c k f).lanes = c.lanes := rfl
@[simp] theorem modQ_st (c : Core) (k : Nat) (f : Queue → Queue) : (modQ c k f).st = c.st := rfl
@[simp] theorem modQ_lehr (c : Core) (k : Nat) (f : Queue → Queue) : (modQ c k f).lehr = c.lehr := rfl
@[simp] theorem modQ_mf (c : Core) (k : Nat) (f : Queue → Queue) : (modQ c k f).mf = c.mf := rfl
@[simp] theorem modQ_cru (c : Core) (k : Nat) (f : Queue → Queue) : (modQ c k f).cru = c.cru := rfl
@[simp] theorem modQ_sched (c : Core) (k : Nat) (f : Queue → Queue) : (modQ c k f).sched = c.sched := rfl
@[simp] theorem modQ_marv (c : Core) (k : Nat) (f : Queue → Queue) : (modQ c k f).marv = c.marv := rfl
@[simp] theorem modQ_tu (c : Core) (k : Nat) (f : Queue → Queue) : (modQ c k f).tu = c.tu := rfl
@[simp] theorem modQ_shr (c : Core) (k : Nat) (f : Queue → Queue) : (modQ c k f).shr = c.shr := rfl
@[simp] theorem modQ_lkp (c : Core) (k : Nat) (f : Queue → Queue) : (modQ c k f).lkp = c.lkp := rfl
@[simp] theorem modQ_strm (c : Core) (k : Nat) (f : Queue → Queue) : (modQ c k f).strm = c.strm := rfl
@[simp] theorem modQ_tbl (c : Core) (k : Nat) (f : Queue → Queue) : (modQ c k f).tbl = c.tbl := rfl
@[simp] theorem modQ_pp (c : Core) (k : Nat) (f : Queue → Queue) : (modQ c k f).pp = c.pp := rfl
@[simp] theorem modQ_det (c : Core) (k : Nat) (f : Queue → Queue) : (modQ c k f).det = c.det := rfl
@[simp] theorem modQ_ras (c : Core) (k : Nat) (f : Queue → Queue) : (modQ c k f).ras = c.ras := rfl
@[simp] theorem modQ_pmu (c : Core) (k : Nat) (f : Queue → Queue) : (modQ c k f).pmu = c.pmu := rfl
@[simp] theorem modQ_trc (c : Core) (k : Nat) (f : Queue → Queue) : (modQ c k f).trc = c.trc := rfl
@[simp] theorem modQ_dbg (c : Core) (k : Nat) (f : Queue → Queue) : (modQ c k f).dbg = c.dbg := rfl
@[simp] theorem modQ_tclk (c : Core) (k : Nat) (f : Queue → Queue) : (modQ c k f).tclk = c.tclk := rfl
@[simp] theorem modQ_free (c : Core) (k : Nat) (f : Queue → Queue) : (modQ c k f).free = c.free := rfl
@[simp] theorem modQ_rstReq (c : Core) (k : Nat) (f : Queue → Queue) : (modQ c k f).rstReq = c.rstReq := rfl
@[simp] theorem modQ_fatalReq (c : Core) (k : Nat) (f : Queue → Queue) : (modQ c k f).fatalReq = c.fatalReq := rfl
@[simp] theorem getCtx_modQ (c : Core) (k j : Nat) (f : Queue → Queue) : getCtx (modQ c k f) j = getCtx c j := rfl
@[simp] theorem getSq_modQ (c : Core) (k j : Nat) (f : Queue → Queue) : getSq (modQ c k f) j = getSq c j := rfl
@[simp] theorem getLane_modQ (c : Core) (k j : Nat) (f : Queue → Queue) : getLane (modQ c k f) j = getLane c j := rfl
@[simp] theorem getEng_modQ (c : Core) (k j : Nat) (f : Queue → Queue) : getEng (modQ c k f) j = getEng c j := rfl
@[simp] theorem getInst_modQ (c : Core) (k j : Nat) (f : Queue → Queue) : getInst (modQ c k f) j = getInst c j := rfl
@[simp] theorem getImg_modQ (c : Core) (k j : Nat) (f : Queue → Queue) : getImg (modQ c k f) j = getImg c j := rfl
@[simp] theorem getBlock_modQ (c : Core) (k j : Nat) (f : Queue → Queue) : getBlock (modQ c k f) j = getBlock c j := rfl
@[simp] theorem getObj_modQ (c : Core) (k j : Nat) (f : Queue → Queue) : getObj (modQ c k f) j = getObj c j := rfl
@[simp] theorem getRxq_modQ (c : Core) (k j : Nat) (f : Queue → Queue) : getRxq (modQ c k f) j = getRxq c j := rfl
@[simp] theorem getCq_modQ (c : Core) (k j : Nat) (f : Queue → Queue) : getCq (modQ c k f) j = getCq c j := rfl
@[simp] theorem getPeer_modQ (c : Core) (k j : Nat) (f : Queue → Queue) : getPeer (modQ c k f) j = getPeer c j := rfl
@[simp] theorem getStream_modQ (c : Core) (k j : Nat) (f : Queue → Queue) : getStream (modQ c k f) j = getStream c j := rfl
@[simp] theorem getPre_modQ (c : Core) (k j : Nat) (f : Queue → Queue) : getPre (modQ c k f) j = getPre c j := rfl
@[simp] theorem getSched_modQ (c : Core) (k j : Nat) (f : Queue → Queue) : getSched (modQ c k f) j = getSched c j := rfl
@[simp] theorem getGroup_modQ (c : Core) (k j : Nat) (f : Queue → Queue) : getGroup (modQ c k f) j = getGroup c j := rfl
@[simp] theorem getPage_modQ (c : Core) (k j : Nat) (f : Queue → Queue) : getPage (modQ c k f) j = getPage c j := rfl

/-! ## modCtx -/

@[simp] theorem getCtx_modCtx_self (c : Core) (k : Nat) (f : Ctx → Ctx) : getCtx (modCtx c k f) k = f (getCtx c k) :=
  tget_tmod_self _ _ _ _
theorem getCtx_modCtx_ne (c : Core) (k j : Nat) (f : Ctx → Ctx) (h : j ≠ k) : getCtx (modCtx c k f) j = getCtx c j :=
  tget_tmod_ne _ _ _ h
@[simp] theorem modCtx_io (c : Core) (k : Nat) (f : Ctx → Ctx) : (modCtx c k f).io = c.io := rfl
@[simp] theorem modCtx_bring (c : Core) (k : Nat) (f : Ctx → Ctx) : (modCtx c k f).bring = c.bring := rfl
@[simp] theorem modCtx_engs (c : Core) (k : Nat) (f : Ctx → Ctx) : (modCtx c k f).engs = c.engs := rfl
@[simp] theorem modCtx_lanesUp (c : Core) (k : Nat) (f : Ctx → Ctx) : (modCtx c k f).lanesUp = c.lanesUp := rfl
@[simp] theorem modCtx_sic (c : Core) (k : Nat) (f : Ctx → Ctx) : (modCtx c k f).sic = c.sic := rfl
@[simp] theorem modCtx_rs (c : Core) (k : Nat) (f : Ctx → Ctx) : (modCtx c k f).rs = c.rs := rfl
@[simp] theorem modCtx_qsc (c : Core) (k : Nat) (f : Ctx → Ctx) : (modCtx c k f).qsc = c.qsc := rfl
@[simp] theorem modCtx_fe (c : Core) (k : Nat) (f : Ctx → Ctx) : (modCtx c k f).fe = c.fe := rfl
@[simp] theorem modCtx_queues (c : Core) (k : Nat) (f : Ctx → Ctx) : (modCtx c k f).queues = c.queues := rfl
@[simp] theorem modCtx_sqs (c : Core) (k : Nat) (f : Ctx → Ctx) : (modCtx c k f).sqs = c.sqs := rfl
@[simp] theorem modCtx_gs (c : Core) (k : Nat) (f : Ctx → Ctx) : (modCtx c k f).gs = c.gs := rfl
@[simp] theorem modCtx_isr (c : Core) (k : Nat) (f : Ctx → Ctx) : (modCtx c k f).isr = c.isr := rfl
@[simp] theorem modCtx_de (c : Core) (k : Nat) (f : Ctx → Ctx) : (modCtx c k f).de = c.de := rfl
@[simp] theorem modCtx_lanes (c : Core) (k : Nat) (f : Ctx → Ctx) : (modCtx c k f).lanes = c.lanes := rfl
@[simp] theorem modCtx_st (c : Core) (k : Nat) (f : Ctx → Ctx) : (modCtx c k f).st = c.st := rfl
@[simp] theorem modCtx_lehr (c : Core) (k : Nat) (f : Ctx → Ctx) : (modCtx c k f).lehr = c.lehr := rfl
@[simp] theorem modCtx_mf (c : Core) (k : Nat) (f : Ctx → Ctx) : (modCtx c k f).mf = c.mf := rfl
@[simp] theorem modCtx_cru (c : Core) (k : Nat) (f : Ctx → Ctx) : (modCtx c k f).cru = c.cru := rfl
@[simp] theorem modCtx_sched (c : Core) (k : Nat) (f : Ctx → Ctx) : (modCtx c k f).sched = c.sched := rfl
@[simp] theorem modCtx_marv (c : Core) (k : Nat) (f : Ctx → Ctx) : (modCtx c k f).marv = c.marv := rfl
@[simp] theorem modCtx_tu (c : Core) (k : Nat) (f : Ctx → Ctx) : (modCtx c k f).tu = c.tu := rfl
@[simp] theorem modCtx_shr (c : Core) (k : Nat) (f : Ctx → Ctx) : (modCtx c k f).shr = c.shr := rfl
@[simp] theorem modCtx_lkp (c : Core) (k : Nat) (f : Ctx → Ctx) : (modCtx c k f).lkp = c.lkp := rfl
@[simp] theorem modCtx_strm (c : Core) (k : Nat) (f : Ctx → Ctx) : (modCtx c k f).strm = c.strm := rfl
@[simp] theorem modCtx_tbl (c : Core) (k : Nat) (f : Ctx → Ctx) : (modCtx c k f).tbl = c.tbl := rfl
@[simp] theorem modCtx_pp (c : Core) (k : Nat) (f : Ctx → Ctx) : (modCtx c k f).pp = c.pp := rfl
@[simp] theorem modCtx_det (c : Core) (k : Nat) (f : Ctx → Ctx) : (modCtx c k f).det = c.det := rfl
@[simp] theorem modCtx_ras (c : Core) (k : Nat) (f : Ctx → Ctx) : (modCtx c k f).ras = c.ras := rfl
@[simp] theorem modCtx_pmu (c : Core) (k : Nat) (f : Ctx → Ctx) : (modCtx c k f).pmu = c.pmu := rfl
@[simp] theorem modCtx_trc (c : Core) (k : Nat) (f : Ctx → Ctx) : (modCtx c k f).trc = c.trc := rfl
@[simp] theorem modCtx_dbg (c : Core) (k : Nat) (f : Ctx → Ctx) : (modCtx c k f).dbg = c.dbg := rfl
@[simp] theorem modCtx_tclk (c : Core) (k : Nat) (f : Ctx → Ctx) : (modCtx c k f).tclk = c.tclk := rfl
@[simp] theorem modCtx_free (c : Core) (k : Nat) (f : Ctx → Ctx) : (modCtx c k f).free = c.free := rfl
@[simp] theorem modCtx_rstReq (c : Core) (k : Nat) (f : Ctx → Ctx) : (modCtx c k f).rstReq = c.rstReq := rfl
@[simp] theorem modCtx_fatalReq (c : Core) (k : Nat) (f : Ctx → Ctx) : (modCtx c k f).fatalReq = c.fatalReq := rfl
@[simp] theorem getQ_modCtx (c : Core) (k j : Nat) (f : Ctx → Ctx) : getQ (modCtx c k f) j = getQ c j := rfl
@[simp] theorem getSq_modCtx (c : Core) (k j : Nat) (f : Ctx → Ctx) : getSq (modCtx c k f) j = getSq c j := rfl
@[simp] theorem getLane_modCtx (c : Core) (k j : Nat) (f : Ctx → Ctx) : getLane (modCtx c k f) j = getLane c j := rfl
@[simp] theorem getEng_modCtx (c : Core) (k j : Nat) (f : Ctx → Ctx) : getEng (modCtx c k f) j = getEng c j := rfl
@[simp] theorem getInst_modCtx (c : Core) (k j : Nat) (f : Ctx → Ctx) : getInst (modCtx c k f) j = getInst c j := rfl
@[simp] theorem getImg_modCtx (c : Core) (k j : Nat) (f : Ctx → Ctx) : getImg (modCtx c k f) j = getImg c j := rfl
@[simp] theorem getBlock_modCtx (c : Core) (k j : Nat) (f : Ctx → Ctx) : getBlock (modCtx c k f) j = getBlock c j := rfl
@[simp] theorem getObj_modCtx (c : Core) (k j : Nat) (f : Ctx → Ctx) : getObj (modCtx c k f) j = getObj c j := rfl
@[simp] theorem getRxq_modCtx (c : Core) (k j : Nat) (f : Ctx → Ctx) : getRxq (modCtx c k f) j = getRxq c j := rfl
@[simp] theorem getCq_modCtx (c : Core) (k j : Nat) (f : Ctx → Ctx) : getCq (modCtx c k f) j = getCq c j := rfl
@[simp] theorem getPeer_modCtx (c : Core) (k j : Nat) (f : Ctx → Ctx) : getPeer (modCtx c k f) j = getPeer c j := rfl
@[simp] theorem getStream_modCtx (c : Core) (k j : Nat) (f : Ctx → Ctx) : getStream (modCtx c k f) j = getStream c j := rfl
@[simp] theorem getPre_modCtx (c : Core) (k j : Nat) (f : Ctx → Ctx) : getPre (modCtx c k f) j = getPre c j := rfl
@[simp] theorem getSched_modCtx (c : Core) (k j : Nat) (f : Ctx → Ctx) : getSched (modCtx c k f) j = getSched c j := rfl
@[simp] theorem getGroup_modCtx (c : Core) (k j : Nat) (f : Ctx → Ctx) : getGroup (modCtx c k f) j = getGroup c j := rfl
@[simp] theorem getPage_modCtx (c : Core) (k j : Nat) (f : Ctx → Ctx) : getPage (modCtx c k f) j = getPage c j := rfl

/-! ## modSq -/

@[simp] theorem getSq_modSq_self (c : Core) (k : Nat) (f : Sq → Sq) : getSq (modSq c k f) k = f (getSq c k) :=
  tget_tmod_self _ _ _ _
theorem getSq_modSq_ne (c : Core) (k j : Nat) (f : Sq → Sq) (h : j ≠ k) : getSq (modSq c k f) j = getSq c j :=
  tget_tmod_ne _ _ _ h
@[simp] theorem modSq_io (c : Core) (k : Nat) (f : Sq → Sq) : (modSq c k f).io = c.io := rfl
@[simp] theorem modSq_bring (c : Core) (k : Nat) (f : Sq → Sq) : (modSq c k f).bring = c.bring := rfl
@[simp] theorem modSq_engs (c : Core) (k : Nat) (f : Sq → Sq) : (modSq c k f).engs = c.engs := rfl
@[simp] theorem modSq_lanesUp (c : Core) (k : Nat) (f : Sq → Sq) : (modSq c k f).lanesUp = c.lanesUp := rfl
@[simp] theorem modSq_sic (c : Core) (k : Nat) (f : Sq → Sq) : (modSq c k f).sic = c.sic := rfl
@[simp] theorem modSq_rs (c : Core) (k : Nat) (f : Sq → Sq) : (modSq c k f).rs = c.rs := rfl
@[simp] theorem modSq_qsc (c : Core) (k : Nat) (f : Sq → Sq) : (modSq c k f).qsc = c.qsc := rfl
@[simp] theorem modSq_fe (c : Core) (k : Nat) (f : Sq → Sq) : (modSq c k f).fe = c.fe := rfl
@[simp] theorem modSq_queues (c : Core) (k : Nat) (f : Sq → Sq) : (modSq c k f).queues = c.queues := rfl
@[simp] theorem modSq_ctxs (c : Core) (k : Nat) (f : Sq → Sq) : (modSq c k f).ctxs = c.ctxs := rfl
@[simp] theorem modSq_gs (c : Core) (k : Nat) (f : Sq → Sq) : (modSq c k f).gs = c.gs := rfl
@[simp] theorem modSq_isr (c : Core) (k : Nat) (f : Sq → Sq) : (modSq c k f).isr = c.isr := rfl
@[simp] theorem modSq_de (c : Core) (k : Nat) (f : Sq → Sq) : (modSq c k f).de = c.de := rfl
@[simp] theorem modSq_lanes (c : Core) (k : Nat) (f : Sq → Sq) : (modSq c k f).lanes = c.lanes := rfl
@[simp] theorem modSq_st (c : Core) (k : Nat) (f : Sq → Sq) : (modSq c k f).st = c.st := rfl
@[simp] theorem modSq_lehr (c : Core) (k : Nat) (f : Sq → Sq) : (modSq c k f).lehr = c.lehr := rfl
@[simp] theorem modSq_mf (c : Core) (k : Nat) (f : Sq → Sq) : (modSq c k f).mf = c.mf := rfl
@[simp] theorem modSq_cru (c : Core) (k : Nat) (f : Sq → Sq) : (modSq c k f).cru = c.cru := rfl
@[simp] theorem modSq_sched (c : Core) (k : Nat) (f : Sq → Sq) : (modSq c k f).sched = c.sched := rfl
@[simp] theorem modSq_marv (c : Core) (k : Nat) (f : Sq → Sq) : (modSq c k f).marv = c.marv := rfl
@[simp] theorem modSq_tu (c : Core) (k : Nat) (f : Sq → Sq) : (modSq c k f).tu = c.tu := rfl
@[simp] theorem modSq_shr (c : Core) (k : Nat) (f : Sq → Sq) : (modSq c k f).shr = c.shr := rfl
@[simp] theorem modSq_lkp (c : Core) (k : Nat) (f : Sq → Sq) : (modSq c k f).lkp = c.lkp := rfl
@[simp] theorem modSq_strm (c : Core) (k : Nat) (f : Sq → Sq) : (modSq c k f).strm = c.strm := rfl
@[simp] theorem modSq_tbl (c : Core) (k : Nat) (f : Sq → Sq) : (modSq c k f).tbl = c.tbl := rfl
@[simp] theorem modSq_pp (c : Core) (k : Nat) (f : Sq → Sq) : (modSq c k f).pp = c.pp := rfl
@[simp] theorem modSq_det (c : Core) (k : Nat) (f : Sq → Sq) : (modSq c k f).det = c.det := rfl
@[simp] theorem modSq_ras (c : Core) (k : Nat) (f : Sq → Sq) : (modSq c k f).ras = c.ras := rfl
@[simp] theorem modSq_pmu (c : Core) (k : Nat) (f : Sq → Sq) : (modSq c k f).pmu = c.pmu := rfl
@[simp] theorem modSq_trc (c : Core) (k : Nat) (f : Sq → Sq) : (modSq c k f).trc = c.trc := rfl
@[simp] theorem modSq_dbg (c : Core) (k : Nat) (f : Sq → Sq) : (modSq c k f).dbg = c.dbg := rfl
@[simp] theorem modSq_tclk (c : Core) (k : Nat) (f : Sq → Sq) : (modSq c k f).tclk = c.tclk := rfl
@[simp] theorem modSq_free (c : Core) (k : Nat) (f : Sq → Sq) : (modSq c k f).free = c.free := rfl
@[simp] theorem modSq_rstReq (c : Core) (k : Nat) (f : Sq → Sq) : (modSq c k f).rstReq = c.rstReq := rfl
@[simp] theorem modSq_fatalReq (c : Core) (k : Nat) (f : Sq → Sq) : (modSq c k f).fatalReq = c.fatalReq := rfl
@[simp] theorem getQ_modSq (c : Core) (k j : Nat) (f : Sq → Sq) : getQ (modSq c k f) j = getQ c j := rfl
@[simp] theorem getCtx_modSq (c : Core) (k j : Nat) (f : Sq → Sq) : getCtx (modSq c k f) j = getCtx c j := rfl
@[simp] theorem getLane_modSq (c : Core) (k j : Nat) (f : Sq → Sq) : getLane (modSq c k f) j = getLane c j := rfl
@[simp] theorem getEng_modSq (c : Core) (k j : Nat) (f : Sq → Sq) : getEng (modSq c k f) j = getEng c j := rfl
@[simp] theorem getInst_modSq (c : Core) (k j : Nat) (f : Sq → Sq) : getInst (modSq c k f) j = getInst c j := rfl
@[simp] theorem getImg_modSq (c : Core) (k j : Nat) (f : Sq → Sq) : getImg (modSq c k f) j = getImg c j := rfl
@[simp] theorem getBlock_modSq (c : Core) (k j : Nat) (f : Sq → Sq) : getBlock (modSq c k f) j = getBlock c j := rfl
@[simp] theorem getObj_modSq (c : Core) (k j : Nat) (f : Sq → Sq) : getObj (modSq c k f) j = getObj c j := rfl
@[simp] theorem getRxq_modSq (c : Core) (k j : Nat) (f : Sq → Sq) : getRxq (modSq c k f) j = getRxq c j := rfl
@[simp] theorem getCq_modSq (c : Core) (k j : Nat) (f : Sq → Sq) : getCq (modSq c k f) j = getCq c j := rfl
@[simp] theorem getPeer_modSq (c : Core) (k j : Nat) (f : Sq → Sq) : getPeer (modSq c k f) j = getPeer c j := rfl
@[simp] theorem getStream_modSq (c : Core) (k j : Nat) (f : Sq → Sq) : getStream (modSq c k f) j = getStream c j := rfl
@[simp] theorem getPre_modSq (c : Core) (k j : Nat) (f : Sq → Sq) : getPre (modSq c k f) j = getPre c j := rfl
@[simp] theorem getSched_modSq (c : Core) (k j : Nat) (f : Sq → Sq) : getSched (modSq c k f) j = getSched c j := rfl
@[simp] theorem getGroup_modSq (c : Core) (k j : Nat) (f : Sq → Sq) : getGroup (modSq c k f) j = getGroup c j := rfl
@[simp] theorem getPage_modSq (c : Core) (k j : Nat) (f : Sq → Sq) : getPage (modSq c k f) j = getPage c j := rfl

/-! ## modLane -/

@[simp] theorem getLane_modLane_self (c : Core) (k : Nat) (f : Lane → Lane) : getLane (modLane c k f) k = f (getLane c k) :=
  tget_tmod_self _ _ _ _
theorem getLane_modLane_ne (c : Core) (k j : Nat) (f : Lane → Lane) (h : j ≠ k) : getLane (modLane c k f) j = getLane c j :=
  tget_tmod_ne _ _ _ h
@[simp] theorem modLane_io (c : Core) (k : Nat) (f : Lane → Lane) : (modLane c k f).io = c.io := rfl
@[simp] theorem modLane_bring (c : Core) (k : Nat) (f : Lane → Lane) : (modLane c k f).bring = c.bring := rfl
@[simp] theorem modLane_engs (c : Core) (k : Nat) (f : Lane → Lane) : (modLane c k f).engs = c.engs := rfl
@[simp] theorem modLane_lanesUp (c : Core) (k : Nat) (f : Lane → Lane) : (modLane c k f).lanesUp = c.lanesUp := rfl
@[simp] theorem modLane_sic (c : Core) (k : Nat) (f : Lane → Lane) : (modLane c k f).sic = c.sic := rfl
@[simp] theorem modLane_rs (c : Core) (k : Nat) (f : Lane → Lane) : (modLane c k f).rs = c.rs := rfl
@[simp] theorem modLane_qsc (c : Core) (k : Nat) (f : Lane → Lane) : (modLane c k f).qsc = c.qsc := rfl
@[simp] theorem modLane_fe (c : Core) (k : Nat) (f : Lane → Lane) : (modLane c k f).fe = c.fe := rfl
@[simp] theorem modLane_queues (c : Core) (k : Nat) (f : Lane → Lane) : (modLane c k f).queues = c.queues := rfl
@[simp] theorem modLane_ctxs (c : Core) (k : Nat) (f : Lane → Lane) : (modLane c k f).ctxs = c.ctxs := rfl
@[simp] theorem modLane_sqs (c : Core) (k : Nat) (f : Lane → Lane) : (modLane c k f).sqs = c.sqs := rfl
@[simp] theorem modLane_gs (c : Core) (k : Nat) (f : Lane → Lane) : (modLane c k f).gs = c.gs := rfl
@[simp] theorem modLane_isr (c : Core) (k : Nat) (f : Lane → Lane) : (modLane c k f).isr = c.isr := rfl
@[simp] theorem modLane_de (c : Core) (k : Nat) (f : Lane → Lane) : (modLane c k f).de = c.de := rfl
@[simp] theorem modLane_st (c : Core) (k : Nat) (f : Lane → Lane) : (modLane c k f).st = c.st := rfl
@[simp] theorem modLane_lehr (c : Core) (k : Nat) (f : Lane → Lane) : (modLane c k f).lehr = c.lehr := rfl
@[simp] theorem modLane_mf (c : Core) (k : Nat) (f : Lane → Lane) : (modLane c k f).mf = c.mf := rfl
@[simp] theorem modLane_cru (c : Core) (k : Nat) (f : Lane → Lane) : (modLane c k f).cru = c.cru := rfl
@[simp] theorem modLane_sched (c : Core) (k : Nat) (f : Lane → Lane) : (modLane c k f).sched = c.sched := rfl
@[simp] theorem modLane_marv (c : Core) (k : Nat) (f : Lane → Lane) : (modLane c k f).marv = c.marv := rfl
@[simp] theorem modLane_tu (c : Core) (k : Nat) (f : Lane → Lane) : (modLane c k f).tu = c.tu := rfl
@[simp] theorem modLane_shr (c : Core) (k : Nat) (f : Lane → Lane) : (modLane c k f).shr = c.shr := rfl
@[simp] theorem modLane_lkp (c : Core) (k : Nat) (f : Lane → Lane) : (modLane c k f).lkp = c.lkp := rfl
@[simp] theorem modLane_strm (c : Core) (k : Nat) (f : Lane → Lane) : (modLane c k f).strm = c.strm := rfl
@[simp] theorem modLane_tbl (c : Core) (k : Nat) (f : Lane → Lane) : (modLane c k f).tbl = c.tbl := rfl
@[simp] theorem modLane_pp (c : Core) (k : Nat) (f : Lane → Lane) : (modLane c k f).pp = c.pp := rfl
@[simp] theorem modLane_det (c : Core) (k : Nat) (f : Lane → Lane) : (modLane c k f).det = c.det := rfl
@[simp] theorem modLane_ras (c : Core) (k : Nat) (f : Lane → Lane) : (modLane c k f).ras = c.ras := rfl
@[simp] theorem modLane_pmu (c : Core) (k : Nat) (f : Lane → Lane) : (modLane c k f).pmu = c.pmu := rfl
@[simp] theorem modLane_trc (c : Core) (k : Nat) (f : Lane → Lane) : (modLane c k f).trc = c.trc := rfl
@[simp] theorem modLane_dbg (c : Core) (k : Nat) (f : Lane → Lane) : (modLane c k f).dbg = c.dbg := rfl
@[simp] theorem modLane_tclk (c : Core) (k : Nat) (f : Lane → Lane) : (modLane c k f).tclk = c.tclk := rfl
@[simp] theorem modLane_free (c : Core) (k : Nat) (f : Lane → Lane) : (modLane c k f).free = c.free := rfl
@[simp] theorem modLane_rstReq (c : Core) (k : Nat) (f : Lane → Lane) : (modLane c k f).rstReq = c.rstReq := rfl
@[simp] theorem modLane_fatalReq (c : Core) (k : Nat) (f : Lane → Lane) : (modLane c k f).fatalReq = c.fatalReq := rfl
@[simp] theorem getQ_modLane (c : Core) (k j : Nat) (f : Lane → Lane) : getQ (modLane c k f) j = getQ c j := rfl
@[simp] theorem getCtx_modLane (c : Core) (k j : Nat) (f : Lane → Lane) : getCtx (modLane c k f) j = getCtx c j := rfl
@[simp] theorem getSq_modLane (c : Core) (k j : Nat) (f : Lane → Lane) : getSq (modLane c k f) j = getSq c j := rfl
@[simp] theorem getEng_modLane (c : Core) (k j : Nat) (f : Lane → Lane) : getEng (modLane c k f) j = getEng c j := rfl
@[simp] theorem getInst_modLane (c : Core) (k j : Nat) (f : Lane → Lane) : getInst (modLane c k f) j = getInst c j := rfl
@[simp] theorem getImg_modLane (c : Core) (k j : Nat) (f : Lane → Lane) : getImg (modLane c k f) j = getImg c j := rfl
@[simp] theorem getBlock_modLane (c : Core) (k j : Nat) (f : Lane → Lane) : getBlock (modLane c k f) j = getBlock c j := rfl
@[simp] theorem getObj_modLane (c : Core) (k j : Nat) (f : Lane → Lane) : getObj (modLane c k f) j = getObj c j := rfl
@[simp] theorem getRxq_modLane (c : Core) (k j : Nat) (f : Lane → Lane) : getRxq (modLane c k f) j = getRxq c j := rfl
@[simp] theorem getCq_modLane (c : Core) (k j : Nat) (f : Lane → Lane) : getCq (modLane c k f) j = getCq c j := rfl
@[simp] theorem getPeer_modLane (c : Core) (k j : Nat) (f : Lane → Lane) : getPeer (modLane c k f) j = getPeer c j := rfl
@[simp] theorem getStream_modLane (c : Core) (k j : Nat) (f : Lane → Lane) : getStream (modLane c k f) j = getStream c j := rfl
@[simp] theorem getPre_modLane (c : Core) (k j : Nat) (f : Lane → Lane) : getPre (modLane c k f) j = getPre c j := rfl
@[simp] theorem getSched_modLane (c : Core) (k j : Nat) (f : Lane → Lane) : getSched (modLane c k f) j = getSched c j := rfl
@[simp] theorem getGroup_modLane (c : Core) (k j : Nat) (f : Lane → Lane) : getGroup (modLane c k f) j = getGroup c j := rfl
@[simp] theorem getPage_modLane (c : Core) (k j : Nat) (f : Lane → Lane) : getPage (modLane c k f) j = getPage c j := rfl

/-! ## modEng -/

@[simp] theorem getEng_modEng_self (c : Core) (k : Nat) (f : Eng → Eng) : getEng (modEng c k f) k = f (getEng c k) :=
  tget_tmod_self _ _ _ _
theorem getEng_modEng_ne (c : Core) (k j : Nat) (f : Eng → Eng) (h : j ≠ k) : getEng (modEng c k f) j = getEng c j :=
  tget_tmod_ne _ _ _ h
@[simp] theorem modEng_io (c : Core) (k : Nat) (f : Eng → Eng) : (modEng c k f).io = c.io := rfl
@[simp] theorem modEng_bring (c : Core) (k : Nat) (f : Eng → Eng) : (modEng c k f).bring = c.bring := rfl
@[simp] theorem modEng_lanesUp (c : Core) (k : Nat) (f : Eng → Eng) : (modEng c k f).lanesUp = c.lanesUp := rfl
@[simp] theorem modEng_sic (c : Core) (k : Nat) (f : Eng → Eng) : (modEng c k f).sic = c.sic := rfl
@[simp] theorem modEng_rs (c : Core) (k : Nat) (f : Eng → Eng) : (modEng c k f).rs = c.rs := rfl
@[simp] theorem modEng_qsc (c : Core) (k : Nat) (f : Eng → Eng) : (modEng c k f).qsc = c.qsc := rfl
@[simp] theorem modEng_fe (c : Core) (k : Nat) (f : Eng → Eng) : (modEng c k f).fe = c.fe := rfl
@[simp] theorem modEng_queues (c : Core) (k : Nat) (f : Eng → Eng) : (modEng c k f).queues = c.queues := rfl
@[simp] theorem modEng_ctxs (c : Core) (k : Nat) (f : Eng → Eng) : (modEng c k f).ctxs = c.ctxs := rfl
@[simp] theorem modEng_sqs (c : Core) (k : Nat) (f : Eng → Eng) : (modEng c k f).sqs = c.sqs := rfl
@[simp] theorem modEng_gs (c : Core) (k : Nat) (f : Eng → Eng) : (modEng c k f).gs = c.gs := rfl
@[simp] theorem modEng_isr (c : Core) (k : Nat) (f : Eng → Eng) : (modEng c k f).isr = c.isr := rfl
@[simp] theorem modEng_de (c : Core) (k : Nat) (f : Eng → Eng) : (modEng c k f).de = c.de := rfl
@[simp] theorem modEng_lanes (c : Core) (k : Nat) (f : Eng → Eng) : (modEng c k f).lanes = c.lanes := rfl
@[simp] theorem modEng_st (c : Core) (k : Nat) (f : Eng → Eng) : (modEng c k f).st = c.st := rfl
@[simp] theorem modEng_lehr (c : Core) (k : Nat) (f : Eng → Eng) : (modEng c k f).lehr = c.lehr := rfl
@[simp] theorem modEng_mf (c : Core) (k : Nat) (f : Eng → Eng) : (modEng c k f).mf = c.mf := rfl
@[simp] theorem modEng_cru (c : Core) (k : Nat) (f : Eng → Eng) : (modEng c k f).cru = c.cru := rfl
@[simp] theorem modEng_sched (c : Core) (k : Nat) (f : Eng → Eng) : (modEng c k f).sched = c.sched := rfl
@[simp] theorem modEng_marv (c : Core) (k : Nat) (f : Eng → Eng) : (modEng c k f).marv = c.marv := rfl
@[simp] theorem modEng_tu (c : Core) (k : Nat) (f : Eng → Eng) : (modEng c k f).tu = c.tu := rfl
@[simp] theorem modEng_shr (c : Core) (k : Nat) (f : Eng → Eng) : (modEng c k f).shr = c.shr := rfl
@[simp] theorem modEng_lkp (c : Core) (k : Nat) (f : Eng → Eng) : (modEng c k f).lkp = c.lkp := rfl
@[simp] theorem modEng_strm (c : Core) (k : Nat) (f : Eng → Eng) : (modEng c k f).strm = c.strm := rfl
@[simp] theorem modEng_tbl (c : Core) (k : Nat) (f : Eng → Eng) : (modEng c k f).tbl = c.tbl := rfl
@[simp] theorem modEng_pp (c : Core) (k : Nat) (f : Eng → Eng) : (modEng c k f).pp = c.pp := rfl
@[simp] theorem modEng_det (c : Core) (k : Nat) (f : Eng → Eng) : (modEng c k f).det = c.det := rfl
@[simp] theorem modEng_ras (c : Core) (k : Nat) (f : Eng → Eng) : (modEng c k f).ras = c.ras := rfl
@[simp] theorem modEng_pmu (c : Core) (k : Nat) (f : Eng → Eng) : (modEng c k f).pmu = c.pmu := rfl
@[simp] theorem modEng_trc (c : Core) (k : Nat) (f : Eng → Eng) : (modEng c k f).trc = c.trc := rfl
@[simp] theorem modEng_dbg (c : Core) (k : Nat) (f : Eng → Eng) : (modEng c k f).dbg = c.dbg := rfl
@[simp] theorem modEng_tclk (c : Core) (k : Nat) (f : Eng → Eng) : (modEng c k f).tclk = c.tclk := rfl
@[simp] theorem modEng_free (c : Core) (k : Nat) (f : Eng → Eng) : (modEng c k f).free = c.free := rfl
@[simp] theorem modEng_rstReq (c : Core) (k : Nat) (f : Eng → Eng) : (modEng c k f).rstReq = c.rstReq := rfl
@[simp] theorem modEng_fatalReq (c : Core) (k : Nat) (f : Eng → Eng) : (modEng c k f).fatalReq = c.fatalReq := rfl
@[simp] theorem getQ_modEng (c : Core) (k j : Nat) (f : Eng → Eng) : getQ (modEng c k f) j = getQ c j := rfl
@[simp] theorem getCtx_modEng (c : Core) (k j : Nat) (f : Eng → Eng) : getCtx (modEng c k f) j = getCtx c j := rfl
@[simp] theorem getSq_modEng (c : Core) (k j : Nat) (f : Eng → Eng) : getSq (modEng c k f) j = getSq c j := rfl
@[simp] theorem getLane_modEng (c : Core) (k j : Nat) (f : Eng → Eng) : getLane (modEng c k f) j = getLane c j := rfl
@[simp] theorem getInst_modEng (c : Core) (k j : Nat) (f : Eng → Eng) : getInst (modEng c k f) j = getInst c j := rfl
@[simp] theorem getImg_modEng (c : Core) (k j : Nat) (f : Eng → Eng) : getImg (modEng c k f) j = getImg c j := rfl
@[simp] theorem getBlock_modEng (c : Core) (k j : Nat) (f : Eng → Eng) : getBlock (modEng c k f) j = getBlock c j := rfl
@[simp] theorem getObj_modEng (c : Core) (k j : Nat) (f : Eng → Eng) : getObj (modEng c k f) j = getObj c j := rfl
@[simp] theorem getRxq_modEng (c : Core) (k j : Nat) (f : Eng → Eng) : getRxq (modEng c k f) j = getRxq c j := rfl
@[simp] theorem getCq_modEng (c : Core) (k j : Nat) (f : Eng → Eng) : getCq (modEng c k f) j = getCq c j := rfl
@[simp] theorem getPeer_modEng (c : Core) (k j : Nat) (f : Eng → Eng) : getPeer (modEng c k f) j = getPeer c j := rfl
@[simp] theorem getStream_modEng (c : Core) (k j : Nat) (f : Eng → Eng) : getStream (modEng c k f) j = getStream c j := rfl
@[simp] theorem getPre_modEng (c : Core) (k j : Nat) (f : Eng → Eng) : getPre (modEng c k f) j = getPre c j := rfl
@[simp] theorem getSched_modEng (c : Core) (k j : Nat) (f : Eng → Eng) : getSched (modEng c k f) j = getSched c j := rfl
@[simp] theorem getGroup_modEng (c : Core) (k j : Nat) (f : Eng → Eng) : getGroup (modEng c k f) j = getGroup c j := rfl
@[simp] theorem getPage_modEng (c : Core) (k j : Nat) (f : Eng → Eng) : getPage (modEng c k f) j = getPage c j := rfl

/-! ## modInst -/

@[simp] theorem getInst_modInst_self (c : Core) (k : Nat) (f : Inst → Inst) : getInst (modInst c k f) k = f (getInst c k) :=
  tget_tmod_self _ _ _ _
theorem getInst_modInst_ne (c : Core) (k j : Nat) (f : Inst → Inst) (h : j ≠ k) : getInst (modInst c k f) j = getInst c j :=
  tget_tmod_ne _ _ _ h
@[simp] theorem modInst_io (c : Core) (k : Nat) (f : Inst → Inst) : (modInst c k f).io = c.io := rfl
@[simp] theorem modInst_bring (c : Core) (k : Nat) (f : Inst → Inst) : (modInst c k f).bring = c.bring := rfl
@[simp] theorem modInst_engs (c : Core) (k : Nat) (f : Inst → Inst) : (modInst c k f).engs = c.engs := rfl
@[simp] theorem modInst_lanesUp (c : Core) (k : Nat) (f : Inst → Inst) : (modInst c k f).lanesUp = c.lanesUp := rfl
@[simp] theorem modInst_sic (c : Core) (k : Nat) (f : Inst → Inst) : (modInst c k f).sic = c.sic := rfl
@[simp] theorem modInst_rs (c : Core) (k : Nat) (f : Inst → Inst) : (modInst c k f).rs = c.rs := rfl
@[simp] theorem modInst_qsc (c : Core) (k : Nat) (f : Inst → Inst) : (modInst c k f).qsc = c.qsc := rfl
@[simp] theorem modInst_fe (c : Core) (k : Nat) (f : Inst → Inst) : (modInst c k f).fe = c.fe := rfl
@[simp] theorem modInst_queues (c : Core) (k : Nat) (f : Inst → Inst) : (modInst c k f).queues = c.queues := rfl
@[simp] theorem modInst_ctxs (c : Core) (k : Nat) (f : Inst → Inst) : (modInst c k f).ctxs = c.ctxs := rfl
@[simp] theorem modInst_sqs (c : Core) (k : Nat) (f : Inst → Inst) : (modInst c k f).sqs = c.sqs := rfl
@[simp] theorem modInst_gs (c : Core) (k : Nat) (f : Inst → Inst) : (modInst c k f).gs = c.gs := rfl
@[simp] theorem modInst_de (c : Core) (k : Nat) (f : Inst → Inst) : (modInst c k f).de = c.de := rfl
@[simp] theorem modInst_lanes (c : Core) (k : Nat) (f : Inst → Inst) : (modInst c k f).lanes = c.lanes := rfl
@[simp] theorem modInst_st (c : Core) (k : Nat) (f : Inst → Inst) : (modInst c k f).st = c.st := rfl
@[simp] theorem modInst_lehr (c : Core) (k : Nat) (f : Inst → Inst) : (modInst c k f).lehr = c.lehr := rfl
@[simp] theorem modInst_mf (c : Core) (k : Nat) (f : Inst → Inst) : (modInst c k f).mf = c.mf := rfl
@[simp] theorem modInst_cru (c : Core) (k : Nat) (f : Inst → Inst) : (modInst c k f).cru = c.cru := rfl
@[simp] theorem modInst_sched (c : Core) (k : Nat) (f : Inst → Inst) : (modInst c k f).sched = c.sched := rfl
@[simp] theorem modInst_marv (c : Core) (k : Nat) (f : Inst → Inst) : (modInst c k f).marv = c.marv := rfl
@[simp] theorem modInst_tu (c : Core) (k : Nat) (f : Inst → Inst) : (modInst c k f).tu = c.tu := rfl
@[simp] theorem modInst_shr (c : Core) (k : Nat) (f : Inst → Inst) : (modInst c k f).shr = c.shr := rfl
@[simp] theorem modInst_lkp (c : Core) (k : Nat) (f : Inst → Inst) : (modInst c k f).lkp = c.lkp := rfl
@[simp] theorem modInst_strm (c : Core) (k : Nat) (f : Inst → Inst) : (modInst c k f).strm = c.strm := rfl
@[simp] theorem modInst_tbl (c : Core) (k : Nat) (f : Inst → Inst) : (modInst c k f).tbl = c.tbl := rfl
@[simp] theorem modInst_pp (c : Core) (k : Nat) (f : Inst → Inst) : (modInst c k f).pp = c.pp := rfl
@[simp] theorem modInst_det (c : Core) (k : Nat) (f : Inst → Inst) : (modInst c k f).det = c.det := rfl
@[simp] theorem modInst_ras (c : Core) (k : Nat) (f : Inst → Inst) : (modInst c k f).ras = c.ras := rfl
@[simp] theorem modInst_pmu (c : Core) (k : Nat) (f : Inst → Inst) : (modInst c k f).pmu = c.pmu := rfl
@[simp] theorem modInst_trc (c : Core) (k : Nat) (f : Inst → Inst) : (modInst c k f).trc = c.trc := rfl
@[simp] theorem modInst_dbg (c : Core) (k : Nat) (f : Inst → Inst) : (modInst c k f).dbg = c.dbg := rfl
@[simp] theorem modInst_tclk (c : Core) (k : Nat) (f : Inst → Inst) : (modInst c k f).tclk = c.tclk := rfl
@[simp] theorem modInst_free (c : Core) (k : Nat) (f : Inst → Inst) : (modInst c k f).free = c.free := rfl
@[simp] theorem modInst_rstReq (c : Core) (k : Nat) (f : Inst → Inst) : (modInst c k f).rstReq = c.rstReq := rfl
@[simp] theorem modInst_fatalReq (c : Core) (k : Nat) (f : Inst → Inst) : (modInst c k f).fatalReq = c.fatalReq := rfl
@[simp] theorem getQ_modInst (c : Core) (k j : Nat) (f : Inst → Inst) : getQ (modInst c k f) j = getQ c j := rfl
@[simp] theorem getCtx_modInst (c : Core) (k j : Nat) (f : Inst → Inst) : getCtx (modInst c k f) j = getCtx c j := rfl
@[simp] theorem getSq_modInst (c : Core) (k j : Nat) (f : Inst → Inst) : getSq (modInst c k f) j = getSq c j := rfl
@[simp] theorem getLane_modInst (c : Core) (k j : Nat) (f : Inst → Inst) : getLane (modInst c k f) j = getLane c j := rfl
@[simp] theorem getEng_modInst (c : Core) (k j : Nat) (f : Inst → Inst) : getEng (modInst c k f) j = getEng c j := rfl
@[simp] theorem getImg_modInst (c : Core) (k j : Nat) (f : Inst → Inst) : getImg (modInst c k f) j = getImg c j := rfl
@[simp] theorem getBlock_modInst (c : Core) (k j : Nat) (f : Inst → Inst) : getBlock (modInst c k f) j = getBlock c j := rfl
@[simp] theorem getObj_modInst (c : Core) (k j : Nat) (f : Inst → Inst) : getObj (modInst c k f) j = getObj c j := rfl
@[simp] theorem getRxq_modInst (c : Core) (k j : Nat) (f : Inst → Inst) : getRxq (modInst c k f) j = getRxq c j := rfl
@[simp] theorem getCq_modInst (c : Core) (k j : Nat) (f : Inst → Inst) : getCq (modInst c k f) j = getCq c j := rfl
@[simp] theorem getPeer_modInst (c : Core) (k j : Nat) (f : Inst → Inst) : getPeer (modInst c k f) j = getPeer c j := rfl
@[simp] theorem getStream_modInst (c : Core) (k j : Nat) (f : Inst → Inst) : getStream (modInst c k f) j = getStream c j := rfl
@[simp] theorem getPre_modInst (c : Core) (k j : Nat) (f : Inst → Inst) : getPre (modInst c k f) j = getPre c j := rfl
@[simp] theorem getSched_modInst (c : Core) (k j : Nat) (f : Inst → Inst) : getSched (modInst c k f) j = getSched c j := rfl
@[simp] theorem getGroup_modInst (c : Core) (k j : Nat) (f : Inst → Inst) : getGroup (modInst c k f) j = getGroup c j := rfl
@[simp] theorem getPage_modInst (c : Core) (k j : Nat) (f : Inst → Inst) : getPage (modInst c k f) j = getPage c j := rfl

/-! ## modImg -/

@[simp] theorem getImg_modImg_self (c : Core) (k : Nat) (f : Img → Img) : getImg (modImg c k f) k = f (getImg c k) :=
  tget_tmod_self _ _ _ _
theorem getImg_modImg_ne (c : Core) (k j : Nat) (f : Img → Img) (h : j ≠ k) : getImg (modImg c k f) j = getImg c j :=
  tget_tmod_ne _ _ _ h
@[simp] theorem modImg_io (c : Core) (k : Nat) (f : Img → Img) : (modImg c k f).io = c.io := rfl
@[simp] theorem modImg_bring (c : Core) (k : Nat) (f : Img → Img) : (modImg c k f).bring = c.bring := rfl
@[simp] theorem modImg_engs (c : Core) (k : Nat) (f : Img → Img) : (modImg c k f).engs = c.engs := rfl
@[simp] theorem modImg_lanesUp (c : Core) (k : Nat) (f : Img → Img) : (modImg c k f).lanesUp = c.lanesUp := rfl
@[simp] theorem modImg_sic (c : Core) (k : Nat) (f : Img → Img) : (modImg c k f).sic = c.sic := rfl
@[simp] theorem modImg_rs (c : Core) (k : Nat) (f : Img → Img) : (modImg c k f).rs = c.rs := rfl
@[simp] theorem modImg_qsc (c : Core) (k : Nat) (f : Img → Img) : (modImg c k f).qsc = c.qsc := rfl
@[simp] theorem modImg_fe (c : Core) (k : Nat) (f : Img → Img) : (modImg c k f).fe = c.fe := rfl
@[simp] theorem modImg_queues (c : Core) (k : Nat) (f : Img → Img) : (modImg c k f).queues = c.queues := rfl
@[simp] theorem modImg_ctxs (c : Core) (k : Nat) (f : Img → Img) : (modImg c k f).ctxs = c.ctxs := rfl
@[simp] theorem modImg_sqs (c : Core) (k : Nat) (f : Img → Img) : (modImg c k f).sqs = c.sqs := rfl
@[simp] theorem modImg_isr (c : Core) (k : Nat) (f : Img → Img) : (modImg c k f).isr = c.isr := rfl
@[simp] theorem modImg_de (c : Core) (k : Nat) (f : Img → Img) : (modImg c k f).de = c.de := rfl
@[simp] theorem modImg_lanes (c : Core) (k : Nat) (f : Img → Img) : (modImg c k f).lanes = c.lanes := rfl
@[simp] theorem modImg_st (c : Core) (k : Nat) (f : Img → Img) : (modImg c k f).st = c.st := rfl
@[simp] theorem modImg_lehr (c : Core) (k : Nat) (f : Img → Img) : (modImg c k f).lehr = c.lehr := rfl
@[simp] theorem modImg_mf (c : Core) (k : Nat) (f : Img → Img) : (modImg c k f).mf = c.mf := rfl
@[simp] theorem modImg_cru (c : Core) (k : Nat) (f : Img → Img) : (modImg c k f).cru = c.cru := rfl
@[simp] theorem modImg_sched (c : Core) (k : Nat) (f : Img → Img) : (modImg c k f).sched = c.sched := rfl
@[simp] theorem modImg_marv (c : Core) (k : Nat) (f : Img → Img) : (modImg c k f).marv = c.marv := rfl
@[simp] theorem modImg_tu (c : Core) (k : Nat) (f : Img → Img) : (modImg c k f).tu = c.tu := rfl
@[simp] theorem modImg_shr (c : Core) (k : Nat) (f : Img → Img) : (modImg c k f).shr = c.shr := rfl
@[simp] theorem modImg_lkp (c : Core) (k : Nat) (f : Img → Img) : (modImg c k f).lkp = c.lkp := rfl
@[simp] theorem modImg_strm (c : Core) (k : Nat) (f : Img → Img) : (modImg c k f).strm = c.strm := rfl
@[simp] theorem modImg_tbl (c : Core) (k : Nat) (f : Img → Img) : (modImg c k f).tbl = c.tbl := rfl
@[simp] theorem modImg_pp (c : Core) (k : Nat) (f : Img → Img) : (modImg c k f).pp = c.pp := rfl
@[simp] theorem modImg_det (c : Core) (k : Nat) (f : Img → Img) : (modImg c k f).det = c.det := rfl
@[simp] theorem modImg_ras (c : Core) (k : Nat) (f : Img → Img) : (modImg c k f).ras = c.ras := rfl
@[simp] theorem modImg_pmu (c : Core) (k : Nat) (f : Img → Img) : (modImg c k f).pmu = c.pmu := rfl
@[simp] theorem modImg_trc (c : Core) (k : Nat) (f : Img → Img) : (modImg c k f).trc = c.trc := rfl
@[simp] theorem modImg_dbg (c : Core) (k : Nat) (f : Img → Img) : (modImg c k f).dbg = c.dbg := rfl
@[simp] theorem modImg_tclk (c : Core) (k : Nat) (f : Img → Img) : (modImg c k f).tclk = c.tclk := rfl
@[simp] theorem modImg_free (c : Core) (k : Nat) (f : Img → Img) : (modImg c k f).free = c.free := rfl
@[simp] theorem modImg_rstReq (c : Core) (k : Nat) (f : Img → Img) : (modImg c k f).rstReq = c.rstReq := rfl
@[simp] theorem modImg_fatalReq (c : Core) (k : Nat) (f : Img → Img) : (modImg c k f).fatalReq = c.fatalReq := rfl
@[simp] theorem getQ_modImg (c : Core) (k j : Nat) (f : Img → Img) : getQ (modImg c k f) j = getQ c j := rfl
@[simp] theorem getCtx_modImg (c : Core) (k j : Nat) (f : Img → Img) : getCtx (modImg c k f) j = getCtx c j := rfl
@[simp] theorem getSq_modImg (c : Core) (k j : Nat) (f : Img → Img) : getSq (modImg c k f) j = getSq c j := rfl
@[simp] theorem getLane_modImg (c : Core) (k j : Nat) (f : Img → Img) : getLane (modImg c k f) j = getLane c j := rfl
@[simp] theorem getEng_modImg (c : Core) (k j : Nat) (f : Img → Img) : getEng (modImg c k f) j = getEng c j := rfl
@[simp] theorem getInst_modImg (c : Core) (k j : Nat) (f : Img → Img) : getInst (modImg c k f) j = getInst c j := rfl
@[simp] theorem getObj_modImg (c : Core) (k j : Nat) (f : Img → Img) : getObj (modImg c k f) j = getObj c j := rfl
@[simp] theorem getRxq_modImg (c : Core) (k j : Nat) (f : Img → Img) : getRxq (modImg c k f) j = getRxq c j := rfl
@[simp] theorem getCq_modImg (c : Core) (k j : Nat) (f : Img → Img) : getCq (modImg c k f) j = getCq c j := rfl
@[simp] theorem getPeer_modImg (c : Core) (k j : Nat) (f : Img → Img) : getPeer (modImg c k f) j = getPeer c j := rfl
@[simp] theorem getStream_modImg (c : Core) (k j : Nat) (f : Img → Img) : getStream (modImg c k f) j = getStream c j := rfl
@[simp] theorem getPre_modImg (c : Core) (k j : Nat) (f : Img → Img) : getPre (modImg c k f) j = getPre c j := rfl
@[simp] theorem getSched_modImg (c : Core) (k j : Nat) (f : Img → Img) : getSched (modImg c k f) j = getSched c j := rfl
@[simp] theorem getGroup_modImg (c : Core) (k j : Nat) (f : Img → Img) : getGroup (modImg c k f) j = getGroup c j := rfl
@[simp] theorem getPage_modImg (c : Core) (k j : Nat) (f : Img → Img) : getPage (modImg c k f) j = getPage c j := rfl

/-! ## modBlock -/

@[simp] theorem getBlock_modBlock_self (c : Core) (k : Nat) (f : TaskBlock → TaskBlock) : getBlock (modBlock c k f) k = f (getBlock c k) :=
  tget_tmod_self _ _ _ _
theorem getBlock_modBlock_ne (c : Core) (k j : Nat) (f : TaskBlock → TaskBlock) (h : j ≠ k) : getBlock (modBlock c k f) j = getBlock c j :=
  tget_tmod_ne _ _ _ h
@[simp] theorem modBlock_io (c : Core) (k : Nat) (f : TaskBlock → TaskBlock) : (modBlock c k f).io = c.io := rfl
@[simp] theorem modBlock_bring (c : Core) (k : Nat) (f : TaskBlock → TaskBlock) : (modBlock c k f).bring = c.bring := rfl
@[simp] theorem modBlock_engs (c : Core) (k : Nat) (f : TaskBlock → TaskBlock) : (modBlock c k f).engs = c.engs := rfl
@[simp] theorem modBlock_lanesUp (c : Core) (k : Nat) (f : TaskBlock → TaskBlock) : (modBlock c k f).lanesUp = c.lanesUp := rfl
@[simp] theorem modBlock_sic (c : Core) (k : Nat) (f : TaskBlock → TaskBlock) : (modBlock c k f).sic = c.sic := rfl
@[simp] theorem modBlock_rs (c : Core) (k : Nat) (f : TaskBlock → TaskBlock) : (modBlock c k f).rs = c.rs := rfl
@[simp] theorem modBlock_qsc (c : Core) (k : Nat) (f : TaskBlock → TaskBlock) : (modBlock c k f).qsc = c.qsc := rfl
@[simp] theorem modBlock_fe (c : Core) (k : Nat) (f : TaskBlock → TaskBlock) : (modBlock c k f).fe = c.fe := rfl
@[simp] theorem modBlock_queues (c : Core) (k : Nat) (f : TaskBlock → TaskBlock) : (modBlock c k f).queues = c.queues := rfl
@[simp] theorem modBlock_ctxs (c : Core) (k : Nat) (f : TaskBlock → TaskBlock) : (modBlock c k f).ctxs = c.ctxs := rfl
@[simp] theorem modBlock_sqs (c : Core) (k : Nat) (f : TaskBlock → TaskBlock) : (modBlock c k f).sqs = c.sqs := rfl
@[simp] theorem modBlock_isr (c : Core) (k : Nat) (f : TaskBlock → TaskBlock) : (modBlock c k f).isr = c.isr := rfl
@[simp] theorem modBlock_de (c : Core) (k : Nat) (f : TaskBlock → TaskBlock) : (modBlock c k f).de = c.de := rfl
@[simp] theorem modBlock_lanes (c : Core) (k : Nat) (f : TaskBlock → TaskBlock) : (modBlock c k f).lanes = c.lanes := rfl
@[simp] theorem modBlock_st (c : Core) (k : Nat) (f : TaskBlock → TaskBlock) : (modBlock c k f).st = c.st := rfl
@[simp] theorem modBlock_lehr (c : Core) (k : Nat) (f : TaskBlock → TaskBlock) : (modBlock c k f).lehr = c.lehr := rfl
@[simp] theorem modBlock_mf (c : Core) (k : Nat) (f : TaskBlock → TaskBlock) : (modBlock c k f).mf = c.mf := rfl
@[simp] theorem modBlock_cru (c : Core) (k : Nat) (f : TaskBlock → TaskBlock) : (modBlock c k f).cru = c.cru := rfl
@[simp] theorem modBlock_sched (c : Core) (k : Nat) (f : TaskBlock → TaskBlock) : (modBlock c k f).sched = c.sched := rfl
@[simp] theorem modBlock_marv (c : Core) (k : Nat) (f : TaskBlock → TaskBlock) : (modBlock c k f).marv = c.marv := rfl
@[simp] theorem modBlock_tu (c : Core) (k : Nat) (f : TaskBlock → TaskBlock) : (modBlock c k f).tu = c.tu := rfl
@[simp] theorem modBlock_shr (c : Core) (k : Nat) (f : TaskBlock → TaskBlock) : (modBlock c k f).shr = c.shr := rfl
@[simp] theorem modBlock_lkp (c : Core) (k : Nat) (f : TaskBlock → TaskBlock) : (modBlock c k f).lkp = c.lkp := rfl
@[simp] theorem modBlock_strm (c : Core) (k : Nat) (f : TaskBlock → TaskBlock) : (modBlock c k f).strm = c.strm := rfl
@[simp] theorem modBlock_tbl (c : Core) (k : Nat) (f : TaskBlock → TaskBlock) : (modBlock c k f).tbl = c.tbl := rfl
@[simp] theorem modBlock_pp (c : Core) (k : Nat) (f : TaskBlock → TaskBlock) : (modBlock c k f).pp = c.pp := rfl
@[simp] theorem modBlock_det (c : Core) (k : Nat) (f : TaskBlock → TaskBlock) : (modBlock c k f).det = c.det := rfl
@[simp] theorem modBlock_ras (c : Core) (k : Nat) (f : TaskBlock → TaskBlock) : (modBlock c k f).ras = c.ras := rfl
@[simp] theorem modBlock_pmu (c : Core) (k : Nat) (f : TaskBlock → TaskBlock) : (modBlock c k f).pmu = c.pmu := rfl
@[simp] theorem modBlock_trc (c : Core) (k : Nat) (f : TaskBlock → TaskBlock) : (modBlock c k f).trc = c.trc := rfl
@[simp] theorem modBlock_dbg (c : Core) (k : Nat) (f : TaskBlock → TaskBlock) : (modBlock c k f).dbg = c.dbg := rfl
@[simp] theorem modBlock_tclk (c : Core) (k : Nat) (f : TaskBlock → TaskBlock) : (modBlock c k f).tclk = c.tclk := rfl
@[simp] theorem modBlock_free (c : Core) (k : Nat) (f : TaskBlock → TaskBlock) : (modBlock c k f).free = c.free := rfl
@[simp] theorem modBlock_rstReq (c : Core) (k : Nat) (f : TaskBlock → TaskBlock) : (modBlock c k f).rstReq = c.rstReq := rfl
@[simp] theorem modBlock_fatalReq (c : Core) (k : Nat) (f : TaskBlock → TaskBlock) : (modBlock c k f).fatalReq = c.fatalReq := rfl
@[simp] theorem getQ_modBlock (c : Core) (k j : Nat) (f : TaskBlock → TaskBlock) : getQ (modBlock c k f) j = getQ c j := rfl
@[simp] theorem getCtx_modBlock (c : Core) (k j : Nat) (f : TaskBlock → TaskBlock) : getCtx (modBlock c k f) j = getCtx c j := rfl
@[simp] theorem getSq_modBlock (c : Core) (k j : Nat) (f : TaskBlock → TaskBlock) : getSq (modBlock c k f) j = getSq c j := rfl
@[simp] theorem getLane_modBlock (c : Core) (k j : Nat) (f : TaskBlock → TaskBlock) : getLane (modBlock c k f) j = getLane c j := rfl
@[simp] theorem getEng_modBlock (c : Core) (k j : Nat) (f : TaskBlock → TaskBlock) : getEng (modBlock c k f) j = getEng c j := rfl
@[simp] theorem getInst_modBlock (c : Core) (k j : Nat) (f : TaskBlock → TaskBlock) : getInst (modBlock c k f) j = getInst c j := rfl
@[simp] theorem getObj_modBlock (c : Core) (k j : Nat) (f : TaskBlock → TaskBlock) : getObj (modBlock c k f) j = getObj c j := rfl
@[simp] theorem getRxq_modBlock (c : Core) (k j : Nat) (f : TaskBlock → TaskBlock) : getRxq (modBlock c k f) j = getRxq c j := rfl
@[simp] theorem getCq_modBlock (c : Core) (k j : Nat) (f : TaskBlock → TaskBlock) : getCq (modBlock c k f) j = getCq c j := rfl
@[simp] theorem getPeer_modBlock (c : Core) (k j : Nat) (f : TaskBlock → TaskBlock) : getPeer (modBlock c k f) j = getPeer c j := rfl
@[simp] theorem getStream_modBlock (c : Core) (k j : Nat) (f : TaskBlock → TaskBlock) : getStream (modBlock c k f) j = getStream c j := rfl
@[simp] theorem getPre_modBlock (c : Core) (k j : Nat) (f : TaskBlock → TaskBlock) : getPre (modBlock c k f) j = getPre c j := rfl
@[simp] theorem getSched_modBlock (c : Core) (k j : Nat) (f : TaskBlock → TaskBlock) : getSched (modBlock c k f) j = getSched c j := rfl
@[simp] theorem getGroup_modBlock (c : Core) (k j : Nat) (f : TaskBlock → TaskBlock) : getGroup (modBlock c k f) j = getGroup c j := rfl
@[simp] theorem getPage_modBlock (c : Core) (k j : Nat) (f : TaskBlock → TaskBlock) : getPage (modBlock c k f) j = getPage c j := rfl

/-! ## modObj -/

@[simp] theorem getObj_modObj_self (c : Core) (k : Nat) (f : SyncObj → SyncObj) : getObj (modObj c k f) k = f (getObj c k) :=
  tget_tmod_self _ _ _ _
theorem getObj_modObj_ne (c : Core) (k j : Nat) (f : SyncObj → SyncObj) (h : j ≠ k) : getObj (modObj c k f) j = getObj c j :=
  tget_tmod_ne _ _ _ h
@[simp] theorem modObj_io (c : Core) (k : Nat) (f : SyncObj → SyncObj) : (modObj c k f).io = c.io := rfl
@[simp] theorem modObj_bring (c : Core) (k : Nat) (f : SyncObj → SyncObj) : (modObj c k f).bring = c.bring := rfl
@[simp] theorem modObj_engs (c : Core) (k : Nat) (f : SyncObj → SyncObj) : (modObj c k f).engs = c.engs := rfl
@[simp] theorem modObj_lanesUp (c : Core) (k : Nat) (f : SyncObj → SyncObj) : (modObj c k f).lanesUp = c.lanesUp := rfl
@[simp] theorem modObj_sic (c : Core) (k : Nat) (f : SyncObj → SyncObj) : (modObj c k f).sic = c.sic := rfl
@[simp] theorem modObj_rs (c : Core) (k : Nat) (f : SyncObj → SyncObj) : (modObj c k f).rs = c.rs := rfl
@[simp] theorem modObj_qsc (c : Core) (k : Nat) (f : SyncObj → SyncObj) : (modObj c k f).qsc = c.qsc := rfl
@[simp] theorem modObj_fe (c : Core) (k : Nat) (f : SyncObj → SyncObj) : (modObj c k f).fe = c.fe := rfl
@[simp] theorem modObj_queues (c : Core) (k : Nat) (f : SyncObj → SyncObj) : (modObj c k f).queues = c.queues := rfl
@[simp] theorem modObj_ctxs (c : Core) (k : Nat) (f : SyncObj → SyncObj) : (modObj c k f).ctxs = c.ctxs := rfl
@[simp] theorem modObj_sqs (c : Core) (k : Nat) (f : SyncObj → SyncObj) : (modObj c k f).sqs = c.sqs := rfl
@[simp] theorem modObj_gs (c : Core) (k : Nat) (f : SyncObj → SyncObj) : (modObj c k f).gs = c.gs := rfl
@[simp] theorem modObj_isr (c : Core) (k : Nat) (f : SyncObj → SyncObj) : (modObj c k f).isr = c.isr := rfl
@[simp] theorem modObj_de (c : Core) (k : Nat) (f : SyncObj → SyncObj) : (modObj c k f).de = c.de := rfl
@[simp] theorem modObj_lanes (c : Core) (k : Nat) (f : SyncObj → SyncObj) : (modObj c k f).lanes = c.lanes := rfl
@[simp] theorem modObj_lehr (c : Core) (k : Nat) (f : SyncObj → SyncObj) : (modObj c k f).lehr = c.lehr := rfl
@[simp] theorem modObj_mf (c : Core) (k : Nat) (f : SyncObj → SyncObj) : (modObj c k f).mf = c.mf := rfl
@[simp] theorem modObj_cru (c : Core) (k : Nat) (f : SyncObj → SyncObj) : (modObj c k f).cru = c.cru := rfl
@[simp] theorem modObj_sched (c : Core) (k : Nat) (f : SyncObj → SyncObj) : (modObj c k f).sched = c.sched := rfl
@[simp] theorem modObj_marv (c : Core) (k : Nat) (f : SyncObj → SyncObj) : (modObj c k f).marv = c.marv := rfl
@[simp] theorem modObj_tu (c : Core) (k : Nat) (f : SyncObj → SyncObj) : (modObj c k f).tu = c.tu := rfl
@[simp] theorem modObj_shr (c : Core) (k : Nat) (f : SyncObj → SyncObj) : (modObj c k f).shr = c.shr := rfl
@[simp] theorem modObj_lkp (c : Core) (k : Nat) (f : SyncObj → SyncObj) : (modObj c k f).lkp = c.lkp := rfl
@[simp] theorem modObj_strm (c : Core) (k : Nat) (f : SyncObj → SyncObj) : (modObj c k f).strm = c.strm := rfl
@[simp] theorem modObj_tbl (c : Core) (k : Nat) (f : SyncObj → SyncObj) : (modObj c k f).tbl = c.tbl := rfl
@[simp] theorem modObj_pp (c : Core) (k : Nat) (f : SyncObj → SyncObj) : (modObj c k f).pp = c.pp := rfl
@[simp] theorem modObj_det (c : Core) (k : Nat) (f : SyncObj → SyncObj) : (modObj c k f).det = c.det := rfl
@[simp] theorem modObj_ras (c : Core) (k : Nat) (f : SyncObj → SyncObj) : (modObj c k f).ras = c.ras := rfl
@[simp] theorem modObj_pmu (c : Core) (k : Nat) (f : SyncObj → SyncObj) : (modObj c k f).pmu = c.pmu := rfl
@[simp] theorem modObj_trc (c : Core) (k : Nat) (f : SyncObj → SyncObj) : (modObj c k f).trc = c.trc := rfl
@[simp] theorem modObj_dbg (c : Core) (k : Nat) (f : SyncObj → SyncObj) : (modObj c k f).dbg = c.dbg := rfl
@[simp] theorem modObj_tclk (c : Core) (k : Nat) (f : SyncObj → SyncObj) : (modObj c k f).tclk = c.tclk := rfl
@[simp] theorem modObj_free (c : Core) (k : Nat) (f : SyncObj → SyncObj) : (modObj c k f).free = c.free := rfl
@[simp] theorem modObj_rstReq (c : Core) (k : Nat) (f : SyncObj → SyncObj) : (modObj c k f).rstReq = c.rstReq := rfl
@[simp] theorem modObj_fatalReq (c : Core) (k : Nat) (f : SyncObj → SyncObj) : (modObj c k f).fatalReq = c.fatalReq := rfl
@[simp] theorem getQ_modObj (c : Core) (k j : Nat) (f : SyncObj → SyncObj) : getQ (modObj c k f) j = getQ c j := rfl
@[simp] theorem getCtx_modObj (c : Core) (k j : Nat) (f : SyncObj → SyncObj) : getCtx (modObj c k f) j = getCtx c j := rfl
@[simp] theorem getSq_modObj (c : Core) (k j : Nat) (f : SyncObj → SyncObj) : getSq (modObj c k f) j = getSq c j := rfl
@[simp] theorem getLane_modObj (c : Core) (k j : Nat) (f : SyncObj → SyncObj) : getLane (modObj c k f) j = getLane c j := rfl
@[simp] theorem getEng_modObj (c : Core) (k j : Nat) (f : SyncObj → SyncObj) : getEng (modObj c k f) j = getEng c j := rfl
@[simp] theorem getInst_modObj (c : Core) (k j : Nat) (f : SyncObj → SyncObj) : getInst (modObj c k f) j = getInst c j := rfl
@[simp] theorem getImg_modObj (c : Core) (k j : Nat) (f : SyncObj → SyncObj) : getImg (modObj c k f) j = getImg c j := rfl
@[simp] theorem getBlock_modObj (c : Core) (k j : Nat) (f : SyncObj → SyncObj) : getBlock (modObj c k f) j = getBlock c j := rfl
@[simp] theorem getRxq_modObj (c : Core) (k j : Nat) (f : SyncObj → SyncObj) : getRxq (modObj c k f) j = getRxq c j := rfl
@[simp] theorem getCq_modObj (c : Core) (k j : Nat) (f : SyncObj → SyncObj) : getCq (modObj c k f) j = getCq c j := rfl
@[simp] theorem getPeer_modObj (c : Core) (k j : Nat) (f : SyncObj → SyncObj) : getPeer (modObj c k f) j = getPeer c j := rfl
@[simp] theorem getStream_modObj (c : Core) (k j : Nat) (f : SyncObj → SyncObj) : getStream (modObj c k f) j = getStream c j := rfl
@[simp] theorem getPre_modObj (c : Core) (k j : Nat) (f : SyncObj → SyncObj) : getPre (modObj c k f) j = getPre c j := rfl
@[simp] theorem getSched_modObj (c : Core) (k j : Nat) (f : SyncObj → SyncObj) : getSched (modObj c k f) j = getSched c j := rfl
@[simp] theorem getGroup_modObj (c : Core) (k j : Nat) (f : SyncObj → SyncObj) : getGroup (modObj c k f) j = getGroup c j := rfl
@[simp] theorem getPage_modObj (c : Core) (k j : Nat) (f : SyncObj → SyncObj) : getPage (modObj c k f) j = getPage c j := rfl

/-! ## modRxq -/

@[simp] theorem getRxq_modRxq_self (c : Core) (k : Nat) (f : Rxq → Rxq) : getRxq (modRxq c k f) k = f (getRxq c k) :=
  tget_tmod_self _ _ _ _
theorem getRxq_modRxq_ne (c : Core) (k j : Nat) (f : Rxq → Rxq) (h : j ≠ k) : getRxq (modRxq c k f) j = getRxq c j :=
  tget_tmod_ne _ _ _ h
@[simp] theorem modRxq_io (c : Core) (k : Nat) (f : Rxq → Rxq) : (modRxq c k f).io = c.io := rfl
@[simp] theorem modRxq_bring (c : Core) (k : Nat) (f : Rxq → Rxq) : (modRxq c k f).bring = c.bring := rfl
@[simp] theorem modRxq_engs (c : Core) (k : Nat) (f : Rxq → Rxq) : (modRxq c k f).engs = c.engs := rfl
@[simp] theorem modRxq_lanesUp (c : Core) (k : Nat) (f : Rxq → Rxq) : (modRxq c k f).lanesUp = c.lanesUp := rfl
@[simp] theorem modRxq_sic (c : Core) (k : Nat) (f : Rxq → Rxq) : (modRxq c k f).sic = c.sic := rfl
@[simp] theorem modRxq_rs (c : Core) (k : Nat) (f : Rxq → Rxq) : (modRxq c k f).rs = c.rs := rfl
@[simp] theorem modRxq_qsc (c : Core) (k : Nat) (f : Rxq → Rxq) : (modRxq c k f).qsc = c.qsc := rfl
@[simp] theorem modRxq_fe (c : Core) (k : Nat) (f : Rxq → Rxq) : (modRxq c k f).fe = c.fe := rfl
@[simp] theorem modRxq_queues (c : Core) (k : Nat) (f : Rxq → Rxq) : (modRxq c k f).queues = c.queues := rfl
@[simp] theorem modRxq_ctxs (c : Core) (k : Nat) (f : Rxq → Rxq) : (modRxq c k f).ctxs = c.ctxs := rfl
@[simp] theorem modRxq_sqs (c : Core) (k : Nat) (f : Rxq → Rxq) : (modRxq c k f).sqs = c.sqs := rfl
@[simp] theorem modRxq_gs (c : Core) (k : Nat) (f : Rxq → Rxq) : (modRxq c k f).gs = c.gs := rfl
@[simp] theorem modRxq_isr (c : Core) (k : Nat) (f : Rxq → Rxq) : (modRxq c k f).isr = c.isr := rfl
@[simp] theorem modRxq_de (c : Core) (k : Nat) (f : Rxq → Rxq) : (modRxq c k f).de = c.de := rfl
@[simp] theorem modRxq_lanes (c : Core) (k : Nat) (f : Rxq → Rxq) : (modRxq c k f).lanes = c.lanes := rfl
@[simp] theorem modRxq_st (c : Core) (k : Nat) (f : Rxq → Rxq) : (modRxq c k f).st = c.st := rfl
@[simp] theorem modRxq_lehr (c : Core) (k : Nat) (f : Rxq → Rxq) : (modRxq c k f).lehr = c.lehr := rfl
@[simp] theorem modRxq_cru (c : Core) (k : Nat) (f : Rxq → Rxq) : (modRxq c k f).cru = c.cru := rfl
@[simp] theorem modRxq_sched (c : Core) (k : Nat) (f : Rxq → Rxq) : (modRxq c k f).sched = c.sched := rfl
@[simp] theorem modRxq_marv (c : Core) (k : Nat) (f : Rxq → Rxq) : (modRxq c k f).marv = c.marv := rfl
@[simp] theorem modRxq_tu (c : Core) (k : Nat) (f : Rxq → Rxq) : (modRxq c k f).tu = c.tu := rfl
@[simp] theorem modRxq_shr (c : Core) (k : Nat) (f : Rxq → Rxq) : (modRxq c k f).shr = c.shr := rfl
@[simp] theorem modRxq_lkp (c : Core) (k : Nat) (f : Rxq → Rxq) : (modRxq c k f).lkp = c.lkp := rfl
@[simp] theorem modRxq_strm (c : Core) (k : Nat) (f : Rxq → Rxq) : (modRxq c k f).strm = c.strm := rfl
@[simp] theorem modRxq_tbl (c : Core) (k : Nat) (f : Rxq → Rxq) : (modRxq c k f).tbl = c.tbl := rfl
@[simp] theorem modRxq_pp (c : Core) (k : Nat) (f : Rxq → Rxq) : (modRxq c k f).pp = c.pp := rfl
@[simp] theorem modRxq_det (c : Core) (k : Nat) (f : Rxq → Rxq) : (modRxq c k f).det = c.det := rfl
@[simp] theorem modRxq_ras (c : Core) (k : Nat) (f : Rxq → Rxq) : (modRxq c k f).ras = c.ras := rfl
@[simp] theorem modRxq_pmu (c : Core) (k : Nat) (f : Rxq → Rxq) : (modRxq c k f).pmu = c.pmu := rfl
@[simp] theorem modRxq_trc (c : Core) (k : Nat) (f : Rxq → Rxq) : (modRxq c k f).trc = c.trc := rfl
@[simp] theorem modRxq_dbg (c : Core) (k : Nat) (f : Rxq → Rxq) : (modRxq c k f).dbg = c.dbg := rfl
@[simp] theorem modRxq_tclk (c : Core) (k : Nat) (f : Rxq → Rxq) : (modRxq c k f).tclk = c.tclk := rfl
@[simp] theorem modRxq_free (c : Core) (k : Nat) (f : Rxq → Rxq) : (modRxq c k f).free = c.free := rfl
@[simp] theorem modRxq_rstReq (c : Core) (k : Nat) (f : Rxq → Rxq) : (modRxq c k f).rstReq = c.rstReq := rfl
@[simp] theorem modRxq_fatalReq (c : Core) (k : Nat) (f : Rxq → Rxq) : (modRxq c k f).fatalReq = c.fatalReq := rfl
@[simp] theorem getQ_modRxq (c : Core) (k j : Nat) (f : Rxq → Rxq) : getQ (modRxq c k f) j = getQ c j := rfl
@[simp] theorem getCtx_modRxq (c : Core) (k j : Nat) (f : Rxq → Rxq) : getCtx (modRxq c k f) j = getCtx c j := rfl
@[simp] theorem getSq_modRxq (c : Core) (k j : Nat) (f : Rxq → Rxq) : getSq (modRxq c k f) j = getSq c j := rfl
@[simp] theorem getLane_modRxq (c : Core) (k j : Nat) (f : Rxq → Rxq) : getLane (modRxq c k f) j = getLane c j := rfl
@[simp] theorem getEng_modRxq (c : Core) (k j : Nat) (f : Rxq → Rxq) : getEng (modRxq c k f) j = getEng c j := rfl
@[simp] theorem getInst_modRxq (c : Core) (k j : Nat) (f : Rxq → Rxq) : getInst (modRxq c k f) j = getInst c j := rfl
@[simp] theorem getImg_modRxq (c : Core) (k j : Nat) (f : Rxq → Rxq) : getImg (modRxq c k f) j = getImg c j := rfl
@[simp] theorem getBlock_modRxq (c : Core) (k j : Nat) (f : Rxq → Rxq) : getBlock (modRxq c k f) j = getBlock c j := rfl
@[simp] theorem getObj_modRxq (c : Core) (k j : Nat) (f : Rxq → Rxq) : getObj (modRxq c k f) j = getObj c j := rfl
@[simp] theorem getCq_modRxq (c : Core) (k j : Nat) (f : Rxq → Rxq) : getCq (modRxq c k f) j = getCq c j := rfl
@[simp] theorem getPeer_modRxq (c : Core) (k j : Nat) (f : Rxq → Rxq) : getPeer (modRxq c k f) j = getPeer c j := rfl
@[simp] theorem getStream_modRxq (c : Core) (k j : Nat) (f : Rxq → Rxq) : getStream (modRxq c k f) j = getStream c j := rfl
@[simp] theorem getPre_modRxq (c : Core) (k j : Nat) (f : Rxq → Rxq) : getPre (modRxq c k f) j = getPre c j := rfl
@[simp] theorem getSched_modRxq (c : Core) (k j : Nat) (f : Rxq → Rxq) : getSched (modRxq c k f) j = getSched c j := rfl
@[simp] theorem getGroup_modRxq (c : Core) (k j : Nat) (f : Rxq → Rxq) : getGroup (modRxq c k f) j = getGroup c j := rfl
@[simp] theorem getPage_modRxq (c : Core) (k j : Nat) (f : Rxq → Rxq) : getPage (modRxq c k f) j = getPage c j := rfl

/-! ## modCq -/

@[simp] theorem getCq_modCq_self (c : Core) (k : Nat) (f : Cq → Cq) : getCq (modCq c k f) k = f (getCq c k) :=
  tget_tmod_self _ _ _ _
theorem getCq_modCq_ne (c : Core) (k j : Nat) (f : Cq → Cq) (h : j ≠ k) : getCq (modCq c k f) j = getCq c j :=
  tget_tmod_ne _ _ _ h
@[simp] theorem modCq_io (c : Core) (k : Nat) (f : Cq → Cq) : (modCq c k f).io = c.io := rfl
@[simp] theorem modCq_bring (c : Core) (k : Nat) (f : Cq → Cq) : (modCq c k f).bring = c.bring := rfl
@[simp] theorem modCq_engs (c : Core) (k : Nat) (f : Cq → Cq) : (modCq c k f).engs = c.engs := rfl
@[simp] theorem modCq_lanesUp (c : Core) (k : Nat) (f : Cq → Cq) : (modCq c k f).lanesUp = c.lanesUp := rfl
@[simp] theorem modCq_sic (c : Core) (k : Nat) (f : Cq → Cq) : (modCq c k f).sic = c.sic := rfl
@[simp] theorem modCq_rs (c : Core) (k : Nat) (f : Cq → Cq) : (modCq c k f).rs = c.rs := rfl
@[simp] theorem modCq_qsc (c : Core) (k : Nat) (f : Cq → Cq) : (modCq c k f).qsc = c.qsc := rfl
@[simp] theorem modCq_fe (c : Core) (k : Nat) (f : Cq → Cq) : (modCq c k f).fe = c.fe := rfl
@[simp] theorem modCq_queues (c : Core) (k : Nat) (f : Cq → Cq) : (modCq c k f).queues = c.queues := rfl
@[simp] theorem modCq_ctxs (c : Core) (k : Nat) (f : Cq → Cq) : (modCq c k f).ctxs = c.ctxs := rfl
@[simp] theorem modCq_sqs (c : Core) (k : Nat) (f : Cq → Cq) : (modCq c k f).sqs = c.sqs := rfl
@[simp] theorem modCq_gs (c : Core) (k : Nat) (f : Cq → Cq) : (modCq c k f).gs = c.gs := rfl
@[simp] theorem modCq_isr (c : Core) (k : Nat) (f : Cq → Cq) : (modCq c k f).isr = c.isr := rfl
@[simp] theorem modCq_de (c : Core) (k : Nat) (f : Cq → Cq) : (modCq c k f).de = c.de := rfl
@[simp] theorem modCq_lanes (c : Core) (k : Nat) (f : Cq → Cq) : (modCq c k f).lanes = c.lanes := rfl
@[simp] theorem modCq_st (c : Core) (k : Nat) (f : Cq → Cq) : (modCq c k f).st = c.st := rfl
@[simp] theorem modCq_lehr (c : Core) (k : Nat) (f : Cq → Cq) : (modCq c k f).lehr = c.lehr := rfl
@[simp] theorem modCq_mf (c : Core) (k : Nat) (f : Cq → Cq) : (modCq c k f).mf = c.mf := rfl
@[simp] theorem modCq_sched (c : Core) (k : Nat) (f : Cq → Cq) : (modCq c k f).sched = c.sched := rfl
@[simp] theorem modCq_marv (c : Core) (k : Nat) (f : Cq → Cq) : (modCq c k f).marv = c.marv := rfl
@[simp] theorem modCq_tu (c : Core) (k : Nat) (f : Cq → Cq) : (modCq c k f).tu = c.tu := rfl
@[simp] theorem modCq_shr (c : Core) (k : Nat) (f : Cq → Cq) : (modCq c k f).shr = c.shr := rfl
@[simp] theorem modCq_lkp (c : Core) (k : Nat) (f : Cq → Cq) : (modCq c k f).lkp = c.lkp := rfl
@[simp] theorem modCq_strm (c : Core) (k : Nat) (f : Cq → Cq) : (modCq c k f).strm = c.strm := rfl
@[simp] theorem modCq_tbl (c : Core) (k : Nat) (f : Cq → Cq) : (modCq c k f).tbl = c.tbl := rfl
@[simp] theorem modCq_pp (c : Core) (k : Nat) (f : Cq → Cq) : (modCq c k f).pp = c.pp := rfl
@[simp] theorem modCq_det (c : Core) (k : Nat) (f : Cq → Cq) : (modCq c k f).det = c.det := rfl
@[simp] theorem modCq_ras (c : Core) (k : Nat) (f : Cq → Cq) : (modCq c k f).ras = c.ras := rfl
@[simp] theorem modCq_pmu (c : Core) (k : Nat) (f : Cq → Cq) : (modCq c k f).pmu = c.pmu := rfl
@[simp] theorem modCq_trc (c : Core) (k : Nat) (f : Cq → Cq) : (modCq c k f).trc = c.trc := rfl
@[simp] theorem modCq_dbg (c : Core) (k : Nat) (f : Cq → Cq) : (modCq c k f).dbg = c.dbg := rfl
@[simp] theorem modCq_tclk (c : Core) (k : Nat) (f : Cq → Cq) : (modCq c k f).tclk = c.tclk := rfl
@[simp] theorem modCq_free (c : Core) (k : Nat) (f : Cq → Cq) : (modCq c k f).free = c.free := rfl
@[simp] theorem modCq_rstReq (c : Core) (k : Nat) (f : Cq → Cq) : (modCq c k f).rstReq = c.rstReq := rfl
@[simp] theorem modCq_fatalReq (c : Core) (k : Nat) (f : Cq → Cq) : (modCq c k f).fatalReq = c.fatalReq := rfl
@[simp] theorem getQ_modCq (c : Core) (k j : Nat) (f : Cq → Cq) : getQ (modCq c k f) j = getQ c j := rfl
@[simp] theorem getCtx_modCq (c : Core) (k j : Nat) (f : Cq → Cq) : getCtx (modCq c k f) j = getCtx c j := rfl
@[simp] theorem getSq_modCq (c : Core) (k j : Nat) (f : Cq → Cq) : getSq (modCq c k f) j = getSq c j := rfl
@[simp] theorem getLane_modCq (c : Core) (k j : Nat) (f : Cq → Cq) : getLane (modCq c k f) j = getLane c j := rfl
@[simp] theorem getEng_modCq (c : Core) (k j : Nat) (f : Cq → Cq) : getEng (modCq c k f) j = getEng c j := rfl
@[simp] theorem getInst_modCq (c : Core) (k j : Nat) (f : Cq → Cq) : getInst (modCq c k f) j = getInst c j := rfl
@[simp] theorem getImg_modCq (c : Core) (k j : Nat) (f : Cq → Cq) : getImg (modCq c k f) j = getImg c j := rfl
@[simp] theorem getBlock_modCq (c : Core) (k j : Nat) (f : Cq → Cq) : getBlock (modCq c k f) j = getBlock c j := rfl
@[simp] theorem getObj_modCq (c : Core) (k j : Nat) (f : Cq → Cq) : getObj (modCq c k f) j = getObj c j := rfl
@[simp] theorem getRxq_modCq (c : Core) (k j : Nat) (f : Cq → Cq) : getRxq (modCq c k f) j = getRxq c j := rfl
@[simp] theorem getPeer_modCq (c : Core) (k j : Nat) (f : Cq → Cq) : getPeer (modCq c k f) j = getPeer c j := rfl
@[simp] theorem getStream_modCq (c : Core) (k j : Nat) (f : Cq → Cq) : getStream (modCq c k f) j = getStream c j := rfl
@[simp] theorem getPre_modCq (c : Core) (k j : Nat) (f : Cq → Cq) : getPre (modCq c k f) j = getPre c j := rfl
@[simp] theorem getSched_modCq (c : Core) (k j : Nat) (f : Cq → Cq) : getSched (modCq c k f) j = getSched c j := rfl
@[simp] theorem getGroup_modCq (c : Core) (k j : Nat) (f : Cq → Cq) : getGroup (modCq c k f) j = getGroup c j := rfl
@[simp] theorem getPage_modCq (c : Core) (k j : Nat) (f : Cq → Cq) : getPage (modCq c k f) j = getPage c j := rfl

/-! ## modPeer -/

@[simp] theorem getPeer_modPeer_self (c : Core) (k : Nat) (f : Partner → Partner) : getPeer (modPeer c k f) k = f (getPeer c k) :=
  tget_tmod_self _ _ _ _
theorem getPeer_modPeer_ne (c : Core) (k j : Nat) (f : Partner → Partner) (h : j ≠ k) : getPeer (modPeer c k f) j = getPeer c j :=
  tget_tmod_ne _ _ _ h
@[simp] theorem modPeer_io (c : Core) (k : Nat) (f : Partner → Partner) : (modPeer c k f).io = c.io := rfl
@[simp] theorem modPeer_bring (c : Core) (k : Nat) (f : Partner → Partner) : (modPeer c k f).bring = c.bring := rfl
@[simp] theorem modPeer_engs (c : Core) (k : Nat) (f : Partner → Partner) : (modPeer c k f).engs = c.engs := rfl
@[simp] theorem modPeer_lanesUp (c : Core) (k : Nat) (f : Partner → Partner) : (modPeer c k f).lanesUp = c.lanesUp := rfl
@[simp] theorem modPeer_sic (c : Core) (k : Nat) (f : Partner → Partner) : (modPeer c k f).sic = c.sic := rfl
@[simp] theorem modPeer_rs (c : Core) (k : Nat) (f : Partner → Partner) : (modPeer c k f).rs = c.rs := rfl
@[simp] theorem modPeer_qsc (c : Core) (k : Nat) (f : Partner → Partner) : (modPeer c k f).qsc = c.qsc := rfl
@[simp] theorem modPeer_fe (c : Core) (k : Nat) (f : Partner → Partner) : (modPeer c k f).fe = c.fe := rfl
@[simp] theorem modPeer_queues (c : Core) (k : Nat) (f : Partner → Partner) : (modPeer c k f).queues = c.queues := rfl
@[simp] theorem modPeer_ctxs (c : Core) (k : Nat) (f : Partner → Partner) : (modPeer c k f).ctxs = c.ctxs := rfl
@[simp] theorem modPeer_sqs (c : Core) (k : Nat) (f : Partner → Partner) : (modPeer c k f).sqs = c.sqs := rfl
@[simp] theorem modPeer_gs (c : Core) (k : Nat) (f : Partner → Partner) : (modPeer c k f).gs = c.gs := rfl
@[simp] theorem modPeer_isr (c : Core) (k : Nat) (f : Partner → Partner) : (modPeer c k f).isr = c.isr := rfl
@[simp] theorem modPeer_de (c : Core) (k : Nat) (f : Partner → Partner) : (modPeer c k f).de = c.de := rfl
@[simp] theorem modPeer_lanes (c : Core) (k : Nat) (f : Partner → Partner) : (modPeer c k f).lanes = c.lanes := rfl
@[simp] theorem modPeer_st (c : Core) (k : Nat) (f : Partner → Partner) : (modPeer c k f).st = c.st := rfl
@[simp] theorem modPeer_lehr (c : Core) (k : Nat) (f : Partner → Partner) : (modPeer c k f).lehr = c.lehr := rfl
@[simp] theorem modPeer_mf (c : Core) (k : Nat) (f : Partner → Partner) : (modPeer c k f).mf = c.mf := rfl
@[simp] theorem modPeer_cru (c : Core) (k : Nat) (f : Partner → Partner) : (modPeer c k f).cru = c.cru := rfl
@[simp] theorem modPeer_sched (c : Core) (k : Nat) (f : Partner → Partner) : (modPeer c k f).sched = c.sched := rfl
@[simp] theorem modPeer_marv (c : Core) (k : Nat) (f : Partner → Partner) : (modPeer c k f).marv = c.marv := rfl
@[simp] theorem modPeer_tu (c : Core) (k : Nat) (f : Partner → Partner) : (modPeer c k f).tu = c.tu := rfl
@[simp] theorem modPeer_shr (c : Core) (k : Nat) (f : Partner → Partner) : (modPeer c k f).shr = c.shr := rfl
@[simp] theorem modPeer_lkp (c : Core) (k : Nat) (f : Partner → Partner) : (modPeer c k f).lkp = c.lkp := rfl
@[simp] theorem modPeer_strm (c : Core) (k : Nat) (f : Partner → Partner) : (modPeer c k f).strm = c.strm := rfl
@[simp] theorem modPeer_tbl (c : Core) (k : Nat) (f : Partner → Partner) : (modPeer c k f).tbl = c.tbl := rfl
@[simp] theorem modPeer_det (c : Core) (k : Nat) (f : Partner → Partner) : (modPeer c k f).det = c.det := rfl
@[simp] theorem modPeer_ras (c : Core) (k : Nat) (f : Partner → Partner) : (modPeer c k f).ras = c.ras := rfl
@[simp] theorem modPeer_pmu (c : Core) (k : Nat) (f : Partner → Partner) : (modPeer c k f).pmu = c.pmu := rfl
@[simp] theorem modPeer_trc (c : Core) (k : Nat) (f : Partner → Partner) : (modPeer c k f).trc = c.trc := rfl
@[simp] theorem modPeer_dbg (c : Core) (k : Nat) (f : Partner → Partner) : (modPeer c k f).dbg = c.dbg := rfl
@[simp] theorem modPeer_tclk (c : Core) (k : Nat) (f : Partner → Partner) : (modPeer c k f).tclk = c.tclk := rfl
@[simp] theorem modPeer_free (c : Core) (k : Nat) (f : Partner → Partner) : (modPeer c k f).free = c.free := rfl
@[simp] theorem modPeer_rstReq (c : Core) (k : Nat) (f : Partner → Partner) : (modPeer c k f).rstReq = c.rstReq := rfl
@[simp] theorem modPeer_fatalReq (c : Core) (k : Nat) (f : Partner → Partner) : (modPeer c k f).fatalReq = c.fatalReq := rfl
@[simp] theorem getQ_modPeer (c : Core) (k j : Nat) (f : Partner → Partner) : getQ (modPeer c k f) j = getQ c j := rfl
@[simp] theorem getCtx_modPeer (c : Core) (k j : Nat) (f : Partner → Partner) : getCtx (modPeer c k f) j = getCtx c j := rfl
@[simp] theorem getSq_modPeer (c : Core) (k j : Nat) (f : Partner → Partner) : getSq (modPeer c k f) j = getSq c j := rfl
@[simp] theorem getLane_modPeer (c : Core) (k j : Nat) (f : Partner → Partner) : getLane (modPeer c k f) j = getLane c j := rfl
@[simp] theorem getEng_modPeer (c : Core) (k j : Nat) (f : Partner → Partner) : getEng (modPeer c k f) j = getEng c j := rfl
@[simp] theorem getInst_modPeer (c : Core) (k j : Nat) (f : Partner → Partner) : getInst (modPeer c k f) j = getInst c j := rfl
@[simp] theorem getImg_modPeer (c : Core) (k j : Nat) (f : Partner → Partner) : getImg (modPeer c k f) j = getImg c j := rfl
@[simp] theorem getBlock_modPeer (c : Core) (k j : Nat) (f : Partner → Partner) : getBlock (modPeer c k f) j = getBlock c j := rfl
@[simp] theorem getObj_modPeer (c : Core) (k j : Nat) (f : Partner → Partner) : getObj (modPeer c k f) j = getObj c j := rfl
@[simp] theorem getRxq_modPeer (c : Core) (k j : Nat) (f : Partner → Partner) : getRxq (modPeer c k f) j = getRxq c j := rfl
@[simp] theorem getCq_modPeer (c : Core) (k j : Nat) (f : Partner → Partner) : getCq (modPeer c k f) j = getCq c j := rfl
@[simp] theorem getStream_modPeer (c : Core) (k j : Nat) (f : Partner → Partner) : getStream (modPeer c k f) j = getStream c j := rfl
@[simp] theorem getPre_modPeer (c : Core) (k j : Nat) (f : Partner → Partner) : getPre (modPeer c k f) j = getPre c j := rfl
@[simp] theorem getSched_modPeer (c : Core) (k j : Nat) (f : Partner → Partner) : getSched (modPeer c k f) j = getSched c j := rfl
@[simp] theorem getGroup_modPeer (c : Core) (k j : Nat) (f : Partner → Partner) : getGroup (modPeer c k f) j = getGroup c j := rfl
@[simp] theorem getPage_modPeer (c : Core) (k j : Nat) (f : Partner → Partner) : getPage (modPeer c k f) j = getPage c j := rfl

/-! ## modStream -/

@[simp] theorem getStream_modStream_self (c : Core) (k : Nat) (f : Stream → Stream) : getStream (modStream c k f) k = f (getStream c k) :=
  tget_tmod_self _ _ _ _
theorem getStream_modStream_ne (c : Core) (k j : Nat) (f : Stream → Stream) (h : j ≠ k) : getStream (modStream c k f) j = getStream c j :=
  tget_tmod_ne _ _ _ h
@[simp] theorem modStream_io (c : Core) (k : Nat) (f : Stream → Stream) : (modStream c k f).io = c.io := rfl
@[simp] theorem modStream_bring (c : Core) (k : Nat) (f : Stream → Stream) : (modStream c k f).bring = c.bring := rfl
@[simp] theorem modStream_engs (c : Core) (k : Nat) (f : Stream → Stream) : (modStream c k f).engs = c.engs := rfl
@[simp] theorem modStream_lanesUp (c : Core) (k : Nat) (f : Stream → Stream) : (modStream c k f).lanesUp = c.lanesUp := rfl
@[simp] theorem modStream_sic (c : Core) (k : Nat) (f : Stream → Stream) : (modStream c k f).sic = c.sic := rfl
@[simp] theorem modStream_rs (c : Core) (k : Nat) (f : Stream → Stream) : (modStream c k f).rs = c.rs := rfl
@[simp] theorem modStream_qsc (c : Core) (k : Nat) (f : Stream → Stream) : (modStream c k f).qsc = c.qsc := rfl
@[simp] theorem modStream_fe (c : Core) (k : Nat) (f : Stream → Stream) : (modStream c k f).fe = c.fe := rfl
@[simp] theorem modStream_queues (c : Core) (k : Nat) (f : Stream → Stream) : (modStream c k f).queues = c.queues := rfl
@[simp] theorem modStream_ctxs (c : Core) (k : Nat) (f : Stream → Stream) : (modStream c k f).ctxs = c.ctxs := rfl
@[simp] theorem modStream_sqs (c : Core) (k : Nat) (f : Stream → Stream) : (modStream c k f).sqs = c.sqs := rfl
@[simp] theorem modStream_gs (c : Core) (k : Nat) (f : Stream → Stream) : (modStream c k f).gs = c.gs := rfl
@[simp] theorem modStream_isr (c : Core) (k : Nat) (f : Stream → Stream) : (modStream c k f).isr = c.isr := rfl
@[simp] theorem modStream_de (c : Core) (k : Nat) (f : Stream → Stream) : (modStream c k f).de = c.de := rfl
@[simp] theorem modStream_lanes (c : Core) (k : Nat) (f : Stream → Stream) : (modStream c k f).lanes = c.lanes := rfl
@[simp] theorem modStream_st (c : Core) (k : Nat) (f : Stream → Stream) : (modStream c k f).st = c.st := rfl
@[simp] theorem modStream_lehr (c : Core) (k : Nat) (f : Stream → Stream) : (modStream c k f).lehr = c.lehr := rfl
@[simp] theorem modStream_mf (c : Core) (k : Nat) (f : Stream → Stream) : (modStream c k f).mf = c.mf := rfl
@[simp] theorem modStream_cru (c : Core) (k : Nat) (f : Stream → Stream) : (modStream c k f).cru = c.cru := rfl
@[simp] theorem modStream_sched (c : Core) (k : Nat) (f : Stream → Stream) : (modStream c k f).sched = c.sched := rfl
@[simp] theorem modStream_marv (c : Core) (k : Nat) (f : Stream → Stream) : (modStream c k f).marv = c.marv := rfl
@[simp] theorem modStream_tu (c : Core) (k : Nat) (f : Stream → Stream) : (modStream c k f).tu = c.tu := rfl
@[simp] theorem modStream_shr (c : Core) (k : Nat) (f : Stream → Stream) : (modStream c k f).shr = c.shr := rfl
@[simp] theorem modStream_lkp (c : Core) (k : Nat) (f : Stream → Stream) : (modStream c k f).lkp = c.lkp := rfl
@[simp] theorem modStream_tbl (c : Core) (k : Nat) (f : Stream → Stream) : (modStream c k f).tbl = c.tbl := rfl
@[simp] theorem modStream_pp (c : Core) (k : Nat) (f : Stream → Stream) : (modStream c k f).pp = c.pp := rfl
@[simp] theorem modStream_det (c : Core) (k : Nat) (f : Stream → Stream) : (modStream c k f).det = c.det := rfl
@[simp] theorem modStream_ras (c : Core) (k : Nat) (f : Stream → Stream) : (modStream c k f).ras = c.ras := rfl
@[simp] theorem modStream_pmu (c : Core) (k : Nat) (f : Stream → Stream) : (modStream c k f).pmu = c.pmu := rfl
@[simp] theorem modStream_trc (c : Core) (k : Nat) (f : Stream → Stream) : (modStream c k f).trc = c.trc := rfl
@[simp] theorem modStream_dbg (c : Core) (k : Nat) (f : Stream → Stream) : (modStream c k f).dbg = c.dbg := rfl
@[simp] theorem modStream_tclk (c : Core) (k : Nat) (f : Stream → Stream) : (modStream c k f).tclk = c.tclk := rfl
@[simp] theorem modStream_free (c : Core) (k : Nat) (f : Stream → Stream) : (modStream c k f).free = c.free := rfl
@[simp] theorem modStream_rstReq (c : Core) (k : Nat) (f : Stream → Stream) : (modStream c k f).rstReq = c.rstReq := rfl
@[simp] theorem modStream_fatalReq (c : Core) (k : Nat) (f : Stream → Stream) : (modStream c k f).fatalReq = c.fatalReq := rfl
@[simp] theorem getQ_modStream (c : Core) (k j : Nat) (f : Stream → Stream) : getQ (modStream c k f) j = getQ c j := rfl
@[simp] theorem getCtx_modStream (c : Core) (k j : Nat) (f : Stream → Stream) : getCtx (modStream c k f) j = getCtx c j := rfl
@[simp] theorem getSq_modStream (c : Core) (k j : Nat) (f : Stream → Stream) : getSq (modStream c k f) j = getSq c j := rfl
@[simp] theorem getLane_modStream (c : Core) (k j : Nat) (f : Stream → Stream) : getLane (modStream c k f) j = getLane c j := rfl
@[simp] theorem getEng_modStream (c : Core) (k j : Nat) (f : Stream → Stream) : getEng (modStream c k f) j = getEng c j := rfl
@[simp] theorem getInst_modStream (c : Core) (k j : Nat) (f : Stream → Stream) : getInst (modStream c k f) j = getInst c j := rfl
@[simp] theorem getImg_modStream (c : Core) (k j : Nat) (f : Stream → Stream) : getImg (modStream c k f) j = getImg c j := rfl
@[simp] theorem getBlock_modStream (c : Core) (k j : Nat) (f : Stream → Stream) : getBlock (modStream c k f) j = getBlock c j := rfl
@[simp] theorem getObj_modStream (c : Core) (k j : Nat) (f : Stream → Stream) : getObj (modStream c k f) j = getObj c j := rfl
@[simp] theorem getRxq_modStream (c : Core) (k j : Nat) (f : Stream → Stream) : getRxq (modStream c k f) j = getRxq c j := rfl
@[simp] theorem getCq_modStream (c : Core) (k j : Nat) (f : Stream → Stream) : getCq (modStream c k f) j = getCq c j := rfl
@[simp] theorem getPeer_modStream (c : Core) (k j : Nat) (f : Stream → Stream) : getPeer (modStream c k f) j = getPeer c j := rfl
@[simp] theorem getPre_modStream (c : Core) (k j : Nat) (f : Stream → Stream) : getPre (modStream c k f) j = getPre c j := rfl
@[simp] theorem getSched_modStream (c : Core) (k j : Nat) (f : Stream → Stream) : getSched (modStream c k f) j = getSched c j := rfl
@[simp] theorem getGroup_modStream (c : Core) (k j : Nat) (f : Stream → Stream) : getGroup (modStream c k f) j = getGroup c j := rfl
@[simp] theorem getPage_modStream (c : Core) (k j : Nat) (f : Stream → Stream) : getPage (modStream c k f) j = getPage c j := rfl

/-! ## modPre -/

@[simp] theorem getPre_modPre_self (c : Core) (k : Nat) (f : Preempt → Preempt) : getPre (modPre c k f) k = f (getPre c k) :=
  tget_tmod_self _ _ _ _
theorem getPre_modPre_ne (c : Core) (k j : Nat) (f : Preempt → Preempt) (h : j ≠ k) : getPre (modPre c k f) j = getPre c j :=
  tget_tmod_ne _ _ _ h
@[simp] theorem modPre_io (c : Core) (k : Nat) (f : Preempt → Preempt) : (modPre c k f).io = c.io := rfl
@[simp] theorem modPre_bring (c : Core) (k : Nat) (f : Preempt → Preempt) : (modPre c k f).bring = c.bring := rfl
@[simp] theorem modPre_engs (c : Core) (k : Nat) (f : Preempt → Preempt) : (modPre c k f).engs = c.engs := rfl
@[simp] theorem modPre_lanesUp (c : Core) (k : Nat) (f : Preempt → Preempt) : (modPre c k f).lanesUp = c.lanesUp := rfl
@[simp] theorem modPre_sic (c : Core) (k : Nat) (f : Preempt → Preempt) : (modPre c k f).sic = c.sic := rfl
@[simp] theorem modPre_rs (c : Core) (k : Nat) (f : Preempt → Preempt) : (modPre c k f).rs = c.rs := rfl
@[simp] theorem modPre_qsc (c : Core) (k : Nat) (f : Preempt → Preempt) : (modPre c k f).qsc = c.qsc := rfl
@[simp] theorem modPre_fe (c : Core) (k : Nat) (f : Preempt → Preempt) : (modPre c k f).fe = c.fe := rfl
@[simp] theorem modPre_queues (c : Core) (k : Nat) (f : Preempt → Preempt) : (modPre c k f).queues = c.queues := rfl
@[simp] theorem modPre_ctxs (c : Core) (k : Nat) (f : Preempt → Preempt) : (modPre c k f).ctxs = c.ctxs := rfl
@[simp] theorem modPre_sqs (c : Core) (k : Nat) (f : Preempt → Preempt) : (modPre c k f).sqs = c.sqs := rfl
@[simp] theorem modPre_gs (c : Core) (k : Nat) (f : Preempt → Preempt) : (modPre c k f).gs = c.gs := rfl
@[simp] theorem modPre_isr (c : Core) (k : Nat) (f : Preempt → Preempt) : (modPre c k f).isr = c.isr := rfl
@[simp] theorem modPre_de (c : Core) (k : Nat) (f : Preempt → Preempt) : (modPre c k f).de = c.de := rfl
@[simp] theorem modPre_lanes (c : Core) (k : Nat) (f : Preempt → Preempt) : (modPre c k f).lanes = c.lanes := rfl
@[simp] theorem modPre_st (c : Core) (k : Nat) (f : Preempt → Preempt) : (modPre c k f).st = c.st := rfl
@[simp] theorem modPre_lehr (c : Core) (k : Nat) (f : Preempt → Preempt) : (modPre c k f).lehr = c.lehr := rfl
@[simp] theorem modPre_mf (c : Core) (k : Nat) (f : Preempt → Preempt) : (modPre c k f).mf = c.mf := rfl
@[simp] theorem modPre_cru (c : Core) (k : Nat) (f : Preempt → Preempt) : (modPre c k f).cru = c.cru := rfl
@[simp] theorem modPre_marv (c : Core) (k : Nat) (f : Preempt → Preempt) : (modPre c k f).marv = c.marv := rfl
@[simp] theorem modPre_tu (c : Core) (k : Nat) (f : Preempt → Preempt) : (modPre c k f).tu = c.tu := rfl
@[simp] theorem modPre_shr (c : Core) (k : Nat) (f : Preempt → Preempt) : (modPre c k f).shr = c.shr := rfl
@[simp] theorem modPre_lkp (c : Core) (k : Nat) (f : Preempt → Preempt) : (modPre c k f).lkp = c.lkp := rfl
@[simp] theorem modPre_strm (c : Core) (k : Nat) (f : Preempt → Preempt) : (modPre c k f).strm = c.strm := rfl
@[simp] theorem modPre_tbl (c : Core) (k : Nat) (f : Preempt → Preempt) : (modPre c k f).tbl = c.tbl := rfl
@[simp] theorem modPre_pp (c : Core) (k : Nat) (f : Preempt → Preempt) : (modPre c k f).pp = c.pp := rfl
@[simp] theorem modPre_det (c : Core) (k : Nat) (f : Preempt → Preempt) : (modPre c k f).det = c.det := rfl
@[simp] theorem modPre_ras (c : Core) (k : Nat) (f : Preempt → Preempt) : (modPre c k f).ras = c.ras := rfl
@[simp] theorem modPre_pmu (c : Core) (k : Nat) (f : Preempt → Preempt) : (modPre c k f).pmu = c.pmu := rfl
@[simp] theorem modPre_trc (c : Core) (k : Nat) (f : Preempt → Preempt) : (modPre c k f).trc = c.trc := rfl
@[simp] theorem modPre_dbg (c : Core) (k : Nat) (f : Preempt → Preempt) : (modPre c k f).dbg = c.dbg := rfl
@[simp] theorem modPre_tclk (c : Core) (k : Nat) (f : Preempt → Preempt) : (modPre c k f).tclk = c.tclk := rfl
@[simp] theorem modPre_free (c : Core) (k : Nat) (f : Preempt → Preempt) : (modPre c k f).free = c.free := rfl
@[simp] theorem modPre_rstReq (c : Core) (k : Nat) (f : Preempt → Preempt) : (modPre c k f).rstReq = c.rstReq := rfl
@[simp] theorem modPre_fatalReq (c : Core) (k : Nat) (f : Preempt → Preempt) : (modPre c k f).fatalReq = c.fatalReq := rfl
@[simp] theorem getQ_modPre (c : Core) (k j : Nat) (f : Preempt → Preempt) : getQ (modPre c k f) j = getQ c j := rfl
@[simp] theorem getCtx_modPre (c : Core) (k j : Nat) (f : Preempt → Preempt) : getCtx (modPre c k f) j = getCtx c j := rfl
@[simp] theorem getSq_modPre (c : Core) (k j : Nat) (f : Preempt → Preempt) : getSq (modPre c k f) j = getSq c j := rfl
@[simp] theorem getLane_modPre (c : Core) (k j : Nat) (f : Preempt → Preempt) : getLane (modPre c k f) j = getLane c j := rfl
@[simp] theorem getEng_modPre (c : Core) (k j : Nat) (f : Preempt → Preempt) : getEng (modPre c k f) j = getEng c j := rfl
@[simp] theorem getInst_modPre (c : Core) (k j : Nat) (f : Preempt → Preempt) : getInst (modPre c k f) j = getInst c j := rfl
@[simp] theorem getImg_modPre (c : Core) (k j : Nat) (f : Preempt → Preempt) : getImg (modPre c k f) j = getImg c j := rfl
@[simp] theorem getBlock_modPre (c : Core) (k j : Nat) (f : Preempt → Preempt) : getBlock (modPre c k f) j = getBlock c j := rfl
@[simp] theorem getObj_modPre (c : Core) (k j : Nat) (f : Preempt → Preempt) : getObj (modPre c k f) j = getObj c j := rfl
@[simp] theorem getRxq_modPre (c : Core) (k j : Nat) (f : Preempt → Preempt) : getRxq (modPre c k f) j = getRxq c j := rfl
@[simp] theorem getCq_modPre (c : Core) (k j : Nat) (f : Preempt → Preempt) : getCq (modPre c k f) j = getCq c j := rfl
@[simp] theorem getPeer_modPre (c : Core) (k j : Nat) (f : Preempt → Preempt) : getPeer (modPre c k f) j = getPeer c j := rfl
@[simp] theorem getStream_modPre (c : Core) (k j : Nat) (f : Preempt → Preempt) : getStream (modPre c k f) j = getStream c j := rfl
@[simp] theorem getGroup_modPre (c : Core) (k j : Nat) (f : Preempt → Preempt) : getGroup (modPre c k f) j = getGroup c j := rfl
@[simp] theorem getPage_modPre (c : Core) (k j : Nat) (f : Preempt → Preempt) : getPage (modPre c k f) j = getPage c j := rfl

/-! ## modSched -/

@[simp] theorem getSched_modSched_self (c : Core) (k : Nat) (f : SchedCtx → SchedCtx) : getSched (modSched c k f) k = f (getSched c k) :=
  tget_tmod_self _ _ _ _
theorem getSched_modSched_ne (c : Core) (k j : Nat) (f : SchedCtx → SchedCtx) (h : j ≠ k) : getSched (modSched c k f) j = getSched c j :=
  tget_tmod_ne _ _ _ h
@[simp] theorem modSched_io (c : Core) (k : Nat) (f : SchedCtx → SchedCtx) : (modSched c k f).io = c.io := rfl
@[simp] theorem modSched_bring (c : Core) (k : Nat) (f : SchedCtx → SchedCtx) : (modSched c k f).bring = c.bring := rfl
@[simp] theorem modSched_engs (c : Core) (k : Nat) (f : SchedCtx → SchedCtx) : (modSched c k f).engs = c.engs := rfl
@[simp] theorem modSched_lanesUp (c : Core) (k : Nat) (f : SchedCtx → SchedCtx) : (modSched c k f).lanesUp = c.lanesUp := rfl
@[simp] theorem modSched_sic (c : Core) (k : Nat) (f : SchedCtx → SchedCtx) : (modSched c k f).sic = c.sic := rfl
@[simp] theorem modSched_rs (c : Core) (k : Nat) (f : SchedCtx → SchedCtx) : (modSched c k f).rs = c.rs := rfl
@[simp] theorem modSched_qsc (c : Core) (k : Nat) (f : SchedCtx → SchedCtx) : (modSched c k f).qsc = c.qsc := rfl
@[simp] theorem modSched_fe (c : Core) (k : Nat) (f : SchedCtx → SchedCtx) : (modSched c k f).fe = c.fe := rfl
@[simp] theorem modSched_queues (c : Core) (k : Nat) (f : SchedCtx → SchedCtx) : (modSched c k f).queues = c.queues := rfl
@[simp] theorem modSched_ctxs (c : Core) (k : Nat) (f : SchedCtx → SchedCtx) : (modSched c k f).ctxs = c.ctxs := rfl
@[simp] theorem modSched_sqs (c : Core) (k : Nat) (f : SchedCtx → SchedCtx) : (modSched c k f).sqs = c.sqs := rfl
@[simp] theorem modSched_gs (c : Core) (k : Nat) (f : SchedCtx → SchedCtx) : (modSched c k f).gs = c.gs := rfl
@[simp] theorem modSched_isr (c : Core) (k : Nat) (f : SchedCtx → SchedCtx) : (modSched c k f).isr = c.isr := rfl
@[simp] theorem modSched_de (c : Core) (k : Nat) (f : SchedCtx → SchedCtx) : (modSched c k f).de = c.de := rfl
@[simp] theorem modSched_lanes (c : Core) (k : Nat) (f : SchedCtx → SchedCtx) : (modSched c k f).lanes = c.lanes := rfl
@[simp] theorem modSched_st (c : Core) (k : Nat) (f : SchedCtx → SchedCtx) : (modSched c k f).st = c.st := rfl
@[simp] theorem modSched_lehr (c : Core) (k : Nat) (f : SchedCtx → SchedCtx) : (modSched c k f).lehr = c.lehr := rfl
@[simp] theorem modSched_mf (c : Core) (k : Nat) (f : SchedCtx → SchedCtx) : (modSched c k f).mf = c.mf := rfl
@[simp] theorem modSched_cru (c : Core) (k : Nat) (f : SchedCtx → SchedCtx) : (modSched c k f).cru = c.cru := rfl
@[simp] theorem modSched_marv (c : Core) (k : Nat) (f : SchedCtx → SchedCtx) : (modSched c k f).marv = c.marv := rfl
@[simp] theorem modSched_tu (c : Core) (k : Nat) (f : SchedCtx → SchedCtx) : (modSched c k f).tu = c.tu := rfl
@[simp] theorem modSched_shr (c : Core) (k : Nat) (f : SchedCtx → SchedCtx) : (modSched c k f).shr = c.shr := rfl
@[simp] theorem modSched_lkp (c : Core) (k : Nat) (f : SchedCtx → SchedCtx) : (modSched c k f).lkp = c.lkp := rfl
@[simp] theorem modSched_strm (c : Core) (k : Nat) (f : SchedCtx → SchedCtx) : (modSched c k f).strm = c.strm := rfl
@[simp] theorem modSched_tbl (c : Core) (k : Nat) (f : SchedCtx → SchedCtx) : (modSched c k f).tbl = c.tbl := rfl
@[simp] theorem modSched_pp (c : Core) (k : Nat) (f : SchedCtx → SchedCtx) : (modSched c k f).pp = c.pp := rfl
@[simp] theorem modSched_det (c : Core) (k : Nat) (f : SchedCtx → SchedCtx) : (modSched c k f).det = c.det := rfl
@[simp] theorem modSched_ras (c : Core) (k : Nat) (f : SchedCtx → SchedCtx) : (modSched c k f).ras = c.ras := rfl
@[simp] theorem modSched_pmu (c : Core) (k : Nat) (f : SchedCtx → SchedCtx) : (modSched c k f).pmu = c.pmu := rfl
@[simp] theorem modSched_trc (c : Core) (k : Nat) (f : SchedCtx → SchedCtx) : (modSched c k f).trc = c.trc := rfl
@[simp] theorem modSched_dbg (c : Core) (k : Nat) (f : SchedCtx → SchedCtx) : (modSched c k f).dbg = c.dbg := rfl
@[simp] theorem modSched_tclk (c : Core) (k : Nat) (f : SchedCtx → SchedCtx) : (modSched c k f).tclk = c.tclk := rfl
@[simp] theorem modSched_free (c : Core) (k : Nat) (f : SchedCtx → SchedCtx) : (modSched c k f).free = c.free := rfl
@[simp] theorem modSched_rstReq (c : Core) (k : Nat) (f : SchedCtx → SchedCtx) : (modSched c k f).rstReq = c.rstReq := rfl
@[simp] theorem modSched_fatalReq (c : Core) (k : Nat) (f : SchedCtx → SchedCtx) : (modSched c k f).fatalReq = c.fatalReq := rfl
@[simp] theorem getQ_modSched (c : Core) (k j : Nat) (f : SchedCtx → SchedCtx) : getQ (modSched c k f) j = getQ c j := rfl
@[simp] theorem getCtx_modSched (c : Core) (k j : Nat) (f : SchedCtx → SchedCtx) : getCtx (modSched c k f) j = getCtx c j := rfl
@[simp] theorem getSq_modSched (c : Core) (k j : Nat) (f : SchedCtx → SchedCtx) : getSq (modSched c k f) j = getSq c j := rfl
@[simp] theorem getLane_modSched (c : Core) (k j : Nat) (f : SchedCtx → SchedCtx) : getLane (modSched c k f) j = getLane c j := rfl
@[simp] theorem getEng_modSched (c : Core) (k j : Nat) (f : SchedCtx → SchedCtx) : getEng (modSched c k f) j = getEng c j := rfl
@[simp] theorem getInst_modSched (c : Core) (k j : Nat) (f : SchedCtx → SchedCtx) : getInst (modSched c k f) j = getInst c j := rfl
@[simp] theorem getImg_modSched (c : Core) (k j : Nat) (f : SchedCtx → SchedCtx) : getImg (modSched c k f) j = getImg c j := rfl
@[simp] theorem getBlock_modSched (c : Core) (k j : Nat) (f : SchedCtx → SchedCtx) : getBlock (modSched c k f) j = getBlock c j := rfl
@[simp] theorem getObj_modSched (c : Core) (k j : Nat) (f : SchedCtx → SchedCtx) : getObj (modSched c k f) j = getObj c j := rfl
@[simp] theorem getRxq_modSched (c : Core) (k j : Nat) (f : SchedCtx → SchedCtx) : getRxq (modSched c k f) j = getRxq c j := rfl
@[simp] theorem getCq_modSched (c : Core) (k j : Nat) (f : SchedCtx → SchedCtx) : getCq (modSched c k f) j = getCq c j := rfl
@[simp] theorem getPeer_modSched (c : Core) (k j : Nat) (f : SchedCtx → SchedCtx) : getPeer (modSched c k f) j = getPeer c j := rfl
@[simp] theorem getStream_modSched (c : Core) (k j : Nat) (f : SchedCtx → SchedCtx) : getStream (modSched c k f) j = getStream c j := rfl
@[simp] theorem getGroup_modSched (c : Core) (k j : Nat) (f : SchedCtx → SchedCtx) : getGroup (modSched c k f) j = getGroup c j := rfl
@[simp] theorem getPage_modSched (c : Core) (k j : Nat) (f : SchedCtx → SchedCtx) : getPage (modSched c k f) j = getPage c j := rfl

/-! ## modGroup -/

@[simp] theorem getGroup_modGroup_self (c : Core) (k : Nat) (f : Group → Group) : getGroup (modGroup c k f) k = f (getGroup c k) :=
  tget_tmod_self _ _ _ _
theorem getGroup_modGroup_ne (c : Core) (k j : Nat) (f : Group → Group) (h : j ≠ k) : getGroup (modGroup c k f) j = getGroup c j :=
  tget_tmod_ne _ _ _ h
@[simp] theorem modGroup_io (c : Core) (k : Nat) (f : Group → Group) : (modGroup c k f).io = c.io := rfl
@[simp] theorem modGroup_bring (c : Core) (k : Nat) (f : Group → Group) : (modGroup c k f).bring = c.bring := rfl
@[simp] theorem modGroup_engs (c : Core) (k : Nat) (f : Group → Group) : (modGroup c k f).engs = c.engs := rfl
@[simp] theorem modGroup_lanesUp (c : Core) (k : Nat) (f : Group → Group) : (modGroup c k f).lanesUp = c.lanesUp := rfl
@[simp] theorem modGroup_sic (c : Core) (k : Nat) (f : Group → Group) : (modGroup c k f).sic = c.sic := rfl
@[simp] theorem modGroup_rs (c : Core) (k : Nat) (f : Group → Group) : (modGroup c k f).rs = c.rs := rfl
@[simp] theorem modGroup_qsc (c : Core) (k : Nat) (f : Group → Group) : (modGroup c k f).qsc = c.qsc := rfl
@[simp] theorem modGroup_fe (c : Core) (k : Nat) (f : Group → Group) : (modGroup c k f).fe = c.fe := rfl
@[simp] theorem modGroup_queues (c : Core) (k : Nat) (f : Group → Group) : (modGroup c k f).queues = c.queues := rfl
@[simp] theorem modGroup_ctxs (c : Core) (k : Nat) (f : Group → Group) : (modGroup c k f).ctxs = c.ctxs := rfl
@[simp] theorem modGroup_sqs (c : Core) (k : Nat) (f : Group → Group) : (modGroup c k f).sqs = c.sqs := rfl
@[simp] theorem modGroup_gs (c : Core) (k : Nat) (f : Group → Group) : (modGroup c k f).gs = c.gs := rfl
@[simp] theorem modGroup_isr (c : Core) (k : Nat) (f : Group → Group) : (modGroup c k f).isr = c.isr := rfl
@[simp] theorem modGroup_de (c : Core) (k : Nat) (f : Group → Group) : (modGroup c k f).de = c.de := rfl
@[simp] theorem modGroup_lanes (c : Core) (k : Nat) (f : Group → Group) : (modGroup c k f).lanes = c.lanes := rfl
@[simp] theorem modGroup_st (c : Core) (k : Nat) (f : Group → Group) : (modGroup c k f).st = c.st := rfl
@[simp] theorem modGroup_lehr (c : Core) (k : Nat) (f : Group → Group) : (modGroup c k f).lehr = c.lehr := rfl
@[simp] theorem modGroup_mf (c : Core) (k : Nat) (f : Group → Group) : (modGroup c k f).mf = c.mf := rfl
@[simp] theorem modGroup_cru (c : Core) (k : Nat) (f : Group → Group) : (modGroup c k f).cru = c.cru := rfl
@[simp] theorem modGroup_sched (c : Core) (k : Nat) (f : Group → Group) : (modGroup c k f).sched = c.sched := rfl
@[simp] theorem modGroup_marv (c : Core) (k : Nat) (f : Group → Group) : (modGroup c k f).marv = c.marv := rfl
@[simp] theorem modGroup_tu (c : Core) (k : Nat) (f : Group → Group) : (modGroup c k f).tu = c.tu := rfl
@[simp] theorem modGroup_lkp (c : Core) (k : Nat) (f : Group → Group) : (modGroup c k f).lkp = c.lkp := rfl
@[simp] theorem modGroup_strm (c : Core) (k : Nat) (f : Group → Group) : (modGroup c k f).strm = c.strm := rfl
@[simp] theorem modGroup_tbl (c : Core) (k : Nat) (f : Group → Group) : (modGroup c k f).tbl = c.tbl := rfl
@[simp] theorem modGroup_pp (c : Core) (k : Nat) (f : Group → Group) : (modGroup c k f).pp = c.pp := rfl
@[simp] theorem modGroup_det (c : Core) (k : Nat) (f : Group → Group) : (modGroup c k f).det = c.det := rfl
@[simp] theorem modGroup_ras (c : Core) (k : Nat) (f : Group → Group) : (modGroup c k f).ras = c.ras := rfl
@[simp] theorem modGroup_pmu (c : Core) (k : Nat) (f : Group → Group) : (modGroup c k f).pmu = c.pmu := rfl
@[simp] theorem modGroup_trc (c : Core) (k : Nat) (f : Group → Group) : (modGroup c k f).trc = c.trc := rfl
@[simp] theorem modGroup_dbg (c : Core) (k : Nat) (f : Group → Group) : (modGroup c k f).dbg = c.dbg := rfl
@[simp] theorem modGroup_tclk (c : Core) (k : Nat) (f : Group → Group) : (modGroup c k f).tclk = c.tclk := rfl
@[simp] theorem modGroup_free (c : Core) (k : Nat) (f : Group → Group) : (modGroup c k f).free = c.free := rfl
@[simp] theorem modGroup_rstReq (c : Core) (k : Nat) (f : Group → Group) : (modGroup c k f).rstReq = c.rstReq := rfl
@[simp] theorem modGroup_fatalReq (c : Core) (k : Nat) (f : Group → Group) : (modGroup c k f).fatalReq = c.fatalReq := rfl
@[simp] theorem getQ_modGroup (c : Core) (k j : Nat) (f : Group → Group) : getQ (modGroup c k f) j = getQ c j := rfl
@[simp] theorem getCtx_modGroup (c : Core) (k j : Nat) (f : Group → Group) : getCtx (modGroup c k f) j = getCtx c j := rfl
@[simp] theorem getSq_modGroup (c : Core) (k j : Nat) (f : Group → Group) : getSq (modGroup c k f) j = getSq c j := rfl
@[simp] theorem getLane_modGroup (c : Core) (k j : Nat) (f : Group → Group) : getLane (modGroup c k f) j = getLane c j := rfl
@[simp] theorem getEng_modGroup (c : Core) (k j : Nat) (f : Group → Group) : getEng (modGroup c k f) j = getEng c j := rfl
@[simp] theorem getInst_modGroup (c : Core) (k j : Nat) (f : Group → Group) : getInst (modGroup c k f) j = getInst c j := rfl
@[simp] theorem getImg_modGroup (c : Core) (k j : Nat) (f : Group → Group) : getImg (modGroup c k f) j = getImg c j := rfl
@[simp] theorem getBlock_modGroup (c : Core) (k j : Nat) (f : Group → Group) : getBlock (modGroup c k f) j = getBlock c j := rfl
@[simp] theorem getObj_modGroup (c : Core) (k j : Nat) (f : Group → Group) : getObj (modGroup c k f) j = getObj c j := rfl
@[simp] theorem getRxq_modGroup (c : Core) (k j : Nat) (f : Group → Group) : getRxq (modGroup c k f) j = getRxq c j := rfl
@[simp] theorem getCq_modGroup (c : Core) (k j : Nat) (f : Group → Group) : getCq (modGroup c k f) j = getCq c j := rfl
@[simp] theorem getPeer_modGroup (c : Core) (k j : Nat) (f : Group → Group) : getPeer (modGroup c k f) j = getPeer c j := rfl
@[simp] theorem getStream_modGroup (c : Core) (k j : Nat) (f : Group → Group) : getStream (modGroup c k f) j = getStream c j := rfl
@[simp] theorem getPre_modGroup (c : Core) (k j : Nat) (f : Group → Group) : getPre (modGroup c k f) j = getPre c j := rfl
@[simp] theorem getSched_modGroup (c : Core) (k j : Nat) (f : Group → Group) : getSched (modGroup c k f) j = getSched c j := rfl
@[simp] theorem getPage_modGroup (c : Core) (k j : Nat) (f : Group → Group) : getPage (modGroup c k f) j = getPage c j := rfl

/-! ## modPage -/

@[simp] theorem getPage_modPage_self (c : Core) (k : Nat) (f : Page → Page) : getPage (modPage c k f) k = f (getPage c k) :=
  tget_tmod_self _ _ _ _
theorem getPage_modPage_ne (c : Core) (k j : Nat) (f : Page → Page) (h : j ≠ k) : getPage (modPage c k f) j = getPage c j :=
  tget_tmod_ne _ _ _ h
@[simp] theorem modPage_io (c : Core) (k : Nat) (f : Page → Page) : (modPage c k f).io = c.io := rfl
@[simp] theorem modPage_bring (c : Core) (k : Nat) (f : Page → Page) : (modPage c k f).bring = c.bring := rfl
@[simp] theorem modPage_engs (c : Core) (k : Nat) (f : Page → Page) : (modPage c k f).engs = c.engs := rfl
@[simp] theorem modPage_lanesUp (c : Core) (k : Nat) (f : Page → Page) : (modPage c k f).lanesUp = c.lanesUp := rfl
@[simp] theorem modPage_sic (c : Core) (k : Nat) (f : Page → Page) : (modPage c k f).sic = c.sic := rfl
@[simp] theorem modPage_qsc (c : Core) (k : Nat) (f : Page → Page) : (modPage c k f).qsc = c.qsc := rfl
@[simp] theorem modPage_fe (c : Core) (k : Nat) (f : Page → Page) : (modPage c k f).fe = c.fe := rfl
@[simp] theorem modPage_queues (c : Core) (k : Nat) (f : Page → Page) : (modPage c k f).queues = c.queues := rfl
@[simp] theorem modPage_ctxs (c : Core) (k : Nat) (f : Page → Page) : (modPage c k f).ctxs = c.ctxs := rfl
@[simp] theorem modPage_sqs (c : Core) (k : Nat) (f : Page → Page) : (modPage c k f).sqs = c.sqs := rfl
@[simp] theorem modPage_gs (c : Core) (k : Nat) (f : Page → Page) : (modPage c k f).gs = c.gs := rfl
@[simp] theorem modPage_isr (c : Core) (k : Nat) (f : Page → Page) : (modPage c k f).isr = c.isr := rfl
@[simp] theorem modPage_de (c : Core) (k : Nat) (f : Page → Page) : (modPage c k f).de = c.de := rfl
@[simp] theorem modPage_lanes (c : Core) (k : Nat) (f : Page → Page) : (modPage c k f).lanes = c.lanes := rfl
@[simp] theorem modPage_st (c : Core) (k : Nat) (f : Page → Page) : (modPage c k f).st = c.st := rfl
@[simp] theorem modPage_lehr (c : Core) (k : Nat) (f : Page → Page) : (modPage c k f).lehr = c.lehr := rfl
@[simp] theorem modPage_mf (c : Core) (k : Nat) (f : Page → Page) : (modPage c k f).mf = c.mf := rfl
@[simp] theorem modPage_cru (c : Core) (k : Nat) (f : Page → Page) : (modPage c k f).cru = c.cru := rfl
@[simp] theorem modPage_sched (c : Core) (k : Nat) (f : Page → Page) : (modPage c k f).sched = c.sched := rfl
@[simp] theorem modPage_marv (c : Core) (k : Nat) (f : Page → Page) : (modPage c k f).marv = c.marv := rfl
@[simp] theorem modPage_tu (c : Core) (k : Nat) (f : Page → Page) : (modPage c k f).tu = c.tu := rfl
@[simp] theorem modPage_shr (c : Core) (k : Nat) (f : Page → Page) : (modPage c k f).shr = c.shr := rfl
@[simp] theorem modPage_lkp (c : Core) (k : Nat) (f : Page → Page) : (modPage c k f).lkp = c.lkp := rfl
@[simp] theorem modPage_strm (c : Core) (k : Nat) (f : Page → Page) : (modPage c k f).strm = c.strm := rfl
@[simp] theorem modPage_tbl (c : Core) (k : Nat) (f : Page → Page) : (modPage c k f).tbl = c.tbl := rfl
@[simp] theorem modPage_pp (c : Core) (k : Nat) (f : Page → Page) : (modPage c k f).pp = c.pp := rfl
@[simp] theorem modPage_det (c : Core) (k : Nat) (f : Page → Page) : (modPage c k f).det = c.det := rfl
@[simp] theorem modPage_ras (c : Core) (k : Nat) (f : Page → Page) : (modPage c k f).ras = c.ras := rfl
@[simp] theorem modPage_pmu (c : Core) (k : Nat) (f : Page → Page) : (modPage c k f).pmu = c.pmu := rfl
@[simp] theorem modPage_trc (c : Core) (k : Nat) (f : Page → Page) : (modPage c k f).trc = c.trc := rfl
@[simp] theorem modPage_dbg (c : Core) (k : Nat) (f : Page → Page) : (modPage c k f).dbg = c.dbg := rfl
@[simp] theorem modPage_tclk (c : Core) (k : Nat) (f : Page → Page) : (modPage c k f).tclk = c.tclk := rfl
@[simp] theorem modPage_free (c : Core) (k : Nat) (f : Page → Page) : (modPage c k f).free = c.free := rfl
@[simp] theorem modPage_rstReq (c : Core) (k : Nat) (f : Page → Page) : (modPage c k f).rstReq = c.rstReq := rfl
@[simp] theorem modPage_fatalReq (c : Core) (k : Nat) (f : Page → Page) : (modPage c k f).fatalReq = c.fatalReq := rfl
@[simp] theorem getQ_modPage (c : Core) (k j : Nat) (f : Page → Page) : getQ (modPage c k f) j = getQ c j := rfl
@[simp] theorem getCtx_modPage (c : Core) (k j : Nat) (f : Page → Page) : getCtx (modPage c k f) j = getCtx c j := rfl
@[simp] theorem getSq_modPage (c : Core) (k j : Nat) (f : Page → Page) : getSq (modPage c k f) j = getSq c j := rfl
@[simp] theorem getLane_modPage (c : Core) (k j : Nat) (f : Page → Page) : getLane (modPage c k f) j = getLane c j := rfl
@[simp] theorem getEng_modPage (c : Core) (k j : Nat) (f : Page → Page) : getEng (modPage c k f) j = getEng c j := rfl
@[simp] theorem getInst_modPage (c : Core) (k j : Nat) (f : Page → Page) : getInst (modPage c k f) j = getInst c j := rfl
@[simp] theorem getImg_modPage (c : Core) (k j : Nat) (f : Page → Page) : getImg (modPage c k f) j = getImg c j := rfl
@[simp] theorem getBlock_modPage (c : Core) (k j : Nat) (f : Page → Page) : getBlock (modPage c k f) j = getBlock c j := rfl
@[simp] theorem getObj_modPage (c : Core) (k j : Nat) (f : Page → Page) : getObj (modPage c k f) j = getObj c j := rfl
@[simp] theorem getRxq_modPage (c : Core) (k j : Nat) (f : Page → Page) : getRxq (modPage c k f) j = getRxq c j := rfl
@[simp] theorem getCq_modPage (c : Core) (k j : Nat) (f : Page → Page) : getCq (modPage c k f) j = getCq c j := rfl
@[simp] theorem getPeer_modPage (c : Core) (k j : Nat) (f : Page → Page) : getPeer (modPage c k f) j = getPeer c j := rfl
@[simp] theorem getStream_modPage (c : Core) (k j : Nat) (f : Page → Page) : getStream (modPage c k f) j = getStream c j := rfl
@[simp] theorem getPre_modPage (c : Core) (k j : Nat) (f : Page → Page) : getPre (modPage c k f) j = getPre c j := rfl
@[simp] theorem getSched_modPage (c : Core) (k j : Nat) (f : Page → Page) : getSched (modPage c k f) j = getSched c j := rfl
@[simp] theorem getGroup_modPage (c : Core) (k j : Nat) (f : Page → Page) : getGroup (modPage c k f) j = getGroup c j := rfl

/-! ## regPut -/

@[simp] theorem regPut_io (c : Core) (p off : Nat) (v : Reg) : (regPut c p off v).io = c.io := rfl
@[simp] theorem regPut_bring (c : Core) (p off : Nat) (v : Reg) : (regPut c p off v).bring = c.bring := rfl
@[simp] theorem regPut_engs (c : Core) (p off : Nat) (v : Reg) : (regPut c p off v).engs = c.engs := rfl
@[simp] theorem regPut_lanesUp (c : Core) (p off : Nat) (v : Reg) : (regPut c p off v).lanesUp = c.lanesUp := rfl
@[simp] theorem regPut_sic (c : Core) (p off : Nat) (v : Reg) : (regPut c p off v).sic = c.sic := rfl
@[simp] theorem regPut_qsc (c : Core) (p off : Nat) (v : Reg) : (regPut c p off v).qsc = c.qsc := rfl
@[simp] theorem regPut_fe (c : Core) (p off : Nat) (v : Reg) : (regPut c p off v).fe = c.fe := rfl
@[simp] theorem regPut_queues (c : Core) (p off : Nat) (v : Reg) : (regPut c p off v).queues = c.queues := rfl
@[simp] theorem regPut_ctxs (c : Core) (p off : Nat) (v : Reg) : (regPut c p off v).ctxs = c.ctxs := rfl
@[simp] theorem regPut_sqs (c : Core) (p off : Nat) (v : Reg) : (regPut c p off v).sqs = c.sqs := rfl
@[simp] theorem regPut_gs (c : Core) (p off : Nat) (v : Reg) : (regPut c p off v).gs = c.gs := rfl
@[simp] theorem regPut_isr (c : Core) (p off : Nat) (v : Reg) : (regPut c p off v).isr = c.isr := rfl
@[simp] theorem regPut_de (c : Core) (p off : Nat) (v : Reg) : (regPut c p off v).de = c.de := rfl
@[simp] theorem regPut_lanes (c : Core) (p off : Nat) (v : Reg) : (regPut c p off v).lanes = c.lanes := rfl
@[simp] theorem regPut_st (c : Core) (p off : Nat) (v : Reg) : (regPut c p off v).st = c.st := rfl
@[simp] theorem regPut_lehr (c : Core) (p off : Nat) (v : Reg) : (regPut c p off v).lehr = c.lehr := rfl
@[simp] theorem regPut_mf (c : Core) (p off : Nat) (v : Reg) : (regPut c p off v).mf = c.mf := rfl
@[simp] theorem regPut_cru (c : Core) (p off : Nat) (v : Reg) : (regPut c p off v).cru = c.cru := rfl
@[simp] theorem regPut_sched (c : Core) (p off : Nat) (v : Reg) : (regPut c p off v).sched = c.sched := rfl
@[simp] theorem regPut_marv (c : Core) (p off : Nat) (v : Reg) : (regPut c p off v).marv = c.marv := rfl
@[simp] theorem regPut_tu (c : Core) (p off : Nat) (v : Reg) : (regPut c p off v).tu = c.tu := rfl
@[simp] theorem regPut_shr (c : Core) (p off : Nat) (v : Reg) : (regPut c p off v).shr = c.shr := rfl
@[simp] theorem regPut_lkp (c : Core) (p off : Nat) (v : Reg) : (regPut c p off v).lkp = c.lkp := rfl
@[simp] theorem regPut_strm (c : Core) (p off : Nat) (v : Reg) : (regPut c p off v).strm = c.strm := rfl
@[simp] theorem regPut_tbl (c : Core) (p off : Nat) (v : Reg) : (regPut c p off v).tbl = c.tbl := rfl
@[simp] theorem regPut_pp (c : Core) (p off : Nat) (v : Reg) : (regPut c p off v).pp = c.pp := rfl
@[simp] theorem regPut_det (c : Core) (p off : Nat) (v : Reg) : (regPut c p off v).det = c.det := rfl
@[simp] theorem regPut_ras (c : Core) (p off : Nat) (v : Reg) : (regPut c p off v).ras = c.ras := rfl
@[simp] theorem regPut_pmu (c : Core) (p off : Nat) (v : Reg) : (regPut c p off v).pmu = c.pmu := rfl
@[simp] theorem regPut_trc (c : Core) (p off : Nat) (v : Reg) : (regPut c p off v).trc = c.trc := rfl
@[simp] theorem regPut_dbg (c : Core) (p off : Nat) (v : Reg) : (regPut c p off v).dbg = c.dbg := rfl
@[simp] theorem regPut_tclk (c : Core) (p off : Nat) (v : Reg) : (regPut c p off v).tclk = c.tclk := rfl
@[simp] theorem regPut_free (c : Core) (p off : Nat) (v : Reg) : (regPut c p off v).free = c.free := rfl
@[simp] theorem regPut_rstReq (c : Core) (p off : Nat) (v : Reg) : (regPut c p off v).rstReq = c.rstReq := rfl
@[simp] theorem regPut_fatalReq (c : Core) (p off : Nat) (v : Reg) : (regPut c p off v).fatalReq = c.fatalReq := rfl
@[simp] theorem getQ_regPut (c : Core) (p off : Nat) (v : Reg) (j : Nat) : getQ (regPut c p off v) j = getQ c j := rfl
@[simp] theorem getCtx_regPut (c : Core) (p off : Nat) (v : Reg) (j : Nat) : getCtx (regPut c p off v) j = getCtx c j := rfl
@[simp] theorem getSq_regPut (c : Core) (p off : Nat) (v : Reg) (j : Nat) : getSq (regPut c p off v) j = getSq c j := rfl
@[simp] theorem getLane_regPut (c : Core) (p off : Nat) (v : Reg) (j : Nat) : getLane (regPut c p off v) j = getLane c j := rfl
@[simp] theorem getEng_regPut (c : Core) (p off : Nat) (v : Reg) (j : Nat) : getEng (regPut c p off v) j = getEng c j := rfl
@[simp] theorem getInst_regPut (c : Core) (p off : Nat) (v : Reg) (j : Nat) : getInst (regPut c p off v) j = getInst c j := rfl
@[simp] theorem getImg_regPut (c : Core) (p off : Nat) (v : Reg) (j : Nat) : getImg (regPut c p off v) j = getImg c j := rfl
@[simp] theorem getBlock_regPut (c : Core) (p off : Nat) (v : Reg) (j : Nat) : getBlock (regPut c p off v) j = getBlock c j := rfl
@[simp] theorem getObj_regPut (c : Core) (p off : Nat) (v : Reg) (j : Nat) : getObj (regPut c p off v) j = getObj c j := rfl
@[simp] theorem getRxq_regPut (c : Core) (p off : Nat) (v : Reg) (j : Nat) : getRxq (regPut c p off v) j = getRxq c j := rfl
@[simp] theorem getCq_regPut (c : Core) (p off : Nat) (v : Reg) (j : Nat) : getCq (regPut c p off v) j = getCq c j := rfl
@[simp] theorem getPeer_regPut (c : Core) (p off : Nat) (v : Reg) (j : Nat) : getPeer (regPut c p off v) j = getPeer c j := rfl
@[simp] theorem getStream_regPut (c : Core) (p off : Nat) (v : Reg) (j : Nat) : getStream (regPut c p off v) j = getStream c j := rfl
@[simp] theorem getPre_regPut (c : Core) (p off : Nat) (v : Reg) (j : Nat) : getPre (regPut c p off v) j = getPre c j := rfl
@[simp] theorem getSched_regPut (c : Core) (p off : Nat) (v : Reg) (j : Nat) : getSched (regPut c p off v) j = getSched c j := rfl
@[simp] theorem getGroup_regPut (c : Core) (p off : Nat) (v : Reg) (j : Nat) : getGroup (regPut c p off v) j = getGroup c j := rfl

/-! ## regSet -/

@[simp] theorem regSet_io (c : Core) (p off : Nat) (v : Reg) : (regSet c p off v).io = c.io := by unfold regSet; simp only []; split <;> rfl
@[simp] theorem regSet_bring (c : Core) (p off : Nat) (v : Reg) : (regSet c p off v).bring = c.bring := by unfold regSet; simp only []; split <;> rfl
@[simp] theorem regSet_engs (c : Core) (p off : Nat) (v : Reg) : (regSet c p off v).engs = c.engs := by unfold regSet; simp only []; split <;> rfl
@[simp] theorem regSet_lanesUp (c : Core) (p off : Nat) (v : Reg) : (regSet c p off v).lanesUp = c.lanesUp := by unfold regSet; simp only []; split <;> rfl
@[simp] theorem regSet_sic (c : Core) (p off : Nat) (v : Reg) : (regSet c p off v).sic = c.sic := by unfold regSet; simp only []; split <;> rfl
@[simp] theorem regSet_qsc (c : Core) (p off : Nat) (v : Reg) : (regSet c p off v).qsc = c.qsc := by unfold regSet; simp only []; split <;> rfl
@[simp] theorem regSet_fe (c : Core) (p off : Nat) (v : Reg) : (regSet c p off v).fe = c.fe := by unfold regSet; simp only []; split <;> rfl
@[simp] theorem regSet_queues (c : Core) (p off : Nat) (v : Reg) : (regSet c p off v).queues = c.queues := by unfold regSet; simp only []; split <;> rfl
@[simp] theorem regSet_ctxs (c : Core) (p off : Nat) (v : Reg) : (regSet c p off v).ctxs = c.ctxs := by unfold regSet; simp only []; split <;> rfl
@[simp] theorem regSet_sqs (c : Core) (p off : Nat) (v : Reg) : (regSet c p off v).sqs = c.sqs := by unfold regSet; simp only []; split <;> rfl
@[simp] theorem regSet_gs (c : Core) (p off : Nat) (v : Reg) : (regSet c p off v).gs = c.gs := by unfold regSet; simp only []; split <;> rfl
@[simp] theorem regSet_isr (c : Core) (p off : Nat) (v : Reg) : (regSet c p off v).isr = c.isr := by unfold regSet; simp only []; split <;> rfl
@[simp] theorem regSet_de (c : Core) (p off : Nat) (v : Reg) : (regSet c p off v).de = c.de := by unfold regSet; simp only []; split <;> rfl
@[simp] theorem regSet_lanes (c : Core) (p off : Nat) (v : Reg) : (regSet c p off v).lanes = c.lanes := by unfold regSet; simp only []; split <;> rfl
@[simp] theorem regSet_st (c : Core) (p off : Nat) (v : Reg) : (regSet c p off v).st = c.st := by unfold regSet; simp only []; split <;> rfl
@[simp] theorem regSet_lehr (c : Core) (p off : Nat) (v : Reg) : (regSet c p off v).lehr = c.lehr := by unfold regSet; simp only []; split <;> rfl
@[simp] theorem regSet_mf (c : Core) (p off : Nat) (v : Reg) : (regSet c p off v).mf = c.mf := by unfold regSet; simp only []; split <;> rfl
@[simp] theorem regSet_cru (c : Core) (p off : Nat) (v : Reg) : (regSet c p off v).cru = c.cru := by unfold regSet; simp only []; split <;> rfl
@[simp] theorem regSet_sched (c : Core) (p off : Nat) (v : Reg) : (regSet c p off v).sched = c.sched := by unfold regSet; simp only []; split <;> rfl
@[simp] theorem regSet_marv (c : Core) (p off : Nat) (v : Reg) : (regSet c p off v).marv = c.marv := by unfold regSet; simp only []; split <;> rfl
@[simp] theorem regSet_tu (c : Core) (p off : Nat) (v : Reg) : (regSet c p off v).tu = c.tu := by unfold regSet; simp only []; split <;> rfl
@[simp] theorem regSet_shr (c : Core) (p off : Nat) (v : Reg) : (regSet c p off v).shr = c.shr := by unfold regSet; simp only []; split <;> rfl
@[simp] theorem regSet_lkp (c : Core) (p off : Nat) (v : Reg) : (regSet c p off v).lkp = c.lkp := by unfold regSet; simp only []; split <;> rfl
@[simp] theorem regSet_strm (c : Core) (p off : Nat) (v : Reg) : (regSet c p off v).strm = c.strm := by unfold regSet; simp only []; split <;> rfl
@[simp] theorem regSet_tbl (c : Core) (p off : Nat) (v : Reg) : (regSet c p off v).tbl = c.tbl := by unfold regSet; simp only []; split <;> rfl
@[simp] theorem regSet_pp (c : Core) (p off : Nat) (v : Reg) : (regSet c p off v).pp = c.pp := by unfold regSet; simp only []; split <;> rfl
@[simp] theorem regSet_det (c : Core) (p off : Nat) (v : Reg) : (regSet c p off v).det = c.det := by unfold regSet; simp only []; split <;> rfl
@[simp] theorem regSet_ras (c : Core) (p off : Nat) (v : Reg) : (regSet c p off v).ras = c.ras := by unfold regSet; simp only []; split <;> rfl
@[simp] theorem regSet_pmu (c : Core) (p off : Nat) (v : Reg) : (regSet c p off v).pmu = c.pmu := by unfold regSet; simp only []; split <;> rfl
@[simp] theorem regSet_trc (c : Core) (p off : Nat) (v : Reg) : (regSet c p off v).trc = c.trc := by unfold regSet; simp only []; split <;> rfl
@[simp] theorem regSet_dbg (c : Core) (p off : Nat) (v : Reg) : (regSet c p off v).dbg = c.dbg := by unfold regSet; simp only []; split <;> rfl
@[simp] theorem regSet_tclk (c : Core) (p off : Nat) (v : Reg) : (regSet c p off v).tclk = c.tclk := by unfold regSet; simp only []; split <;> rfl
@[simp] theorem regSet_free (c : Core) (p off : Nat) (v : Reg) : (regSet c p off v).free = c.free := by unfold regSet; simp only []; split <;> rfl
@[simp] theorem regSet_rstReq (c : Core) (p off : Nat) (v : Reg) : (regSet c p off v).rstReq = c.rstReq := by unfold regSet; simp only []; split <;> rfl
@[simp] theorem regSet_fatalReq (c : Core) (p off : Nat) (v : Reg) : (regSet c p off v).fatalReq = c.fatalReq := by unfold regSet; simp only []; split <;> rfl
@[simp] theorem getQ_regSet (c : Core) (p off : Nat) (v : Reg) (j : Nat) : getQ (regSet c p off v) j = getQ c j := by simp only [getQ, regSet_queues]
@[simp] theorem getCtx_regSet (c : Core) (p off : Nat) (v : Reg) (j : Nat) : getCtx (regSet c p off v) j = getCtx c j := by simp only [getCtx, regSet_ctxs]
@[simp] theorem getSq_regSet (c : Core) (p off : Nat) (v : Reg) (j : Nat) : getSq (regSet c p off v) j = getSq c j := by simp only [getSq, regSet_sqs]
@[simp] theorem getLane_regSet (c : Core) (p off : Nat) (v : Reg) (j : Nat) : getLane (regSet c p off v) j = getLane c j := by simp only [getLane, regSet_lanes]
@[simp] theorem getEng_regSet (c : Core) (p off : Nat) (v : Reg) (j : Nat) : getEng (regSet c p off v) j = getEng c j := by simp only [getEng, regSet_engs]
@[simp] theorem getInst_regSet (c : Core) (p off : Nat) (v : Reg) (j : Nat) : getInst (regSet c p off v) j = getInst c j := by simp only [getInst, regSet_isr]
@[simp] theorem getImg_regSet (c : Core) (p off : Nat) (v : Reg) (j : Nat) : getImg (regSet c p off v) j = getImg c j := by simp only [getImg, regSet_gs]
@[simp] theorem getBlock_regSet (c : Core) (p off : Nat) (v : Reg) (j : Nat) : getBlock (regSet c p off v) j = getBlock c j := by simp only [getBlock, regSet_gs]
@[simp] theorem getObj_regSet (c : Core) (p off : Nat) (v : Reg) (j : Nat) : getObj (regSet c p off v) j = getObj c j := by simp only [getObj, regSet_st]
@[simp] theorem getRxq_regSet (c : Core) (p off : Nat) (v : Reg) (j : Nat) : getRxq (regSet c p off v) j = getRxq c j := by simp only [getRxq, regSet_mf]
@[simp] theorem getCq_regSet (c : Core) (p off : Nat) (v : Reg) (j : Nat) : getCq (regSet c p off v) j = getCq c j := by simp only [getCq, regSet_cru]
@[simp] theorem getPeer_regSet (c : Core) (p off : Nat) (v : Reg) (j : Nat) : getPeer (regSet c p off v) j = getPeer c j := by simp only [getPeer, regSet_pp]
@[simp] theorem getStream_regSet (c : Core) (p off : Nat) (v : Reg) (j : Nat) : getStream (regSet c p off v) j = getStream c j := by simp only [getStream, regSet_strm]
@[simp] theorem getPre_regSet (c : Core) (p off : Nat) (v : Reg) (j : Nat) : getPre (regSet c p off v) j = getPre c j := by simp only [getPre, regSet_sched]
@[simp] theorem getSched_regSet (c : Core) (p off : Nat) (v : Reg) (j : Nat) : getSched (regSet c p off v) j = getSched c j := by simp only [getSched, regSet_sched]
@[simp] theorem getGroup_regSet (c : Core) (p off : Nat) (v : Reg) (j : Nat) : getGroup (regSet c p off v) j = getGroup c j := by simp only [getGroup, regSet_shr]

/-! ## cntAdd -/

@[simp] theorem cntAdd_io (c : Core) (p off n : Nat) : (cntAdd c p off n).io = c.io := rfl
@[simp] theorem cntAdd_bring (c : Core) (p off n : Nat) : (cntAdd c p off n).bring = c.bring := rfl
@[simp] theorem cntAdd_engs (c : Core) (p off n : Nat) : (cntAdd c p off n).engs = c.engs := rfl
@[simp] theorem cntAdd_lanesUp (c : Core) (p off n : Nat) : (cntAdd c p off n).lanesUp = c.lanesUp := rfl
@[simp] theorem cntAdd_sic (c : Core) (p off n : Nat) : (cntAdd c p off n).sic = c.sic := rfl
@[simp] theorem cntAdd_qsc (c : Core) (p off n : Nat) : (cntAdd c p off n).qsc = c.qsc := rfl
@[simp] theorem cntAdd_fe (c : Core) (p off n : Nat) : (cntAdd c p off n).fe = c.fe := rfl
@[simp] theorem cntAdd_queues (c : Core) (p off n : Nat) : (cntAdd c p off n).queues = c.queues := rfl
@[simp] theorem cntAdd_ctxs (c : Core) (p off n : Nat) : (cntAdd c p off n).ctxs = c.ctxs := rfl
@[simp] theorem cntAdd_sqs (c : Core) (p off n : Nat) : (cntAdd c p off n).sqs = c.sqs := rfl
@[simp] theorem cntAdd_gs (c : Core) (p off n : Nat) : (cntAdd c p off n).gs = c.gs := rfl
@[simp] theorem cntAdd_isr (c : Core) (p off n : Nat) : (cntAdd c p off n).isr = c.isr := rfl
@[simp] theorem cntAdd_de (c : Core) (p off n : Nat) : (cntAdd c p off n).de = c.de := rfl
@[simp] theorem cntAdd_lanes (c : Core) (p off n : Nat) : (cntAdd c p off n).lanes = c.lanes := rfl
@[simp] theorem cntAdd_st (c : Core) (p off n : Nat) : (cntAdd c p off n).st = c.st := rfl
@[simp] theorem cntAdd_lehr (c : Core) (p off n : Nat) : (cntAdd c p off n).lehr = c.lehr := rfl
@[simp] theorem cntAdd_mf (c : Core) (p off n : Nat) : (cntAdd c p off n).mf = c.mf := rfl
@[simp] theorem cntAdd_cru (c : Core) (p off n : Nat) : (cntAdd c p off n).cru = c.cru := rfl
@[simp] theorem cntAdd_sched (c : Core) (p off n : Nat) : (cntAdd c p off n).sched = c.sched := rfl
@[simp] theorem cntAdd_marv (c : Core) (p off n : Nat) : (cntAdd c p off n).marv = c.marv := rfl
@[simp] theorem cntAdd_tu (c : Core) (p off n : Nat) : (cntAdd c p off n).tu = c.tu := rfl
@[simp] theorem cntAdd_shr (c : Core) (p off n : Nat) : (cntAdd c p off n).shr = c.shr := rfl
@[simp] theorem cntAdd_lkp (c : Core) (p off n : Nat) : (cntAdd c p off n).lkp = c.lkp := rfl
@[simp] theorem cntAdd_strm (c : Core) (p off n : Nat) : (cntAdd c p off n).strm = c.strm := rfl
@[simp] theorem cntAdd_tbl (c : Core) (p off n : Nat) : (cntAdd c p off n).tbl = c.tbl := rfl
@[simp] theorem cntAdd_pp (c : Core) (p off n : Nat) : (cntAdd c p off n).pp = c.pp := rfl
@[simp] theorem cntAdd_det (c : Core) (p off n : Nat) : (cntAdd c p off n).det = c.det := rfl
@[simp] theorem cntAdd_ras (c : Core) (p off n : Nat) : (cntAdd c p off n).ras = c.ras := rfl
@[simp] theorem cntAdd_pmu (c : Core) (p off n : Nat) : (cntAdd c p off n).pmu = c.pmu := rfl
@[simp] theorem cntAdd_trc (c : Core) (p off n : Nat) : (cntAdd c p off n).trc = c.trc := rfl
@[simp] theorem cntAdd_dbg (c : Core) (p off n : Nat) : (cntAdd c p off n).dbg = c.dbg := rfl
@[simp] theorem cntAdd_tclk (c : Core) (p off n : Nat) : (cntAdd c p off n).tclk = c.tclk := rfl
@[simp] theorem cntAdd_free (c : Core) (p off n : Nat) : (cntAdd c p off n).free = c.free := rfl
@[simp] theorem cntAdd_rstReq (c : Core) (p off n : Nat) : (cntAdd c p off n).rstReq = c.rstReq := rfl
@[simp] theorem cntAdd_fatalReq (c : Core) (p off n : Nat) : (cntAdd c p off n).fatalReq = c.fatalReq := rfl
@[simp] theorem getQ_cntAdd (c : Core) (p off n : Nat) (j : Nat) : getQ (cntAdd c p off n) j = getQ c j := rfl
@[simp] theorem getCtx_cntAdd (c : Core) (p off n : Nat) (j : Nat) : getCtx (cntAdd c p off n) j = getCtx c j := rfl
@[simp] theorem getSq_cntAdd (c : Core) (p off n : Nat) (j : Nat) : getSq (cntAdd c p off n) j = getSq c j := rfl
@[simp] theorem getLane_cntAdd (c : Core) (p off n : Nat) (j : Nat) : getLane (cntAdd c p off n) j = getLane c j := rfl
@[simp] theorem getEng_cntAdd (c : Core) (p off n : Nat) (j : Nat) : getEng (cntAdd c p off n) j = getEng c j := rfl
@[simp] theorem getInst_cntAdd (c : Core) (p off n : Nat) (j : Nat) : getInst (cntAdd c p off n) j = getInst c j := rfl
@[simp] theorem getImg_cntAdd (c : Core) (p off n : Nat) (j : Nat) : getImg (cntAdd c p off n) j = getImg c j := rfl
@[simp] theorem getBlock_cntAdd (c : Core) (p off n : Nat) (j : Nat) : getBlock (cntAdd c p off n) j = getBlock c j := rfl
@[simp] theorem getObj_cntAdd (c : Core) (p off n : Nat) (j : Nat) : getObj (cntAdd c p off n) j = getObj c j := rfl
@[simp] theorem getRxq_cntAdd (c : Core) (p off n : Nat) (j : Nat) : getRxq (cntAdd c p off n) j = getRxq c j := rfl
@[simp] theorem getCq_cntAdd (c : Core) (p off n : Nat) (j : Nat) : getCq (cntAdd c p off n) j = getCq c j := rfl
@[simp] theorem getPeer_cntAdd (c : Core) (p off n : Nat) (j : Nat) : getPeer (cntAdd c p off n) j = getPeer c j := rfl
@[simp] theorem getStream_cntAdd (c : Core) (p off n : Nat) (j : Nat) : getStream (cntAdd c p off n) j = getStream c j := rfl
@[simp] theorem getPre_cntAdd (c : Core) (p off n : Nat) (j : Nat) : getPre (cntAdd c p off n) j = getPre c j := rfl
@[simp] theorem getSched_cntAdd (c : Core) (p off n : Nat) (j : Nat) : getSched (cntAdd c p off n) j = getSched c j := rfl
@[simp] theorem getGroup_cntAdd (c : Core) (p off n : Nat) (j : Nat) : getGroup (cntAdd c p off n) j = getGroup c j := rfl

/-! ## irqSet -/

@[simp] theorem irqSet_io (c : Core) (p b : Nat) : (irqSet c p b).io = c.io := rfl
@[simp] theorem irqSet_bring (c : Core) (p b : Nat) : (irqSet c p b).bring = c.bring := rfl
@[simp] theorem irqSet_engs (c : Core) (p b : Nat) : (irqSet c p b).engs = c.engs := rfl
@[simp] theorem irqSet_lanesUp (c : Core) (p b : Nat) : (irqSet c p b).lanesUp = c.lanesUp := rfl
@[simp] theorem irqSet_sic (c : Core) (p b : Nat) : (irqSet c p b).sic = c.sic := rfl
@[simp] theorem irqSet_qsc (c : Core) (p b : Nat) : (irqSet c p b).qsc = c.qsc := rfl
@[simp] theorem irqSet_fe (c : Core) (p b : Nat) : (irqSet c p b).fe = c.fe := rfl
@[simp] theorem irqSet_queues (c : Core) (p b : Nat) : (irqSet c p b).queues = c.queues := rfl
@[simp] theorem irqSet_ctxs (c : Core) (p b : Nat) : (irqSet c p b).ctxs = c.ctxs := rfl
@[simp] theorem irqSet_sqs (c : Core) (p b : Nat) : (irqSet c p b).sqs = c.sqs := rfl
@[simp] theorem irqSet_gs (c : Core) (p b : Nat) : (irqSet c p b).gs = c.gs := rfl
@[simp] theorem irqSet_isr (c : Core) (p b : Nat) : (irqSet c p b).isr = c.isr := rfl
@[simp] theorem irqSet_de (c : Core) (p b : Nat) : (irqSet c p b).de = c.de := rfl
@[simp] theorem irqSet_lanes (c : Core) (p b : Nat) : (irqSet c p b).lanes = c.lanes := rfl
@[simp] theorem irqSet_st (c : Core) (p b : Nat) : (irqSet c p b).st = c.st := rfl
@[simp] theorem irqSet_lehr (c : Core) (p b : Nat) : (irqSet c p b).lehr = c.lehr := rfl
@[simp] theorem irqSet_mf (c : Core) (p b : Nat) : (irqSet c p b).mf = c.mf := rfl
@[simp] theorem irqSet_cru (c : Core) (p b : Nat) : (irqSet c p b).cru = c.cru := rfl
@[simp] theorem irqSet_sched (c : Core) (p b : Nat) : (irqSet c p b).sched = c.sched := rfl
@[simp] theorem irqSet_marv (c : Core) (p b : Nat) : (irqSet c p b).marv = c.marv := rfl
@[simp] theorem irqSet_tu (c : Core) (p b : Nat) : (irqSet c p b).tu = c.tu := rfl
@[simp] theorem irqSet_shr (c : Core) (p b : Nat) : (irqSet c p b).shr = c.shr := rfl
@[simp] theorem irqSet_lkp (c : Core) (p b : Nat) : (irqSet c p b).lkp = c.lkp := rfl
@[simp] theorem irqSet_strm (c : Core) (p b : Nat) : (irqSet c p b).strm = c.strm := rfl
@[simp] theorem irqSet_tbl (c : Core) (p b : Nat) : (irqSet c p b).tbl = c.tbl := rfl
@[simp] theorem irqSet_pp (c : Core) (p b : Nat) : (irqSet c p b).pp = c.pp := rfl
@[simp] theorem irqSet_det (c : Core) (p b : Nat) : (irqSet c p b).det = c.det := rfl
@[simp] theorem irqSet_ras (c : Core) (p b : Nat) : (irqSet c p b).ras = c.ras := rfl
@[simp] theorem irqSet_pmu (c : Core) (p b : Nat) : (irqSet c p b).pmu = c.pmu := rfl
@[simp] theorem irqSet_trc (c : Core) (p b : Nat) : (irqSet c p b).trc = c.trc := rfl
@[simp] theorem irqSet_dbg (c : Core) (p b : Nat) : (irqSet c p b).dbg = c.dbg := rfl
@[simp] theorem irqSet_tclk (c : Core) (p b : Nat) : (irqSet c p b).tclk = c.tclk := rfl
@[simp] theorem irqSet_free (c : Core) (p b : Nat) : (irqSet c p b).free = c.free := rfl
@[simp] theorem irqSet_rstReq (c : Core) (p b : Nat) : (irqSet c p b).rstReq = c.rstReq := rfl
@[simp] theorem irqSet_fatalReq (c : Core) (p b : Nat) : (irqSet c p b).fatalReq = c.fatalReq := rfl
@[simp] theorem getQ_irqSet (c : Core) (p b : Nat) (j : Nat) : getQ (irqSet c p b) j = getQ c j := rfl
@[simp] theorem getCtx_irqSet (c : Core) (p b : Nat) (j : Nat) : getCtx (irqSet c p b) j = getCtx c j := rfl
@[simp] theorem getSq_irqSet (c : Core) (p b : Nat) (j : Nat) : getSq (irqSet c p b) j = getSq c j := rfl
@[simp] theorem getLane_irqSet (c : Core) (p b : Nat) (j : Nat) : getLane (irqSet c p b) j = getLane c j := rfl
@[simp] theorem getEng_irqSet (c : Core) (p b : Nat) (j : Nat) : getEng (irqSet c p b) j = getEng c j := rfl
@[simp] theorem getInst_irqSet (c : Core) (p b : Nat) (j : Nat) : getInst (irqSet c p b) j = getInst c j := rfl
@[simp] theorem getImg_irqSet (c : Core) (p b : Nat) (j : Nat) : getImg (irqSet c p b) j = getImg c j := rfl
@[simp] theorem getBlock_irqSet (c : Core) (p b : Nat) (j : Nat) : getBlock (irqSet c p b) j = getBlock c j := rfl
@[simp] theorem getObj_irqSet (c : Core) (p b : Nat) (j : Nat) : getObj (irqSet c p b) j = getObj c j := rfl
@[simp] theorem getRxq_irqSet (c : Core) (p b : Nat) (j : Nat) : getRxq (irqSet c p b) j = getRxq c j := rfl
@[simp] theorem getCq_irqSet (c : Core) (p b : Nat) (j : Nat) : getCq (irqSet c p b) j = getCq c j := rfl
@[simp] theorem getPeer_irqSet (c : Core) (p b : Nat) (j : Nat) : getPeer (irqSet c p b) j = getPeer c j := rfl
@[simp] theorem getStream_irqSet (c : Core) (p b : Nat) (j : Nat) : getStream (irqSet c p b) j = getStream c j := rfl
@[simp] theorem getPre_irqSet (c : Core) (p b : Nat) (j : Nat) : getPre (irqSet c p b) j = getPre c j := rfl
@[simp] theorem getSched_irqSet (c : Core) (p b : Nat) (j : Nat) : getSched (irqSet c p b) j = getSched c j := rfl
@[simp] theorem getGroup_irqSet (c : Core) (p b : Nat) (j : Nat) : getGroup (irqSet c p b) j = getGroup c j := rfl

/-! ## pageErr -/

@[simp] theorem pageErr_io (c : Core) (p code lo hi : Nat) : (pageErr c p code lo hi).io = c.io := rfl
@[simp] theorem pageErr_bring (c : Core) (p code lo hi : Nat) : (pageErr c p code lo hi).bring = c.bring := rfl
@[simp] theorem pageErr_engs (c : Core) (p code lo hi : Nat) : (pageErr c p code lo hi).engs = c.engs := rfl
@[simp] theorem pageErr_lanesUp (c : Core) (p code lo hi : Nat) : (pageErr c p code lo hi).lanesUp = c.lanesUp := rfl
@[simp] theorem pageErr_sic (c : Core) (p code lo hi : Nat) : (pageErr c p code lo hi).sic = c.sic := rfl
@[simp] theorem pageErr_qsc (c : Core) (p code lo hi : Nat) : (pageErr c p code lo hi).qsc = c.qsc := rfl
@[simp] theorem pageErr_fe (c : Core) (p code lo hi : Nat) : (pageErr c p code lo hi).fe = c.fe := rfl
@[simp] theorem pageErr_queues (c : Core) (p code lo hi : Nat) : (pageErr c p code lo hi).queues = c.queues := rfl
@[simp] theorem pageErr_ctxs (c : Core) (p code lo hi : Nat) : (pageErr c p code lo hi).ctxs = c.ctxs := rfl
@[simp] theorem pageErr_sqs (c : Core) (p code lo hi : Nat) : (pageErr c p code lo hi).sqs = c.sqs := rfl
@[simp] theorem pageErr_gs (c : Core) (p code lo hi : Nat) : (pageErr c p code lo hi).gs = c.gs := rfl
@[simp] theorem pageErr_isr (c : Core) (p code lo hi : Nat) : (pageErr c p code lo hi).isr = c.isr := rfl
@[simp] theorem pageErr_de (c : Core) (p code lo hi : Nat) : (pageErr c p code lo hi).de = c.de := rfl
@[simp] theorem pageErr_lanes (c : Core) (p code lo hi : Nat) : (pageErr c p code lo hi).lanes = c.lanes := rfl
@[simp] theorem pageErr_st (c : Core) (p code lo hi : Nat) : (pageErr c p code lo hi).st = c.st := rfl
@[simp] theorem pageErr_lehr (c : Core) (p code lo hi : Nat) : (pageErr c p code lo hi).lehr = c.lehr := rfl
@[simp] theorem pageErr_mf (c : Core) (p code lo hi : Nat) : (pageErr c p code lo hi).mf = c.mf := rfl
@[simp] theorem pageErr_cru (c : Core) (p code lo hi : Nat) : (pageErr c p code lo hi).cru = c.cru := rfl
@[simp] theorem pageErr_sched (c : Core) (p code lo hi : Nat) : (pageErr c p code lo hi).sched = c.sched := rfl
@[simp] theorem pageErr_marv (c : Core) (p code lo hi : Nat) : (pageErr c p code lo hi).marv = c.marv := rfl
@[simp] theorem pageErr_tu (c : Core) (p code lo hi : Nat) : (pageErr c p code lo hi).tu = c.tu := rfl
@[simp] theorem pageErr_shr (c : Core) (p code lo hi : Nat) : (pageErr c p code lo hi).shr = c.shr := rfl
@[simp] theorem pageErr_lkp (c : Core) (p code lo hi : Nat) : (pageErr c p code lo hi).lkp = c.lkp := rfl
@[simp] theorem pageErr_strm (c : Core) (p code lo hi : Nat) : (pageErr c p code lo hi).strm = c.strm := rfl
@[simp] theorem pageErr_tbl (c : Core) (p code lo hi : Nat) : (pageErr c p code lo hi).tbl = c.tbl := rfl
@[simp] theorem pageErr_pp (c : Core) (p code lo hi : Nat) : (pageErr c p code lo hi).pp = c.pp := rfl
@[simp] theorem pageErr_det (c : Core) (p code lo hi : Nat) : (pageErr c p code lo hi).det = c.det := rfl
@[simp] theorem pageErr_ras (c : Core) (p code lo hi : Nat) : (pageErr c p code lo hi).ras = c.ras := rfl
@[simp] theorem pageErr_pmu (c : Core) (p code lo hi : Nat) : (pageErr c p code lo hi).pmu = c.pmu := rfl
@[simp] theorem pageErr_trc (c : Core) (p code lo hi : Nat) : (pageErr c p code lo hi).trc = c.trc := rfl
@[simp] theorem pageErr_dbg (c : Core) (p code lo hi : Nat) : (pageErr c p code lo hi).dbg = c.dbg := rfl
@[simp] theorem pageErr_tclk (c : Core) (p code lo hi : Nat) : (pageErr c p code lo hi).tclk = c.tclk := rfl
@[simp] theorem pageErr_free (c : Core) (p code lo hi : Nat) : (pageErr c p code lo hi).free = c.free := rfl
@[simp] theorem pageErr_rstReq (c : Core) (p code lo hi : Nat) : (pageErr c p code lo hi).rstReq = c.rstReq := rfl
@[simp] theorem pageErr_fatalReq (c : Core) (p code lo hi : Nat) : (pageErr c p code lo hi).fatalReq = c.fatalReq := rfl
@[simp] theorem getQ_pageErr (c : Core) (p code lo hi : Nat) (j : Nat) : getQ (pageErr c p code lo hi) j = getQ c j := rfl
@[simp] theorem getCtx_pageErr (c : Core) (p code lo hi : Nat) (j : Nat) : getCtx (pageErr c p code lo hi) j = getCtx c j := rfl
@[simp] theorem getSq_pageErr (c : Core) (p code lo hi : Nat) (j : Nat) : getSq (pageErr c p code lo hi) j = getSq c j := rfl
@[simp] theorem getLane_pageErr (c : Core) (p code lo hi : Nat) (j : Nat) : getLane (pageErr c p code lo hi) j = getLane c j := rfl
@[simp] theorem getEng_pageErr (c : Core) (p code lo hi : Nat) (j : Nat) : getEng (pageErr c p code lo hi) j = getEng c j := rfl
@[simp] theorem getInst_pageErr (c : Core) (p code lo hi : Nat) (j : Nat) : getInst (pageErr c p code lo hi) j = getInst c j := rfl
@[simp] theorem getImg_pageErr (c : Core) (p code lo hi : Nat) (j : Nat) : getImg (pageErr c p code lo hi) j = getImg c j := rfl
@[simp] theorem getBlock_pageErr (c : Core) (p code lo hi : Nat) (j : Nat) : getBlock (pageErr c p code lo hi) j = getBlock c j := rfl
@[simp] theorem getObj_pageErr (c : Core) (p code lo hi : Nat) (j : Nat) : getObj (pageErr c p code lo hi) j = getObj c j := rfl
@[simp] theorem getRxq_pageErr (c : Core) (p code lo hi : Nat) (j : Nat) : getRxq (pageErr c p code lo hi) j = getRxq c j := rfl
@[simp] theorem getCq_pageErr (c : Core) (p code lo hi : Nat) (j : Nat) : getCq (pageErr c p code lo hi) j = getCq c j := rfl
@[simp] theorem getPeer_pageErr (c : Core) (p code lo hi : Nat) (j : Nat) : getPeer (pageErr c p code lo hi) j = getPeer c j := rfl
@[simp] theorem getStream_pageErr (c : Core) (p code lo hi : Nat) (j : Nat) : getStream (pageErr c p code lo hi) j = getStream c j := rfl
@[simp] theorem getPre_pageErr (c : Core) (p code lo hi : Nat) (j : Nat) : getPre (pageErr c p code lo hi) j = getPre c j := rfl
@[simp] theorem getSched_pageErr (c : Core) (p code lo hi : Nat) (j : Nat) : getSched (pageErr c p code lo hi) j = getSched c j := rfl
@[simp] theorem getGroup_pageErr (c : Core) (p code lo hi : Nat) (j : Nat) : getGroup (pageErr c p code lo hi) j = getGroup c j := rfl

/-! ## From `SameBut` to the fields -/

theorem SameBut.io_eq ⦃w : List Part⦄ ⦃a b : Core⦄ (h : SameBut w a b) (n : Part.io ∉ w) : b.io = a.io := ((h .io).resolve_left n).symm
theorem SameBut.bring_eq ⦃w : List Part⦄ ⦃a b : Core⦄ (h : SameBut w a b) (n : Part.bring ∉ w) : b.bring = a.bring := ((h .bring).resolve_left n).symm
theorem SameBut.engs_eq ⦃w : List Part⦄ ⦃a b : Core⦄ (h : SameBut w a b) (n : Part.engs ∉ w) : b.engs = a.engs := ((h .engs).resolve_left n).symm
theorem SameBut.lanesUp_eq ⦃w : List Part⦄ ⦃a b : Core⦄ (h : SameBut w a b) (n : Part.lanesUp ∉ w) : b.lanesUp = a.lanesUp := ((h .lanesUp).resolve_left n).symm
theorem SameBut.sic_eq ⦃w : List Part⦄ ⦃a b : Core⦄ (h : SameBut w a b) (n : Part.sic ∉ w) : b.sic = a.sic := ((h .sic).resolve_left n).symm
theorem SameBut.qsc_eq ⦃w : List Part⦄ ⦃a b : Core⦄ (h : SameBut w a b) (n : Part.qsc ∉ w) : b.qsc = a.qsc := ((h .qsc).resolve_left n).symm
theorem SameBut.fe_eq ⦃w : List Part⦄ ⦃a b : Core⦄ (h : SameBut w a b) (n : Part.fe ∉ w) : b.fe = a.fe := ((h .fe).resolve_left n).symm
theorem SameBut.queues_eq ⦃w : List Part⦄ ⦃a b : Core⦄ (h : SameBut w a b) (n : Part.queues ∉ w) : b.queues = a.queues := ((h .queues).resolve_left n).symm
theorem SameBut.ctxs_eq ⦃w : List Part⦄ ⦃a b : Core⦄ (h : SameBut w a b) (n : Part.ctxs ∉ w) : b.ctxs = a.ctxs := ((h .ctxs).resolve_left n).symm
theorem SameBut.sqs_eq ⦃w : List Part⦄ ⦃a b : Core⦄ (h : SameBut w a b) (n : Part.sqs ∉ w) : b.sqs = a.sqs := ((h .sqs).resolve_left n).symm
theorem SameBut.gs_eq ⦃w : List Part⦄ ⦃a b : Core⦄ (h : SameBut w a b) (n : Part.gs ∉ w) : b.gs = a.gs := ((h .gs).resolve_left n).symm
theorem SameBut.isr_eq ⦃w : List Part⦄ ⦃a b : Core⦄ (h : SameBut w a b) (n : Part.isr ∉ w) : b.isr = a.isr := ((h .isr).resolve_left n).symm
theorem SameBut.de_eq ⦃w : List Part⦄ ⦃a b : Core⦄ (h : SameBut w a b) (n : Part.de ∉ w) : b.de = a.de := ((h .de).resolve_left n).symm
theorem SameBut.lanes_eq ⦃w : List Part⦄ ⦃a b : Core⦄ (h : SameBut w a b) (n : Part.lanes ∉ w) : b.lanes = a.lanes := ((h .lanes).resolve_left n).symm
theorem SameBut.st_eq ⦃w : List Part⦄ ⦃a b : Core⦄ (h : SameBut w a b) (n : Part.st ∉ w) : b.st = a.st := ((h .st).resolve_left n).symm
theorem SameBut.lehr_eq ⦃w : List Part⦄ ⦃a b : Core⦄ (h : SameBut w a b) (n : Part.lehr ∉ w) : b.lehr = a.lehr := ((h .lehr).resolve_left n).symm
theorem SameBut.mf_eq ⦃w : List Part⦄ ⦃a b : Core⦄ (h : SameBut w a b) (n : Part.mf ∉ w) : b.mf = a.mf := ((h .mf).resolve_left n).symm
theorem SameBut.cru_eq ⦃w : List Part⦄ ⦃a b : Core⦄ (h : SameBut w a b) (n : Part.cru ∉ w) : b.cru = a.cru := ((h .cru).resolve_left n).symm
theorem SameBut.sched_eq ⦃w : List Part⦄ ⦃a b : Core⦄ (h : SameBut w a b) (n : Part.sched ∉ w) : b.sched = a.sched := ((h .sched).resolve_left n).symm
theorem SameBut.marv_eq ⦃w : List Part⦄ ⦃a b : Core⦄ (h : SameBut w a b) (n : Part.marv ∉ w) : b.marv = a.marv := ((h .marv).resolve_left n).symm
theorem SameBut.tu_eq ⦃w : List Part⦄ ⦃a b : Core⦄ (h : SameBut w a b) (n : Part.tu ∉ w) : b.tu = a.tu := ((h .tu).resolve_left n).symm
theorem SameBut.shr_eq ⦃w : List Part⦄ ⦃a b : Core⦄ (h : SameBut w a b) (n : Part.shr ∉ w) : b.shr = a.shr := ((h .shr).resolve_left n).symm
theorem SameBut.lkp_eq ⦃w : List Part⦄ ⦃a b : Core⦄ (h : SameBut w a b) (n : Part.lkp ∉ w) : b.lkp = a.lkp := ((h .lkp).resolve_left n).symm
theorem SameBut.strm_eq ⦃w : List Part⦄ ⦃a b : Core⦄ (h : SameBut w a b) (n : Part.strm ∉ w) : b.strm = a.strm := ((h .strm).resolve_left n).symm
theorem SameBut.tbl_eq ⦃w : List Part⦄ ⦃a b : Core⦄ (h : SameBut w a b) (n : Part.tbl ∉ w) : b.tbl = a.tbl := ((h .tbl).resolve_left n).symm
theorem SameBut.pp_eq ⦃w : List Part⦄ ⦃a b : Core⦄ (h : SameBut w a b) (n : Part.pp ∉ w) : b.pp = a.pp := ((h .pp).resolve_left n).symm
theorem SameBut.det_eq ⦃w : List Part⦄ ⦃a b : Core⦄ (h : SameBut w a b) (n : Part.det ∉ w) : b.det = a.det := ((h .det).resolve_left n).symm
theorem SameBut.ras_eq ⦃w : List Part⦄ ⦃a b : Core⦄ (h : SameBut w a b) (n : Part.ras ∉ w) : b.ras = a.ras := ((h .ras).resolve_left n).symm
theorem SameBut.pmu_eq ⦃w : List Part⦄ ⦃a b : Core⦄ (h : SameBut w a b) (n : Part.pmu ∉ w) : b.pmu = a.pmu := ((h .pmu).resolve_left n).symm
theorem SameBut.trc_eq ⦃w : List Part⦄ ⦃a b : Core⦄ (h : SameBut w a b) (n : Part.trc ∉ w) : b.trc = a.trc := ((h .trc).resolve_left n).symm
theorem SameBut.dbg_eq ⦃w : List Part⦄ ⦃a b : Core⦄ (h : SameBut w a b) (n : Part.dbg ∉ w) : b.dbg = a.dbg := ((h .dbg).resolve_left n).symm
theorem SameBut.tclk_eq ⦃w : List Part⦄ ⦃a b : Core⦄ (h : SameBut w a b) (n : Part.tclk ∉ w) : b.tclk = a.tclk := ((h .tclk).resolve_left n).symm
theorem SameBut.free_eq ⦃w : List Part⦄ ⦃a b : Core⦄ (h : SameBut w a b) (n : Part.free ∉ w) : b.free = a.free := ((h .free).resolve_left n).symm
theorem SameBut.rstReq_eq ⦃w : List Part⦄ ⦃a b : Core⦄ (h : SameBut w a b) (n : Part.rstReq ∉ w) : b.rstReq = a.rstReq := ((h .rstReq).resolve_left n).symm
theorem SameBut.fatalReq_eq ⦃w : List Part⦄ ⦃a b : Core⦄ (h : SameBut w a b) (n : Part.fatalReq ∉ w) : b.fatalReq = a.fatalReq := ((h .fatalReq).resolve_left n).symm
theorem SameBut.regs_eq ⦃w : List Part⦄ ⦃a b : Core⦄ (h : SameBut w a b) (n : Part.rsRegs ∉ w) : b.rs.regs = a.rs.regs := ((h .rsRegs).resolve_left n).symm
theorem SameBut.shadow_eq ⦃w : List Part⦄ ⦃a b : Core⦄ (h : SameBut w a b) (n : Part.rsShadow ∉ w) : b.rs.shadow = a.rs.shadow := ((h .rsShadow).resolve_left n).symm
theorem SameBut.cnts_eq ⦃w : List Part⦄ ⦃a b : Core⦄ (h : SameBut w a b) (n : Part.rsCnts ∉ w) : b.rs.cnts = a.rs.cnts := ((h .rsCnts).resolve_left n).symm
theorem SameBut.pages_eq ⦃w : List Part⦄ ⦃a b : Core⦄ (h : SameBut w a b) (n : Part.rsPages ∉ w) : b.rs.pages = a.rs.pages := ((h .rsPages).resolve_left n).symm

/-! ## The event messages of a step -/

theorem eventMsgs_same (c d : Core) : SameBut [.io] d (eventMsgs c d) := eventMsgs_keeps _ _ _ _ (List.Subset.refl _) (SameBut.refl _ _)

@[simp] theorem eventMsgs_bring (c d : Core) : (eventMsgs c d).bring = d.bring := (eventMsgs_same c d).bring_eq (by decide)
@[simp] theorem eventMsgs_engs (c d : Core) : (eventMsgs c d).engs = d.engs := (eventMsgs_same c d).engs_eq (by decide)
@[simp] theorem eventMsgs_lanesUp (c d : Core) : (eventMsgs c d).lanesUp = d.lanesUp := (eventMsgs_same c d).lanesUp_eq (by decide)
@[simp] theorem eventMsgs_sic (c d : Core) : (eventMsgs c d).sic = d.sic := (eventMsgs_same c d).sic_eq (by decide)
@[simp] theorem eventMsgs_qsc (c d : Core) : (eventMsgs c d).qsc = d.qsc := (eventMsgs_same c d).qsc_eq (by decide)
@[simp] theorem eventMsgs_fe (c d : Core) : (eventMsgs c d).fe = d.fe := (eventMsgs_same c d).fe_eq (by decide)
@[simp] theorem eventMsgs_queues (c d : Core) : (eventMsgs c d).queues = d.queues := (eventMsgs_same c d).queues_eq (by decide)
@[simp] theorem eventMsgs_ctxs (c d : Core) : (eventMsgs c d).ctxs = d.ctxs := (eventMsgs_same c d).ctxs_eq (by decide)
@[simp] theorem eventMsgs_sqs (c d : Core) : (eventMsgs c d).sqs = d.sqs := (eventMsgs_same c d).sqs_eq (by decide)
@[simp] theorem eventMsgs_gs (c d : Core) : (eventMsgs c d).gs = d.gs := (eventMsgs_same c d).gs_eq (by decide)
@[simp] theorem eventMsgs_isr (c d : Core) : (eventMsgs c d).isr = d.isr := (eventMsgs_same c d).isr_eq (by decide)
@[simp] theorem eventMsgs_de (c d : Core) : (eventMsgs c d).de = d.de := (eventMsgs_same c d).de_eq (by decide)
@[simp] theorem eventMsgs_lanes (c d : Core) : (eventMsgs c d).lanes = d.lanes := (eventMsgs_same c d).lanes_eq (by decide)
@[simp] theorem eventMsgs_st (c d : Core) : (eventMsgs c d).st = d.st := (eventMsgs_same c d).st_eq (by decide)
@[simp] theorem eventMsgs_lehr (c d : Core) : (eventMsgs c d).lehr = d.lehr := (eventMsgs_same c d).lehr_eq (by decide)
@[simp] theorem eventMsgs_mf (c d : Core) : (eventMsgs c d).mf = d.mf := (eventMsgs_same c d).mf_eq (by decide)
@[simp] theorem eventMsgs_cru (c d : Core) : (eventMsgs c d).cru = d.cru := (eventMsgs_same c d).cru_eq (by decide)
@[simp] theorem eventMsgs_sched (c d : Core) : (eventMsgs c d).sched = d.sched := (eventMsgs_same c d).sched_eq (by decide)
@[simp] theorem eventMsgs_marv (c d : Core) : (eventMsgs c d).marv = d.marv := (eventMsgs_same c d).marv_eq (by decide)
@[simp] theorem eventMsgs_tu (c d : Core) : (eventMsgs c d).tu = d.tu := (eventMsgs_same c d).tu_eq (by decide)
@[simp] theorem eventMsgs_shr (c d : Core) : (eventMsgs c d).shr = d.shr := (eventMsgs_same c d).shr_eq (by decide)
@[simp] theorem eventMsgs_lkp (c d : Core) : (eventMsgs c d).lkp = d.lkp := (eventMsgs_same c d).lkp_eq (by decide)
@[simp] theorem eventMsgs_strm (c d : Core) : (eventMsgs c d).strm = d.strm := (eventMsgs_same c d).strm_eq (by decide)
@[simp] theorem eventMsgs_tbl (c d : Core) : (eventMsgs c d).tbl = d.tbl := (eventMsgs_same c d).tbl_eq (by decide)
@[simp] theorem eventMsgs_pp (c d : Core) : (eventMsgs c d).pp = d.pp := (eventMsgs_same c d).pp_eq (by decide)
@[simp] theorem eventMsgs_det (c d : Core) : (eventMsgs c d).det = d.det := (eventMsgs_same c d).det_eq (by decide)
@[simp] theorem eventMsgs_ras (c d : Core) : (eventMsgs c d).ras = d.ras := (eventMsgs_same c d).ras_eq (by decide)
@[simp] theorem eventMsgs_pmu (c d : Core) : (eventMsgs c d).pmu = d.pmu := (eventMsgs_same c d).pmu_eq (by decide)
@[simp] theorem eventMsgs_trc (c d : Core) : (eventMsgs c d).trc = d.trc := (eventMsgs_same c d).trc_eq (by decide)
@[simp] theorem eventMsgs_dbg (c d : Core) : (eventMsgs c d).dbg = d.dbg := (eventMsgs_same c d).dbg_eq (by decide)
@[simp] theorem eventMsgs_tclk (c d : Core) : (eventMsgs c d).tclk = d.tclk := (eventMsgs_same c d).tclk_eq (by decide)
@[simp] theorem eventMsgs_free (c d : Core) : (eventMsgs c d).free = d.free := (eventMsgs_same c d).free_eq (by decide)
@[simp] theorem eventMsgs_rstReq (c d : Core) : (eventMsgs c d).rstReq = d.rstReq := (eventMsgs_same c d).rstReq_eq (by decide)
@[simp] theorem eventMsgs_fatalReq (c d : Core) : (eventMsgs c d).fatalReq = d.fatalReq := (eventMsgs_same c d).fatalReq_eq (by decide)
@[simp] theorem sendEvent_rs (c : Core) (p : Nat) : (sendEvent c p).rs = c.rs := by
  unfold sendEvent; split
  · rfl
  · unfold intMsg; simp only []; split <;> rfl

theorem sendEvents_rs (l : List Nat) (c : Core) : (l.foldl sendEvent c).rs = c.rs := by
  induction l generalizing c with
  | nil => rfl
  | cons p l ih => simp [ih]

@[simp] theorem eventMsgs_rs (c d : Core) : (eventMsgs c d).rs = d.rs := by
  unfold eventMsgs; simp only []; split
  · exact sendEvents_rs _ _
  · rfl

@[simp] theorem getQ_eventMsgs (c d : Core) (j : Nat) : getQ (eventMsgs c d) j = getQ d j := by simp only [getQ, eventMsgs_queues]
@[simp] theorem getCtx_eventMsgs (c d : Core) (j : Nat) : getCtx (eventMsgs c d) j = getCtx d j := by simp only [getCtx, eventMsgs_ctxs]
@[simp] theorem getSq_eventMsgs (c d : Core) (j : Nat) : getSq (eventMsgs c d) j = getSq d j := by simp only [getSq, eventMsgs_sqs]
@[simp] theorem getLane_eventMsgs (c d : Core) (j : Nat) : getLane (eventMsgs c d) j = getLane d j := by simp only [getLane, eventMsgs_lanes]
@[simp] theorem getEng_eventMsgs (c d : Core) (j : Nat) : getEng (eventMsgs c d) j = getEng d j := by simp only [getEng, eventMsgs_engs]
@[simp] theorem getInst_eventMsgs (c d : Core) (j : Nat) : getInst (eventMsgs c d) j = getInst d j := by simp only [getInst, eventMsgs_isr]
@[simp] theorem getImg_eventMsgs (c d : Core) (j : Nat) : getImg (eventMsgs c d) j = getImg d j := by simp only [getImg, eventMsgs_gs]
@[simp] theorem getBlock_eventMsgs (c d : Core) (j : Nat) : getBlock (eventMsgs c d) j = getBlock d j := by simp only [getBlock, eventMsgs_gs]
@[simp] theorem getObj_eventMsgs (c d : Core) (j : Nat) : getObj (eventMsgs c d) j = getObj d j := by simp only [getObj, eventMsgs_st]
@[simp] theorem getRxq_eventMsgs (c d : Core) (j : Nat) : getRxq (eventMsgs c d) j = getRxq d j := by simp only [getRxq, eventMsgs_mf]
@[simp] theorem getCq_eventMsgs (c d : Core) (j : Nat) : getCq (eventMsgs c d) j = getCq d j := by simp only [getCq, eventMsgs_cru]
@[simp] theorem getPeer_eventMsgs (c d : Core) (j : Nat) : getPeer (eventMsgs c d) j = getPeer d j := by simp only [getPeer, eventMsgs_pp]
@[simp] theorem getStream_eventMsgs (c d : Core) (j : Nat) : getStream (eventMsgs c d) j = getStream d j := by simp only [getStream, eventMsgs_strm]
@[simp] theorem getPre_eventMsgs (c d : Core) (j : Nat) : getPre (eventMsgs c d) j = getPre d j := by simp only [getPre, eventMsgs_sched]
@[simp] theorem getSched_eventMsgs (c d : Core) (j : Nat) : getSched (eventMsgs c d) j = getSched d j := by simp only [getSched, eventMsgs_sched]
@[simp] theorem getGroup_eventMsgs (c d : Core) (j : Nat) : getGroup (eventMsgs c d) j = getGroup d j := by simp only [getGroup, eventMsgs_shr]
@[simp] theorem getPage_eventMsgs (c d : Core) (j : Nat) : getPage (eventMsgs c d) j = getPage d j := by simp only [getPage, eventMsgs_rs]
@[simp] theorem act_bring (s : State) (f : Core → Core) : (s.act f).core.bring = (f s.core).bring := eventMsgs_bring _ _
@[simp] theorem act_engs (s : State) (f : Core → Core) : (s.act f).core.engs = (f s.core).engs := eventMsgs_engs _ _
@[simp] theorem act_lanesUp (s : State) (f : Core → Core) : (s.act f).core.lanesUp = (f s.core).lanesUp := eventMsgs_lanesUp _ _
@[simp] theorem act_sic (s : State) (f : Core → Core) : (s.act f).core.sic = (f s.core).sic := eventMsgs_sic _ _
@[simp] theorem act_rs (s : State) (f : Core → Core) : (s.act f).core.rs = (f s.core).rs := eventMsgs_rs _ _
@[simp] theorem act_qsc (s : State) (f : Core → Core) : (s.act f).core.qsc = (f s.core).qsc := eventMsgs_qsc _ _
@[simp] theorem act_fe (s : State) (f : Core → Core) : (s.act f).core.fe = (f s.core).fe := eventMsgs_fe _ _
@[simp] theorem act_queues (s : State) (f : Core → Core) : (s.act f).core.queues = (f s.core).queues := eventMsgs_queues _ _
@[simp] theorem act_ctxs (s : State) (f : Core → Core) : (s.act f).core.ctxs = (f s.core).ctxs := eventMsgs_ctxs _ _
@[simp] theorem act_sqs (s : State) (f : Core → Core) : (s.act f).core.sqs = (f s.core).sqs := eventMsgs_sqs _ _
@[simp] theorem act_gs (s : State) (f : Core → Core) : (s.act f).core.gs = (f s.core).gs := eventMsgs_gs _ _
@[simp] theorem act_isr (s : State) (f : Core → Core) : (s.act f).core.isr = (f s.core).isr := eventMsgs_isr _ _
@[simp] theorem act_de (s : State) (f : Core → Core) : (s.act f).core.de = (f s.core).de := eventMsgs_de _ _
@[simp] theorem act_lanes (s : State) (f : Core → Core) : (s.act f).core.lanes = (f s.core).lanes := eventMsgs_lanes _ _
@[simp] theorem act_st (s : State) (f : Core → Core) : (s.act f).core.st = (f s.core).st := eventMsgs_st _ _
@[simp] theorem act_lehr (s : State) (f : Core → Core) : (s.act f).core.lehr = (f s.core).lehr := eventMsgs_lehr _ _
@[simp] theorem act_mf (s : State) (f : Core → Core) : (s.act f).core.mf = (f s.core).mf := eventMsgs_mf _ _
@[simp] theorem act_cru (s : State) (f : Core → Core) : (s.act f).core.cru = (f s.core).cru := eventMsgs_cru _ _
@[simp] theorem act_sched (s : State) (f : Core → Core) : (s.act f).core.sched = (f s.core).sched := eventMsgs_sched _ _
@[simp] theorem act_marv (s : State) (f : Core → Core) : (s.act f).core.marv = (f s.core).marv := eventMsgs_marv _ _
@[simp] theorem act_tu (s : State) (f : Core → Core) : (s.act f).core.tu = (f s.core).tu := eventMsgs_tu _ _
@[simp] theorem act_shr (s : State) (f : Core → Core) : (s.act f).core.shr = (f s.core).shr := eventMsgs_shr _ _
@[simp] theorem act_lkp (s : State) (f : Core → Core) : (s.act f).core.lkp = (f s.core).lkp := eventMsgs_lkp _ _
@[simp] theorem act_strm (s : State) (f : Core → Core) : (s.act f).core.strm = (f s.core).strm := eventMsgs_strm _ _
@[simp] theorem act_tbl (s : State) (f : Core → Core) : (s.act f).core.tbl = (f s.core).tbl := eventMsgs_tbl _ _
@[simp] theorem act_pp (s : State) (f : Core → Core) : (s.act f).core.pp = (f s.core).pp := eventMsgs_pp _ _
@[simp] theorem act_det (s : State) (f : Core → Core) : (s.act f).core.det = (f s.core).det := eventMsgs_det _ _
@[simp] theorem act_ras (s : State) (f : Core → Core) : (s.act f).core.ras = (f s.core).ras := eventMsgs_ras _ _
@[simp] theorem act_pmu (s : State) (f : Core → Core) : (s.act f).core.pmu = (f s.core).pmu := eventMsgs_pmu _ _
@[simp] theorem act_trc (s : State) (f : Core → Core) : (s.act f).core.trc = (f s.core).trc := eventMsgs_trc _ _
@[simp] theorem act_dbg (s : State) (f : Core → Core) : (s.act f).core.dbg = (f s.core).dbg := eventMsgs_dbg _ _
@[simp] theorem act_tclk (s : State) (f : Core → Core) : (s.act f).core.tclk = (f s.core).tclk := eventMsgs_tclk _ _
@[simp] theorem act_free (s : State) (f : Core → Core) : (s.act f).core.free = (f s.core).free := eventMsgs_free _ _
@[simp] theorem act_rstReq (s : State) (f : Core → Core) : (s.act f).core.rstReq = (f s.core).rstReq := eventMsgs_rstReq _ _
@[simp] theorem act_fatalReq (s : State) (f : Core → Core) : (s.act f).core.fatalReq = (f s.core).fatalReq := eventMsgs_fatalReq _ _
@[simp] theorem getQ_act (s : State) (f : Core → Core) (j : Nat) : getQ (s.act f).core j = getQ (f s.core) j := getQ_eventMsgs _ _ _
@[simp] theorem getCtx_act (s : State) (f : Core → Core) (j : Nat) : getCtx (s.act f).core j = getCtx (f s.core) j := getCtx_eventMsgs _ _ _
@[simp] theorem getSq_act (s : State) (f : Core → Core) (j : Nat) : getSq (s.act f).core j = getSq (f s.core) j := getSq_eventMsgs _ _ _
@[simp] theorem getLane_act (s : State) (f : Core → Core) (j : Nat) : getLane (s.act f).core j = getLane (f s.core) j := getLane_eventMsgs _ _ _
@[simp] theorem getEng_act (s : State) (f : Core → Core) (j : Nat) : getEng (s.act f).core j = getEng (f s.core) j := getEng_eventMsgs _ _ _
@[simp] theorem getInst_act (s : State) (f : Core → Core) (j : Nat) : getInst (s.act f).core j = getInst (f s.core) j := getInst_eventMsgs _ _ _
@[simp] theorem getImg_act (s : State) (f : Core → Core) (j : Nat) : getImg (s.act f).core j = getImg (f s.core) j := getImg_eventMsgs _ _ _
@[simp] theorem getBlock_act (s : State) (f : Core → Core) (j : Nat) : getBlock (s.act f).core j = getBlock (f s.core) j := getBlock_eventMsgs _ _ _
@[simp] theorem getObj_act (s : State) (f : Core → Core) (j : Nat) : getObj (s.act f).core j = getObj (f s.core) j := getObj_eventMsgs _ _ _
@[simp] theorem getRxq_act (s : State) (f : Core → Core) (j : Nat) : getRxq (s.act f).core j = getRxq (f s.core) j := getRxq_eventMsgs _ _ _
@[simp] theorem getCq_act (s : State) (f : Core → Core) (j : Nat) : getCq (s.act f).core j = getCq (f s.core) j := getCq_eventMsgs _ _ _
@[simp] theorem getPeer_act (s : State) (f : Core → Core) (j : Nat) : getPeer (s.act f).core j = getPeer (f s.core) j := getPeer_eventMsgs _ _ _
@[simp] theorem getStream_act (s : State) (f : Core → Core) (j : Nat) : getStream (s.act f).core j = getStream (f s.core) j := getStream_eventMsgs _ _ _
@[simp] theorem getPre_act (s : State) (f : Core → Core) (j : Nat) : getPre (s.act f).core j = getPre (f s.core) j := getPre_eventMsgs _ _ _
@[simp] theorem getSched_act (s : State) (f : Core → Core) (j : Nat) : getSched (s.act f).core j = getSched (f s.core) j := getSched_eventMsgs _ _ _
@[simp] theorem getGroup_act (s : State) (f : Core → Core) (j : Nat) : getGroup (s.act f).core j = getGroup (f s.core) j := getGroup_eventMsgs _ _ _
@[simp] theorem getPage_act (s : State) (f : Core → Core) (j : Nat) : getPage (s.act f).core j = getPage (f s.core) j := getPage_eventMsgs _ _ _
@[simp] theorem regCur_act (s : State) (f : Core → Core) (p off : Nat) : regCur (s.act f).core p off = regCur (f s.core) p off := by
  simp only [regCur, act_rs]
@[simp] theorem cntGet_act (s : State) (f : Core → Core) (p off : Nat) : cntGet (s.act f).core p off = cntGet (f s.core) p off := by
  simp only [cntGet, act_rs]
@[simp] theorem act_pending (s : State) (f : Core → Core) : (s.act f).pending = s.pending := rfl
@[simp] theorem act_rst (s : State) (f : Core → Core) : (s.act f).rst = s.rst := rfl
@[simp] theorem act_pins (s : State) (f : Core → Core) : (s.act f).pins = s.pins := rfl
@[simp] theorem act_mbist (s : State) (f : Core → Core) : (s.act f).mbist = s.mbist := rfl

theorem act_same (s : State) (f : Core → Core) (w : List Part) (h : SameBut w s.core (f s.core)) (m : [Part.io] ⊆ w) :
    SameBut w s.core (s.act f).core := eventMsgs_keeps _ _ _ _ m h

theorem act_keeps (s : State) (f : Core → Core) (w : List Part) (h : SameBut w s.core (f s.core)) (m : [Part.io] ⊆ w) :
    Keeps s (s.act f) w := ⟨rfl, rfl, rfl, rfl, act_same s f w h m⟩

theorem mission_next (f : Core → Core) (s : State) (h : s.runs = true) : mission f s = .next (s.act f) := by simp [mission, h]

theorem mission_still (f : Core → Core) (s : State) (h : s.runs = false) : mission f s = .next s := by simp [mission, h]

theorem mission_keeps (f : Core → Core) (s t : State) (w : List Part) (e : mission f s = .next t)
    (h : SameBut w s.core (f s.core)) (m : [Part.io] ⊆ w) : Keeps s t w := by
  unfold mission at e
  split at e
  · cases e; exact act_keeps s f w h m
  · cases e; exact ⟨rfl, rfl, rfl, rfl, SameBut.refl _ _⟩

theorem mission_rst (f : Core → Core) (s t : State) (e : mission f s = .next t) :
    t.rst = s.rst ∧ t.pending = s.pending ∧ t.pins = s.pins ∧ t.mbist = s.mbist := by
  unfold mission at e; split at e <;> cases e <;> exact ⟨rfl, rfl, rfl, rfl⟩

theorem missionReset_cases (f : Core → Core) (s : State) :
    (s.runs = false ∧ missionReset f s = .next s) ∨
    (s.runs = true ∧ (f s.core).rstReq = none ∧ missionReset f s = .next (s.act f)) ∨
    (∃ cause, s.runs = true ∧ (f s.core).rstReq = some cause ∧
      missionReset f s = .next (startReset { s with core := f s.core } cause (f s.core).fatalReq)) := by
  unfold missionReset
  split
  · exact Or.inr (Or.inr ⟨_, by assumption, by assumption, rfl⟩)
  · exact Or.inr (Or.inl ⟨by assumption, by assumption, rfl⟩)
  · exact Or.inl ⟨by assumption, rfl⟩

theorem eventMsgs_out (c d : Core) : (eventMsgs c d).io.out = d.io.out ∧ (eventMsgs c d).io.heldOut = d.io.heldOut := by
  have h (l : List Nat) (b : Core) : (l.foldl sendEvent b).io.out = b.io.out ∧ (l.foldl sendEvent b).io.heldOut = b.io.heldOut := by
    induction l generalizing b with
    | nil => exact ⟨rfl, rfl⟩
    | cons p l ih =>
      have g : (sendEvent b p).io.out = b.io.out ∧ (sendEvent b p).io.heldOut = b.io.heldOut := by
        unfold sendEvent; split
        · exact ⟨rfl, rfl⟩
        · unfold intMsg; simp only []; split <;> exact ⟨rfl, rfl⟩
      exact ⟨(ih _).1.trans g.1, (ih _).2.trans g.2⟩
  unfold eventMsgs; simp only []; split
  · exact h _ _
  · exact ⟨rfl, rfl⟩

@[simp] theorem act_out (s : State) (f : Core → Core) : (s.act f).core.io.out = (f s.core).io.out := (eventMsgs_out _ _).1

@[simp] theorem act_heldOut (s : State) (f : Core → Core) : (s.act f).core.io.heldOut = (f s.core).io.heldOut := (eventMsgs_out _ _).2

/-- Event messages only add requests behind those that an effect leaves. -/
theorem eventMsgs_reqs (c d : Core) : ∃ l m, (eventMsgs c d).io.reqs = d.io.reqs ++ l ∧ (eventMsgs c d).io.heldReqs = d.io.heldReqs ++ m := by
  have h (l : List Nat) (b : Core) : ∃ x m, (l.foldl sendEvent b).io.reqs = b.io.reqs ++ x ∧ (l.foldl sendEvent b).io.heldReqs = b.io.heldReqs ++ m := by
    induction l generalizing b with
    | nil => exact ⟨[], [], by simp, by simp⟩
    | cons p l ih =>
      obtain ⟨x, m, hx, hm⟩ := ih (sendEvent b p)
      have g : ∃ x m, (sendEvent b p).io.reqs = b.io.reqs ++ x ∧ (sendEvent b p).io.heldReqs = b.io.heldReqs ++ m := by
        unfold sendEvent; split
        · exact ⟨[], [], by simp, by simp⟩
        · unfold intMsg; simp only []; split
          · exact ⟨[], _, by simp, rfl⟩
          · exact ⟨_, [], rfl, by simp⟩
      obtain ⟨y, n, hy, hn⟩ := g
      exact ⟨y ++ x, n ++ m, by simp [hx, hy], by simp [hm, hn]⟩
  unfold eventMsgs; simp only []; split
  · exact h _ _
  · exact ⟨[], [], by simp, by simp⟩

theorem act_reqs (s : State) (f : Core → Core) :
    ∃ l m, (s.act f).core.io.reqs = (f s.core).io.reqs ++ l ∧ (s.act f).core.io.heldReqs = (f s.core).io.heldReqs ++ m :=
  eventMsgs_reqs _ _

theorem regAddr_ne (p q a b : Nat) (ha : a < 0x1000) (hb : b < 0x1000) (h : p ≠ q ∨ a ≠ b) : regAddr p a ≠ regAddr q b := by
  unfold regAddr; omega

@[simp] theorem regCur_regPut_self (c : Core) (p off : Nat) (v : Reg) : regCur (regPut c p off v) p off = v := by
  simp [regCur, regPut]

theorem regCur_regPut_ne (c : Core) (p q off o : Nat) (v : Reg) (h : regAddr q o ≠ regAddr p off) :
    regCur (regPut c p off v) q o = regCur c q o := by
  simp only [regCur, regPut, tget, tfind_tset_ne _ _ _ h]

@[simp] theorem regSet_regs (c : Core) (p off : Nat) (v : Reg) : (regSet c p off v).rs.regs = (regPut c p off v).rs.regs := by
  unfold regSet; simp only []; split <;> rfl

@[simp] theorem regCur_regSet_self (c : Core) (p off : Nat) (v : Reg) : regCur (regSet c p off v) p off = v := by
  have := regCur_regPut_self c p off v
  simpa only [regCur, regSet_regs] using this

theorem regCur_regSet_ne (c : Core) (p q off o : Nat) (v : Reg) (h : regAddr q o ≠ regAddr p off) :
    regCur (regSet c p off v) q o = regCur c q o := by
  have := regCur_regPut_ne c p q off o v h
  simpa only [regCur, regSet_regs] using this

theorem SameBut.regCur_eq ⦃w : List Part⦄ ⦃a b : Core⦄ (h : SameBut w a b) (n : Part.rsRegs ∉ w) (p off : Nat) :
    regCur b p off = regCur a p off := by simp only [regCur, h.regs_eq n]

theorem SameBut.cntGet_eq ⦃w : List Part⦄ ⦃a b : Core⦄ (h : SameBut w a b) (n : Part.rsCnts ∉ w) (p off : Nat) :
    cntGet b p off = cntGet a p off := by simp only [cntGet, h.cnts_eq n]

theorem SameBut.getPage_eq ⦃w : List Part⦄ ⦃a b : Core⦄ (h : SameBut w a b) (n : Part.rsPages ∉ w) (p : Nat) :
    getPage b p = getPage a p := by simp only [getPage, h.pages_eq n]

end Sys2Proof.Machine
end

