-- ==== Sys2Proof/WellFormed.lean ====
section
/-! DEFINITION. Commands that make sense: the data of a response has the length that was asked for, a page named exists, and a
code of an SRAM structure stands in its table.  exec is total and needs none of this; statements that do name it. -/

namespace Sys2Proof

/-- A read answered OK returns so many words; any other answer carries none that count (02, Table 2.4). -/
def lenOk (st : QStatus) (data : List Word) (n : Nat) : Bool := st != .ok || data.length == n

/-- SOURCE codes of the SRAM structures (16, Table 16.2). -/
def sramName (src : Nat) : Bool := decide (1 ≤ src ∧ src ≤ 0x13)

/-- SOURCE codes of the critical control state (16, Table 16.3). -/
def critName (src : Nat) : Bool := decide (0x20 ≤ src ∧ src ≤ 0x2B)

/-- Pages whose FIFO window has the commands of the table: the SCHED page's late launches and the error log (04, R188). -/
def fifoPage (page : Nat) : Bool := decide (page = Machine.pgRas ∨ page = Machine.pgSched)

/-- A command is well-formed. -/
def Instr.wellFormed : Instr → Bool
  | .porReset => true
  | .warmReset => true
  | .softRst _ => true
  | .criticalErrorReset src _ _ => critName src.toNat
  | .endOfReset _ _ _ _ _ => true
  | .bringupStageEnd => true
  | .idWordResponse _ _ => true
  | .idWordTimeout _ => true
  | .hbmRecordReadDone _ st data => lenOk st data 8
  | .i3cModuleReadDone module data => data.length == (if module.val < 8 then 64 else 16)
  | .i3cAddressNack _ => true
  | .tallyLoad _ _ => true
  | .tallyStep _ _ _ => true
  | .lockLost => true
  | .ppLinkDown => true
  | .ppLinkResume => true
  | .scanMode _ => true
  | .regWrite _ _ _ _ => true
  | .stageCommit page => (Machine.pageOf page.val).isSome
  | .stageDiscard page => (Machine.pageOf page.val).isSome
  | .errClr page => (Machine.pageOf page.val).isSome
  | .digestUpdate page => match page with | none => true | some p => (Machine.pageOf p.val).isSome
  | .quiesceReq _ => true
  | .quiesceDone => true
  | .quiesceEnd => true
  | .ringTail _ => true
  | .feCtrlEn _ => true
  | .ringFetchDone st data => st != .ok || (decide (0 < data.length) && data.length % 8 == 0)
  | .otReadDone _ st data => lenOk st data 32
  | .otWriteAck _ _ => true
  | .ringNop => true
  | .submit => true
  | .queueCreate => true
  | .queueDestroy => true
  | .queueDestroyDone _ => true
  | .queueReset => true
  | .ctxCreate => true
  | .ctxDestroy => true
  | .objCreate => true
  | .objFree => true
  | .syncCreate => true
  | .rxqCreate => true
  | .slotFree => true
  | .rxqClosed _ => true
  | .partTeardown => true
  | .partCtrlEn _ _ => true
  | .teardownStart => true
  | .teardownEnd _ => true
  | .graphLoad => true
  | .graphLoadDone _ _ => true
  | .graphPatch => true
  | .graphPatchCommit _ _ => true
  | .graphUnload => true
  | .programFetchDone _ _ _ _ => true
  | .arbitrate _ => true
  | .programStart _ => true
  | .progressTimeout _ => true
  | .queueFault _ _ _ _ => true
  | .completionWriteAck _ _ => true
  | .intmsgAck _ _ => true
  | .cookieNotify => true
  | .halt _ => true
  | .fenceOut _ => true
  | .timeoutSet _ => true
  | .preemptPoint _ => true
  | .nop _ => true
  | .launch _ => true
  | .launchAt _ => true
  | .launchAccept => true
  | .compactionDone => true
  | .instanceOpen _ => true
  | .counterInitEnd _ => true
  | .wait _ => true
  | .signal _ => true
  | .add _ => true
  | .patch _ => true
  | .ldshape _ => true
  | .ldshapeData _ st data => lenOk st data 32
  | .stshape _ => true
  | .stshapeAck _ _ => true
  | .sop _ => true
  | .jump _ => true
  | .branch _ => true
  | .route _ => true
  | .mix _ => true
  | .streamArm _ => true
  | .select _ => true
  | .send _ => true
  | .sendAnswer _ => true
  | .sendRetry _ => true
  | .engineCompletion _ _ => true
  | .engineFault _ _ => true
  | .taskHandoff => true
  | .caneCount _ _ => true
  | .instanceRetire _ => true
  | .laneIssue _ => true
  | .steal _ => true
  | .gangGo => true
  | .engineWake _ _ => true
  | .patchBlockLoad _ st data => lenOk st data 64
  | .syncOpApply => true
  | .waiterRelease => true
  | .realignPass => true
  | .lehrSample => true
  | .deadlock _ => true
  | .livelockSend _ => true
  | .livelockRxq _ => true
  | .stuckAbort _ _ => true
  | .lehrEscalate => true
  | .dumpWriteAck _ _ => true
  | .dbgValueLo => true
  | .forceValHi _ => true
  | .messageTake => true
  | .recordWriteAck _ _ _ => true
  | .rxqCtrl _ => true
  | .landWindowWrite _ _ => true
  | .fifoData page => fifoPage page.val
  | .mark page => fifoPage page.val
  | .rewind page => fifoPage page.val
  | .release page => fifoPage page.val
  | .contributionAdd _ _ st data => st != .ok || decide (data.length ≤ 16)
  | .roundRelease _ _ => true
  | .cqCtrlEn _ => true
  | .accountingPeriod => true
  | .deadlineMiss _ => true
  | .launchAtRelease _ => true
  | .tallyWaitRelease _ => true
  | .mixAccept => true
  | .chunkRelease _ _ => true
  | .bubbleFill _ => true
  | .marverAdaptation _ _ _ => true
  | .preemptionSaveWriteAck _ _ => true
  | .restore _ => true
  | .pointLate _ => true
  | .routeCompute _ _ => true
  | .routeLand _ _ => true
  | .routeAgreed _ _ => true
  | .agreeTimeout _ => true
  | .placementEpoch st data => st != .ok || data.isEmpty || data.length == 1024
  | .proposalApply _ => true
  | .grpCfgEn _ => true
  | .streamEntryCheck _ st data => lenOk st data 8
  | .streamTransfer _ => true
  | .streamArmEnd _ => true
  | .seal => true
  | .unseal => true
  | .arm => true
  | .disarm => true
  | .tableFlip => true
  | .epochLoad _ => true
  | .hb _ => true
  | .heartbeatAlarm => true
  | .sequencedFrameReceipt _ => true
  | .ack _ => true
  | .nak _ => true
  | .ackTimer _ => true
  | .retransmitTimeout _ => true
  | .syncOp _ => true
  | .syncRel _ => true
  | .remoteWaitRetry _ => true
  | .syncCancel _ => true
  | .msg _ => true
  | .msgX _ => true
  | .msgAns _ => true
  | .reset _ => true
  | .resetAck _ => true
  | .wrst _ => true
  | .tblPrep _ => true
  | .tblArm _ => true
  | .tblDisarm _ => true
  | .tblAns _ => true
  | .castTimeout => true
  | .lsCtrlEn _ => true
  | .lstep _ => true
  | .lsFlush => true
  | .lsOrphan _ _ => true
  | .sramCorrected src _ _ _ => sramName src.toNat
  | .sramUncorrectable src _ _ _ => sramName src.toNat || critName src.toNat
  | .containmentHoldEnd => true
  | .patrolScrub => true
  | .inj _ => true
  | .snap => true
  | .clear => true
  | .uqSel _ => true
  | .objSel _ => true
  | .traceStage => true
  | .traceFlush => true
  | .traceWriteAck _ => true
  | .trcCtrlEn _ => true
  | .trcMark _ => true
  | .haltReq _ => true
  | .resume _ => true
  | .step _ => true
  | .shapeWrHi _ => true
  | .dbgAddr _ => true
  | .dbgData _ => true
  | .wpMbist _ => true
  | .cgAckRise _ _ => true
  | .initSeqWriteAck _ _ => true
  | .responseWriteAck _ _ => true
  | .headWbAck _ => true
  | .costHeaderRead _ st data => lenOk st data 8
  | .preemptWaitPassed _ => true
  | .countMessageResend _ _ => true
  | .restoreReadDone _ st data => st != .ok || decide (data.length ≤ 896)
  | .patchWriteBackAck _ _ => true
  | .idAreaWriteAck _ _ => true
  | .regRead _ _ => true
  | .badOpcode _ => true

end Sys2Proof
end

/-! PROOFS. HTP accesses that are answered without acting (02, R44-R46, R846). -/
section

namespace Sys2Proof.Machine

/-! ## The two commands, and a command that asks for no reset -/

theorem exec_regRead (addr : BitVec 22) (len : BitVec 6) (s : State) :
    exec (.regRead addr len) s = mission (fun c => htpRead s.rst c addr.toNat len.toNat) s := rfl

theorem exec_regWrite (addr : BitVec 22) (len : BitVec 6) (be : BitVec 4) (v : Reg) (s : State) :
    exec (.regWrite addr len be v) s = missionReset (fun c => htpWrite c addr.toNat len.toNat be v) s := rfl

theorem missionReset_next (f : Core → Core) (s : State) (hruns : s.runs = true) (hreq : (f s.core).rstReq = none) :
    missionReset f s = .next (s.act f) := by simp [missionReset, hruns, hreq]

/-! ## The status of an access, in the order of its checks (02, R846) -/

theorem htpStatus_of_len_ne_zero (addr : Nat) {len : Nat} (beOk : Bool) (hlen : len ≠ 0) :
    htpStatus addr len beOk = .fault := if_pos hlen

theorem htpStatus_of_byte_disabled (addr : Nat) : htpStatus addr 0 false = .fault := rfl

theorem htpStatus_of_no_page {addr : Nat} (hpage : pageOf (slotPage addr) = none) :
    htpStatus addr 0 true = .noTarget := by simp [htpStatus, hpage]

/-! ## An access that is not answered OK only adds its answer -/

@[simp] theorem answerHtp_out (c : Core) (e : PortEvent) : (answerHtp c e).io.out = e :: c.io.out := rfl

@[simp] theorem answerHtp_rstReq (c : Core) (e : PortEvent) : (answerHtp c e).rstReq = c.rstReq := rfl

theorem htpRead_of_not_ok (r : Rst) (c : Core) {addr len : Nat} (hst : htpStatus addr len true ≠ .ok) :
    htpRead r c addr len = answerHtp c (.htpRead addr (htpStatus addr len true) 0) := if_neg hst

theorem htpWrite_of_not_ok (c : Core) {addr len : Nat} {be : BitVec 4} (v : Reg)
    (hst : htpStatus addr len (be == 0xF) ≠ .ok) :
    htpWrite c addr len be v = answerHtp c (.htpWrite addr (htpStatus addr len (be == 0xF))) := by
  simp only [htpWrite, if_neg hst]

/-- An effect that is one answer on the HTP adds that answer to the record of beats and leaves every other part alone. -/
theorem act_answerHtp (s : State) (f : Core → Core) (e : PortEvent) (hf : f s.core = answerHtp s.core e) :
    Keeps s (s.act f) [.io] ∧ (s.act f).core.io.out = e :: s.core.io.out := by
  have hsame : SameBut [.io] s.core (f s.core) := hf ▸ answerHtp_keeps _ _ _ _ (by decide) (SameBut.refl _ _)
  exact ⟨act_keeps s f _ hsame (by decide), by simp [hf]⟩

/-- A READ whose status is not OK drives one beat, with that status and zero data. -/
theorem regRead_not_ok {s : State} {addr : BitVec 22} {len : BitVec 6} {st : QStatus} (hruns : s.runs = true)
    (hst : htpStatus addr.toNat len.toNat true = st) (hne : st ≠ .ok) :
    ∃ t, exec (.regRead addr len) s = .next t ∧ Keeps s t [.io] ∧
      t.core.io.out = .htpRead addr.toNat st 0 :: s.core.io.out := by
  subst hst
  rw [exec_regRead, mission_next _ s hruns]
  exact ⟨_, rfl, act_answerHtp s _ _ (htpRead_of_not_ok s.rst s.core hne)⟩

/-- A WRITE whose status is not OK drives one beat, with that status; it asks for no reset. -/
theorem regWrite_not_ok {s : State} {addr : BitVec 22} {len : BitVec 6} {be : BitVec 4} {st : QStatus} (v : Reg)
    (hruns : s.runs = true) (hreq : s.core.rstReq = none)
    (hst : htpStatus addr.toNat len.toNat (be == 0xF) = st) (hne : st ≠ .ok) :
    ∃ t, exec (.regWrite addr len be v) s = .next t ∧ Keeps s t [.io] ∧
      t.core.io.out = .htpWrite addr.toNat st :: s.core.io.out := by
  subst hst
  have hanswer := htpWrite_of_not_ok s.core v hne
  rw [exec_regWrite, missionReset_next _ s hruns (by rw [hanswer, answerHtp_rstReq, hreq])]
  exact ⟨_, rfl, act_answerHtp s _ _ hanswer⟩

/-! ## The statement -/

/-- Settles O12: each broken check fixes the status of the access, and an access whose status is not OK only adds its answer. -/
theorem brokenAccessesAreAnsweredAndDoNothing : Obligations.BrokenAccessesAreAnsweredAndDoNothing := by
  intro s addr len be v hruns hreq
  refine ⟨fun hlen => ?_, fun hlen hbe => ?_, fun hpage hlen => ?_⟩
  · have hst (beOk : Bool) : htpStatus addr.toNat len.toNat beOk = .fault :=
      htpStatus_of_len_ne_zero _ beOk (by simpa [BitVec.toNat_eq] using hlen)
    exact ⟨regRead_not_ok hruns (hst true) (by decide), regWrite_not_ok v hruns hreq (hst _) (by decide)⟩
  · subst hlen
    have hoff : (be == 0xF) = false := beq_false_of_ne hbe
    exact regWrite_not_ok v hruns hreq (hoff ▸ htpStatus_of_byte_disabled _) (by decide)
  · subst hlen
    have hst : htpStatus addr.toNat 0 true = .noTarget := htpStatus_of_no_page hpage
    refine ⟨regRead_not_ok hruns hst (by decide), fun hbe => ?_⟩
    subst hbe
    exact regWrite_not_ok v hruns hreq hst (by decide)

/-- The statement's hypotheses can be met together: a block out of reset, and an access behind the last page of Table 4.1. -/
theorem read_behind_last_page_answers_noTarget :
    ∃ t, exec (.regRead 0x3FF000 0) { State.reset with rst := { active := false } } = .next t ∧
      t.core.io.out = [.htpRead 0x3FF000 .noTarget 0] := by
  obtain ⟨-, -, hnone⟩ := brokenAccessesAreAnsweredAndDoNothing { State.reset with rst := { active := false } } 0x3FF000 0 0xF 0
    rfl rfl
  obtain ⟨⟨t, hexec, -, hout⟩, -⟩ := hnone (by decide) rfl
  exact ⟨t, hexec, hout⟩

end Sys2Proof.Machine
end

/-! PROOFS. A reset clears the whole block, whatever starts it (03, R113, R118, R121). -/
section

namespace Sys2Proof.Machine

/-! ## A state that is out of reset or has just entered it -/

/-- The block is out of reset, or a reset has just started. -/
def OutOrStarted (t : State) : Prop :=
  t.rst.active = false ∨ ∃ (u : State) (cause : BitVec 4) (fatal : Option (List Word)), t = startReset u cause fatal

theorem startReset_core_cleared (u : State) (cause : BitVec 4) (fatal : Option (List Word)) :
    (startReset u cause fatal).core = { resetCore with io := { out := (startReset u cause fatal).core.io.out } } := rfl

theorem OutOrStarted.core_cleared {t : State} (h : OutOrStarted t) (hact : t.rst.active = true) :
    t.core = { resetCore with io := { out := t.core.io.out } } := by
  obtain hout | ⟨u, cause, fatal, rfl⟩ := h
  · exact absurd (hout.symm.trans hact) Bool.false_ne_true
  · exact startReset_core_cleared u cause fatal

/-! ## What each kind of command does to a block out of reset -/

section

variable {s t : State}

theorem outOrStarted_of_active_eq (h : t.rst.active = s.rst.active) (hs : s.rst.active = false) : OutOrStarted t :=
  Or.inl (h.trans hs)

theorem outOrStarted_of_mission {f : Core → Core} (h : mission f s = .next t) (hs : s.rst.active = false) :
    OutOrStarted t := by
  obtain ⟨hrst, -⟩ := mission_rst f s t h
  exact outOrStarted_of_active_eq (congrArg Rst.active hrst) hs

theorem outOrStarted_of_missionReset {f : Core → Core} (h : missionReset f s = .next t) (hs : s.rst.active = false) :
    OutOrStarted t := by
  obtain ⟨-, hstill⟩ | ⟨-, -, hact⟩ | ⟨cause, -, -, hstart⟩ := missionReset_cases f s
  · cases hstill.symm.trans h; exact Or.inl hs
  · cases hact.symm.trans h; exact Or.inl hs
  · cases hstart.symm.trans h; exact Or.inr ⟨_, cause, _, rfl⟩

theorem resetInput_eq_startReset (cause : BitVec 4) (hs : s.rst.active = false) :
    resetInput cause s = .next (startReset s cause none) := by simp [resetInput, hs]

theorem outOrStarted_of_resetInput {cause : BitVec 4} (h : resetInput cause s = .next t) (hs : s.rst.active = false) :
    OutOrStarted t := by
  cases (resetInput_eq_startReset cause hs).symm.trans h
  exact Or.inr ⟨s, cause, none, rfl⟩

theorem execEndOfReset_still (straps : Straps) (bank0 bank1 bank2 bank3 : BitVec 128) (hs : s.rst.active = false) :
    execEndOfReset straps bank0 bank1 bank2 bank3 s = .next s := by simp [execEndOfReset, hs]

/-- Of the kept state, the end of a bring-up stage changes at most the partner epoch (03, R123). -/
theorem execBringupStageEnd_active (h : execBringupStageEnd s = .next t) : t.rst.active = s.rst.active := by
  unfold execBringupStageEnd at h
  dsimp only at h
  split at h
  · cases h; rfl
  · split at h
    · cases h; rfl
    · cases h
      exact (apply_ite Rst.active _ _ _).trans (ite_self _)

theorem execScanMode_active {high : Bool} (h : execScanMode high s = .next t) : t.rst.active = s.rst.active := by
  cases h; rfl

theorem execWpMbist_active {fail : Reg} (h : execWpMbist fail s = .next t) : t.rst.active = s.rst.active := by
  unfold execWpMbist at h
  split at h <;> cases h <;> rfl

end

/-! ## The statement -/

/-- The two reset inputs start a reset at once.  Seven rows act on the running block and may ask for a reset.  Four rows act
on more than the running block (the kept state, a pin, the memory self-test) and start none; nor does any other row, whose effect
on the block is a `mission`. -/
theorem outOrStarted_of_exec {s t : State} (i : Instr) (h : exec i s = .next t) (hs : s.rst.active = false) : OutOrStarted t := by
  cases i with
  | porReset => exact outOrStarted_of_resetInput h hs
  | warmReset => exact outOrStarted_of_resetInput h hs
  | softRst => rw [exec, execSoftRst] at h; exact outOrStarted_of_missionReset h hs
  | criticalErrorReset => rw [exec, execCriticalErrorReset] at h; exact outOrStarted_of_missionReset h hs
  | regWrite => rw [exec_regWrite] at h; exact outOrStarted_of_missionReset h hs
  | lehrEscalate => rw [exec, execLehrEscalate] at h; exact outOrStarted_of_missionReset h hs
  | reset => rw [exec, execReset] at h; exact outOrStarted_of_missionReset h hs
  | sramUncorrectable => rw [exec, execSramUncorrectable] at h; exact outOrStarted_of_missionReset h hs
  | dbgData => rw [exec, execDbgData] at h; exact outOrStarted_of_missionReset h hs
  | endOfReset straps bank0 bank1 bank2 bank3 =>
    cases (execEndOfReset_still straps bank0 bank1 bank2 bank3 hs).symm.trans h
    exact Or.inl hs
  | bringupStageEnd => exact outOrStarted_of_active_eq (execBringupStageEnd_active h) hs
  | scanMode => exact outOrStarted_of_active_eq (execScanMode_active h) hs
  | wpMbist => exact outOrStarted_of_active_eq (execWpMbist_active h) hs
  | _ => exact outOrStarted_of_mission h hs

/-- Settles O4: a command that finds the block out of reset can bring it into reset only by `startReset`, which clears it whole. -/
theorem everyResetSourceResetsTheWholeBlock : Obligations.EveryResetSourceResetsTheWholeBlock :=
  fun i _ _ hs hexec hact => (outOrStarted_of_exec i hexec hs).core_cleared hact

/-- The statement's hypotheses can be met together: a write of SOFT_RST on a block that is up and has counted clocks. -/
theorem softRst_clears_running_block :
    ∃ t, exec (.softRst 0xC1A5) { State.reset with rst := { active := false }, core := { bring := { stage := 7 }, tclk := 5 } } =
        .next t ∧ t.core = { resetCore with io := { out := [.htpWrite 0x3100 .ok] } } :=
  ⟨_, rfl, everyResetSourceResetsTheWholeBlock (.softRst 0xC1A5)
    { State.reset with rst := { active := false }, core := { bring := { stage := 7 }, tclk := 5 } } _ rfl rfl rfl⟩

end Sys2Proof.Machine
end

/-! PROOFS. The errors of a page (04, R165-R167, Table 4.2). -/
section

namespace Sys2Proof.Machine

/-! ## The page after an error: which error it is decides what is recorded -/

section

variable (c : Core) (p code lo hi : Nat)

/-- The first error since the last clear is held (04, R166). -/
theorem getPage_pageErr_of_first (hclear : (getPage c p).code = 0) :
    getPage (pageErr c p code lo hi) p =
      { getPage c p with irqRaw := (getPage c p).irqRaw ||| 1, code := BitVec.ofNat 8 code, infoLo := r32 lo, infoHi := r32 hi } := by
  rw [pageErr, getPage_modPage_self]
  exact if_pos hclear

/-- A later error only counts, and the count stays at 0xFFFF (04, R166, Table 4.2). -/
theorem getPage_pageErr_of_later (hheld : (getPage c p).code ≠ 0) :
    getPage (pageErr c p code lo hi) p =
      { getPage c p with
          irqRaw := (getPage c p).irqRaw ||| 1
          more := BitVec.ofNat 16 (min 0xFFFF ((getPage c p).more.toNat + 1)) } := by
  rw [pageErr, getPage_modPage_self]
  exact if_neg hheld

theorem getPage_pageErr_ne {q : Nat} (hq : q ≠ p) : getPage (pageErr c p code lo hi) q = getPage c q :=
  getPage_modPage_ne _ _ _ _ hq

/-- First or later, an error sets IRQ_RAW.ERR (04, R167). -/
theorem irqRaw_pageErr : (getPage (pageErr c p code lo hi) p).irqRaw = (getPage c p).irqRaw ||| 1 := by
  by_cases hcode : (getPage c p).code = 0
  · rw [getPage_pageErr_of_first _ _ _ _ _ hcode]
  · rw [getPage_pageErr_of_later _ _ _ _ _ hcode]

/-- The saturated count fits the field, so MORE holds it unchanged (04, Table 4.2). -/
theorem more_pageErr_of_later (hheld : (getPage c p).code ≠ 0) :
    (getPage (pageErr c p code lo hi) p).more.toNat = min 0xFFFF ((getPage c p).more.toNat + 1) := by
  rw [getPage_pageErr_of_later _ _ _ _ _ hheld]
  exact Nat.mod_eq_of_lt (by omega)

end

/-! ## The statement -/

/-- Settles O16: whether CODE is clear decides between holding the error and counting it, and only this page changes. -/
theorem pageErrorsHoldTheFirst : Obligations.PageErrorsHoldTheFirst := by
  intro c p code lo hi hcode
  refine ⟨irqRaw_pageErr .., fun hclear => ?_, fun hheld => ?_, fun q hq => getPage_pageErr_ne _ _ _ _ _ hq⟩
  · rw [getPage_pageErr_of_first _ _ _ _ _ hclear]
    exact ⟨Nat.mod_eq_of_lt hcode, rfl, rfl, rfl⟩
  · have hmore := more_pageErr_of_later c p code lo hi hheld
    rw [getPage_pageErr_of_later _ _ _ _ _ hheld] at hmore ⊢
    exact ⟨rfl, rfl, rfl, hmore⟩

/-- Both branches are reached from reset: the GLB page holds its first error and counts the second. -/
theorem second_error_of_reset_counts :
    (getPage (pageErr resetCore 0 8 0x10 0) 0).code.toNat = 8 ∧
      (getPage (pageErr (pageErr resetCore 0 8 0x10 0) 0 9 0x20 0) 0).code = (getPage (pageErr resetCore 0 8 0x10 0) 0).code ∧
      (getPage (pageErr (pageErr resetCore 0 8 0x10 0) 0 9 0x20 0) 0).more.toNat = 1 := by
  obtain ⟨-, hfirst, -, -⟩ := pageErrorsHoldTheFirst resetCore 0 8 0x10 0 (by decide)
  obtain ⟨-, -, hlater, -⟩ := pageErrorsHoldTheFirst (pageErr resetCore 0 8 0x10 0) 0 9 0x20 0 (by decide)
  obtain ⟨hcode, -, -, hmore⟩ := hlater (by decide)
  exact ⟨(hfirst rfl).1, hcode, hmore⟩

/-- The count at its bound: an error that finds MORE at 0xFFFF leaves it there. -/
theorem full_more_stays :
    (getPage (pageErr (modPage resetCore 0 (fun g => { g with code := 8, more := 0xFFFF })) 0 9 0 0) 0).more.toNat = 0xFFFF :=
  more_pageErr_of_later (modPage resetCore 0 (fun g => { g with code := 8, more := 0xFFFF })) 0 9 0 0 (by decide)

end Sys2Proof.Machine
end
